-- ==== Sys2Proof/Word.lean ====
section
/-! DEFINITION. The word types of the machine (R2 to R5) and their plainest arithmetic. -/
namespace Sys2Proof

/-- A byte (R4). -/
abbrev Byte := BitVec 8
/-- A half word. -/
abbrev Half := BitVec 16
/-- A 32-bit word: an instruction word or the contents of one lane (R28, R37). -/
abbrev Word := BitVec 32
/-- A 64-bit doubleword: a scalar register or one lane of a port entry (R37, R12). -/
abbrev Dword := BitVec 64
/-- A mask over the lanes of a row, bit i for lane i (R19). -/
abbrev Mask := BitVec 64

/-- One bit out of a Bool. -/
def bit (b : Bool) : BitVec 1 := BitVec.ofBool b

/-- The little-endian value of a list of bytes (R4). -/
def leNat : List Byte → Nat
  | [] => 0
  | b :: bs => b.toNat + 256 * leNat bs

/-- The n little-endian bytes of a value (R4). -/
def leBytes : Nat → Nat → List Byte
  | 0, _ => []
  | n + 1, v => BitVec.ofNat 8 v :: leBytes n (v / 256)

end Sys2Proof
end

