-- ==== Sys2Proof/Config.lean ====
section
/-! DEFINITION. What one device fixes and the manual leaves open: opaque constants, of which nothing can be proved
(R452, R453; DESIGN CHOICE, log entry 14). -/
namespace Sys2Proof.Config

/-- Whether an image verifies under R452: its signature and its security version. DESIGN CHOICE: log entry 14. -/
opaque imageVerifies : Nat → List Byte → Bool
/-- The signature of the identity key over a quote body, made with a one-time index: 5,605 bytes (R453, R454).
DESIGN CHOICE: log entry 14. -/
opaque quoteSignature : List Byte → Nat → Vector Byte 5605
/-- The measurement of the boot ROM, of 32 bytes (R453). DESIGN CHOICE: log entry 14. -/
opaque bootRomMeasure : Vector Byte 32
/-- The SHAKE256 measurement of an image, of 32 bytes (R453). DESIGN CHOICE: log entry 14. -/
opaque imageMeasure : List Byte → Vector Byte 32
/-- The hash of the fused public key (R453). DESIGN CHOICE: log entry 14. -/
opaque keyHash : List Byte
/-- The lifecycle state (R453). DESIGN CHOICE: log entry 14. -/
opaque lifecycle : Dword
/-- Whether the burn of a signature fuse is confirmed on read-back (R454). DESIGN CHOICE: log entry 14. -/
opaque burnConfirmed : Nat → Bool
/-- The layout of a quote: the body that holds a nonce, the device ID, the hash of the public key, DBGEN, the lifecycle
state and the measurements of the boot ROM and the images (R453); the manual states no layout.
DESIGN CHOICE: log entry 14. -/
opaque quoteBody : List Byte → Nat → List Byte → Bool → Dword → Vector Byte 32 → List (Vector Byte 32) → List Byte
/-- What a read of BOOTSTAT finds while the rails are removed (R474: it is unreadable). DESIGN CHOICE: log entry 39. -/
opaque unreadable : BitVec 64
/-- A byte between the metadata and the values of a card that a sparse SHTR writes, by command and offset: the manual
states no value (R327). DESIGN CHOICE: log entry 37. -/
opaque cardPad : Nat → Nat → Byte

/-- The phase index that a result of BARRIER_RESET or BARRIER_INVALID holds, by row and counter: the manual states none,
since no phase has completed (R372). DESIGN CHOICE: log entry 36. -/
opaque resetPhase : Nat → Nat → BitVec 32

/-- The cause recorded where the argument block of a walk cannot be read, by command: the manual gives the status only
(R135, R195). DESIGN CHOICE: log entry 38. -/
opaque argumentCause : Nat → BitVec 8
/-- ELEM (word 1) and RESULT (word 3) in the status record of a walk that fails its checks at issue, by command and word:
no walk runs there whose registers they would be (R191, R194). DESIGN CHOICE: log entry 38. -/
opaque rejectedWalk : Nat → Nat → BitVec 64

/-- What the monitor reads in a CSR of a row when it has taken no trapped row, by CSR: the manual gives CSRR to privileged
mode and states no value there (R275, R405). DESIGN CHOICE: log entry 20. -/
opaque csrOfNoRow : BitVec 12 → BitVec 64

/-- A byte of a save area, by its physical address, to which the manual gives no contents (R423, R424): the registers v28
and v29, places past a count, the rest of the record of an exited row, and what lies between sections.
DESIGN CHOICE: log entry 39. -/
opaque savedFill : Nat → Byte

end Sys2Proof.Config
end

