-- ==== Sys2Proof/Syntax.lean ====
section
/-! DEFINITION. The instructions: one constructor for each row of the opcode table, and the codes their fields hold (R44 to R47, R56, R57, R196, R197). -/
namespace Sys2Proof

/-- The number of a vector or scalar register (R37). -/
abbrev Reg := BitVec 5
/-- The number of a mask register (R37). -/
abbrev MReg := BitVec 3
/-- The number of a walker register w0 to w15 (R187). -/
abbrev WReg := BitVec 4
/-- A compute die, 0 to 3 (R13). -/
abbrev DieId := BitVec 2
/-- A cluster of the package: die, cluster number (R16). -/
abbrev ClusterId := BitVec 6
/-- A core of the package: die, cluster number, core number (R16, R445). -/
abbrev CoreId := BitVec 8

/-- A logical row: its core, pane and physical row (R20, R216). -/
structure RowId where
  core : CoreId
  pane : BitVec 2
  prow : BitVec 7
  deriving DecidableEq, Repr

/-- The type codes of R44. -/
inductive TyCode
  | i32 | n32 | i16 | n16 | i8 | n8 | i64 | n64 | f32 | f16 | bf16 | e4m3 | e5m2 | q16 | f16x2 | bf16x2
  deriving DecidableEq, Repr

/-- The condition codes of R45. -/
inductive Cond
  | eq | ne | lt | le | gt | ge
  deriving DecidableEq, Repr

/-- The scope codes of R46. -/
inductive Scope
  | row | band | core | skein | die | pkg | sys
  deriving DecidableEq, Repr

/-- The batch classes of R47. -/
inductive BClass
  | mx | sh | gs | wk | nw
  deriving DecidableEq, Repr

/-- The forms of VFSGN (R260). -/
inductive SgnOp
  | cpy | neg | xor
  deriving DecidableEq, Repr

/-- The operations of VRED and VSCAN (R243). -/
inductive RedOp
  | add | min | max
  deriving DecidableEq, Repr

/-- The types of VRED and VSCAN (R243). -/
inductive RedTy
  | i32 | n32 | f32 | bf16x2
  deriving DecidableEq, Repr

/-- The forms of MPOPC (R246). -/
inductive PopFn
  | count | lowest | highest
  deriving DecidableEq, Repr

/-- The operations of MLOG (R248). -/
inductive MaskOp
  | and | or | xor | andn | not | set | clear
  deriving DecidableEq, Repr

/-- The operations of ATOM and RATOM (R240). -/
inductive AtomOp
  | addI32 | addF32 | minI32 | maxI32 | and | or | xchg | cas
  deriving DecidableEq, Repr

/-- The operations of SRED; NRED uses the first five (R180, R441). -/
inductive SredOp
  | addF32 | addBf16x2 | addI32 | minF32 | maxF32 | minI32 | maxI32
  deriving DecidableEq, Repr

/-- The conditions of BCC (R200). -/
inductive WCond
  | eq | ne | lt | ge | ltu | geu
  deriving DecidableEq, Repr

/-- The translation caches of R128. -/
inductive CacheId
  | shuttle (c : CoreId)
  | cluster (c : ClusterId)
  | network
  deriving DecidableEq, Repr

/-- An access that arrives from a peer (R436). -/
inductive PeerAccess
  /-- A line of an NPUT. -/
  | write (va : BitVec 52) (data : List Byte)
  /-- A line of an NGET. -/
  | read (va : BitVec 52) (len : Nat)
  /-- The update of an NSIG, or of the RSIG of an NPUT. -/
  | signal (va : BitVec 52) (v : Dword) (set : Bool)
  deriving DecidableEq, Repr

/-- What an NRED message carries: the operation of its sender and the words (R442). -/
structure NredPart where
  op : SredOp
  words : List Word
  deriving DecidableEq, Repr

/-- Where an NRED message comes from in the tree of R442. -/
inductive NredFrom
  | child0 | child1 | parent
  deriving DecidableEq, Repr

/-- A host address: a BAR and an offset (R429). -/
inductive HostAddr
  | bar0 (off : Nat)
  | bar2 (off : Nat)
  deriving DecidableEq, Repr

/-- One constructor for each row of the opcode table, with the fields its word carries.
Fields d, a, b, m name the D, A, B and MSK fields; ta and tb the trap bits; s, x, o the S, X and OFF6 fields; u the unsigned bit of a type. The constructors without an encoding are the events of the table. -/
inductive Instr
  /-- IMX (R50): Hint word that widens the immediate of the next I-format instruction by 24 bits. -/
  | imx (p : BitVec 24)
  /-- REP (R51): Hint word that repeats the next instruction 1 to 64 times, stepping its register fields. -/
  | rep (c : BitVec 6) (d a b : BitVec 2)
  /-- MOD (R54): Hint word that sets rounding mode, saturation, trap-on-empty destination and 64-bit port access for the next instruction. -/
  | mod (r : BitVec 3) (s t w : Bool)
  /-- SCHD (R55): Hint word that marks a long wait and sets a yield priority for the next instruction. -/
  | schd (l : Bool) (y : BitVec 2)
  /-- SADD (R253): Scalar 64-bit addition. -/
  | sadd (d a b : Reg) (ta tb : Bool)
  /-- SSUB (R253): Scalar 64-bit subtraction. -/
  | ssub (d a b : Reg) (ta tb : Bool)
  /-- SMUL (R253): Low 64 bits of a scalar product. -/
  | smul (d a b : Reg) (ta tb : Bool)
  /-- SMULH (R253): High 64 bits of the signed or unsigned 128-bit scalar product. -/
  | smulh (d a b : Reg) (ta tb u : Bool)
  /-- SDIV (R253): Scalar division under the integer division rules. -/
  | sdiv (d a b : Reg) (ta tb u : Bool)
  /-- SREM (R253): Scalar remainder under the integer division rules. -/
  | srem (d a b : Reg) (ta tb u : Bool)
  /-- SAND (R253): Scalar bitwise and. -/
  | sand (d a b : Reg) (ta tb : Bool)
  /-- SOR (R253): Scalar bitwise or. -/
  | sor (d a b : Reg) (ta tb : Bool)
  /-- SXOR (R253): Scalar bitwise exclusive or. -/
  | sxor (d a b : Reg) (ta tb : Bool)
  /-- SSHL (R253): Scalar shift left by a register count. -/
  | sshl (d a b : Reg) (ta tb : Bool)
  /-- SSHR (R253): Scalar arithmetic or logical right shift by a register count. -/
  | sshr (d a b : Reg) (ta tb u : Bool)
  /-- SMIN (R253): Scalar signed or unsigned minimum. -/
  | smin (d a b : Reg) (ta tb u : Bool)
  /-- SMAX (R253): Scalar signed or unsigned maximum. -/
  | smax (d a b : Reg) (ta tb u : Bool)
  /-- SCMP (R253): Scalar comparison writing 1 or 0. -/
  | scmp (d a b : Reg) (ta tb u : Bool) (c : Cond)
  /-- SSEL (R253): Scalar select by a condition register s0 to s15. -/
  | ssel (d a b : Reg) (ta tb : Bool) (c : BitVec 4)
  /-- SADDI (R254): Scalar addition of an immediate. -/
  | saddi (d a : Reg) (i : BitVec 14)
  /-- SANDI (R254): Scalar and with an immediate. -/
  | sandi (d a : Reg) (i : BitVec 14)
  /-- SORI (R254): Scalar or with an immediate. -/
  | sori (d a : Reg) (i : BitVec 14)
  /-- SXORI (R254): Scalar exclusive or with an immediate. -/
  | sxori (d a : Reg) (i : BitVec 14)
  /-- SSHLI (R254): Scalar shift left by an immediate count. -/
  | sshli (d a : Reg) (n : BitVec 6)
  /-- SSHRI (R254): Scalar arithmetic or logical right shift by an immediate count. -/
  | sshri (d a : Reg) (k : Bool) (n : BitVec 6)
  /-- SLI (R254): Load an immediate into a scalar register. -/
  | sli (d : Reg) (i : BitVec 14)
  /-- SPOPC (R253): Count the set bits of a scalar. -/
  | spopc (d a : Reg) (ta : Bool)
  /-- SCLZ (R253): Count the leading zeros of a scalar. -/
  | sclz (d a : Reg) (ta : Bool)
  /-- SMOV (R253): Copy a scalar register. -/
  | smov (d a : Reg) (ta : Bool)
  /-- BRA (R267): Unconditional relative jump. -/
  | bra (o : BitVec 24)
  /-- BZ (R267): Branch if a scalar is zero. -/
  | bz (a : Reg) (o : BitVec 19)
  /-- BNZ (R267): Branch if a scalar is nonzero. -/
  | bnz (a : Reg) (o : BitVec 19)
  /-- CALL (R267): Relative call that writes the return address to s31. -/
  | call (o : BitVec 24)
  /-- RET (R267): Jump to the address in a scalar register, s31 by default. -/
  | ret (a : Reg) (ta : Bool)
  /-- JMPR (R267): Jump to the address in a scalar register. -/
  | jmpr (a : Reg) (ta : Bool)
  /-- EXIT (R269): End the row: deliver deferred flags, seal open commands, set port flags, release the lease. -/
  | exit
  /-- YIELD (R270): Lower the row's issue priority for 16 V-cycles. -/
  | yield
  /-- NOP (R270): No operation. -/
  | nop
  /-- IF (R272): Open a divergent region, narrowing m0 by a mask. -/
  | ifm (k : MReg) (o : BitVec 19)
  /-- ELSE (R272): Switch m0 to the lanes that wait for the else path. -/
  | elsem (o : BitVec 19)
  /-- ENDIF (R272): Close an IF region and restore m0. -/
  | endifm
  /-- LOOP (R272): Open a loop region on the mask stack. -/
  | loopm (o : BitVec 19)
  /-- BRKM (R272): Remove lanes from the innermost loop under a mask. -/
  | brkm (k : MReg) (o : BitVec 19)
  /-- ENDL (R272): Loop back while lanes remain, otherwise restore m0 and pop. -/
  | endl (o : BitVec 19)
  /-- VADD (R255): Lane-wise integer addition, optionally saturating. -/
  | vadd (d a b : Reg) (m : MReg) (ta tb u : Bool)
  /-- VSUB (R255): Lane-wise integer subtraction, optionally saturating. -/
  | vsub (d a b : Reg) (m : MReg) (ta tb u : Bool)
  /-- VMUL (R255): Lane-wise low 32 bits of a product. -/
  | vmul (d a b : Reg) (m : MReg) (ta tb u : Bool)
  /-- VMULH (R255): Lane-wise high 32 bits of a product. -/
  | vmulh (d a b : Reg) (m : MReg) (ta tb u : Bool)
  /-- VMAD (R255): Lane-wise multiply-add into the destination. -/
  | vmad (d a b : Reg) (m : MReg) (ta tb u : Bool)
  /-- VABS (R255): Lane-wise absolute value. -/
  | vabs (d a : Reg) (m : MReg) (ta : Bool)
  /-- VMIN (R255): Lane-wise integer minimum. -/
  | vmin (d a b : Reg) (m : MReg) (ta tb u : Bool)
  /-- VMAX (R255): Lane-wise integer maximum. -/
  | vmax (d a b : Reg) (m : MReg) (ta tb u : Bool)
  /-- VAND (R255): Lane-wise bitwise and. -/
  | vand (d a b : Reg) (m : MReg) (ta tb : Bool)
  /-- VOR (R255): Lane-wise bitwise or. -/
  | vor (d a b : Reg) (m : MReg) (ta tb : Bool)
  /-- VXOR (R255): Lane-wise bitwise exclusive or. -/
  | vxor (d a b : Reg) (m : MReg) (ta tb : Bool)
  /-- VANDN (R255): Lane-wise and with the complement of the second source. -/
  | vandn (d a b : Reg) (m : MReg) (ta tb : Bool)
  /-- VSHL (R255): Lane-wise shift left by a register count. -/
  | vshl (d a b : Reg) (m : MReg) (ta tb : Bool)
  /-- VSHR (R255): Lane-wise arithmetic or logical right shift by a register count. -/
  | vshr (d a b : Reg) (m : MReg) (ta tb u : Bool)
  /-- VSHLI (R255): Lane-wise shift left by a 5-bit immediate. -/
  | vshli (d a n : Reg) (m : MReg) (ta : Bool)
  /-- VSHRI (R255): Lane-wise right shift by a 5-bit immediate. -/
  | vshri (d a n : Reg) (m : MReg) (ta u : Bool)
  /-- VADDI (R256): Lane-wise addition of an immediate under m0. -/
  | vaddi (d a : Reg) (i : BitVec 14)
  /-- VCMP (R257): Lane-wise integer comparison into a mask register. -/
  | vcmp (d : MReg) (a b : Reg) (m : MReg) (ta tb u : Bool) (c : Cond)
  /-- VCMPI (R257): Lane-wise comparison with a 5-bit immediate into a mask register. -/
  | vcmpi (d : MReg) (a i : Reg) (m : MReg) (ta u : Bool) (c : Cond)
  /-- VSEL (R258): Lane-wise select under a selector mask. -/
  | vsel (d a b : Reg) (m : MReg) (ta tb : Bool) (c : MReg)
  /-- VPOPC (R255): Lane-wise count of set bits. -/
  | vpopc (d a : Reg) (m : MReg) (ta : Bool)
  /-- VCLZ (R255): Lane-wise count of leading zeros. -/
  | vclz (d a : Reg) (m : MReg) (ta : Bool)
  /-- VMOV (R255): Lane-wise move, with 64-bit port forms under MOD.PW. -/
  | vmov (d a : Reg) (m : MReg) (ta : Bool)
  /-- VMOVS (R255): Broadcast the low 32 bits of a scalar into active lanes. -/
  | vmovs (d a : Reg) (m : MReg) (ta : Bool)
  /-- VLI (R256): Load an immediate into the lanes of m0. -/
  | vli (d : Reg) (i : BitVec 14)
  /-- VSATN (R259): Lane-wise saturating narrowing to 16 or 8 bits. -/
  | vsatn (d a : Reg) (m : MReg) (ta : Bool) (f : TyCode)
  /-- VDOT4 (R255): Lane-wise four-byte dot product accumulated into the destination. -/
  | vdot4 (d a b : Reg) (m : MReg) (ta tb u : Bool)
  /-- VFADD (R260): Lane-wise FP32 addition. -/
  | vfadd (d a b : Reg) (m : MReg) (ta tb : Bool)
  /-- VFSUB (R260): Lane-wise FP32 subtraction. -/
  | vfsub (d a b : Reg) (m : MReg) (ta tb : Bool)
  /-- VFMUL (R260): Lane-wise FP32 multiplication. -/
  | vfmul (d a b : Reg) (m : MReg) (ta tb : Bool)
  /-- VFMA (R260): Lane-wise fused FP32 multiply-add into the destination. -/
  | vfma (d a b : Reg) (m : MReg) (ta tb : Bool)
  /-- VFMIN (R260): Lane-wise FP32 minimum. -/
  | vfmin (d a b : Reg) (m : MReg) (ta tb : Bool)
  /-- VFMAX (R260): Lane-wise FP32 maximum. -/
  | vfmax (d a b : Reg) (m : MReg) (ta tb : Bool)
  /-- VFSGN (R260): Lane-wise sign copy, negated copy or sign exclusive or. -/
  | vfsgn (d a b : Reg) (m : MReg) (ta tb : Bool) (f : SgnOp)
  /-- VFRCP (R260): Lane-wise correctly rounded FP32 reciprocal. -/
  | vfrcp (d a : Reg) (m : MReg) (ta : Bool)
  /-- VFRSQ (R260): Lane-wise correctly rounded FP32 reciprocal square root. -/
  | vfrsq (d a : Reg) (m : MReg) (ta : Bool)
  /-- VFSQRT (R260): Lane-wise correctly rounded FP32 square root. -/
  | vfsqrt (d a : Reg) (m : MReg) (ta : Bool)
  /-- VFDIV (R260): Lane-wise correctly rounded FP32 division. -/
  | vfdiv (d a b : Reg) (m : MReg) (ta tb : Bool)
  /-- VFEXP2 (R260): Lane-wise correctly rounded base-2 exponential. -/
  | vfexp2 (d a : Reg) (m : MReg) (ta : Bool)
  /-- VFLOG2 (R260): Lane-wise correctly rounded base-2 logarithm. -/
  | vflog2 (d a : Reg) (m : MReg) (ta : Bool)
  /-- VFCMP (R262): Lane-wise FP32 comparison into a mask register. -/
  | vfcmp (d : MReg) (a b : Reg) (m : MReg) (ta tb : Bool) (c : Cond)
  /-- VFCLASS (R262): Lane-wise FP32 class word with one bit set. -/
  | vfclass (d a : Reg) (m : MReg) (ta : Bool)
  /-- VFRND (R260): Lane-wise rounding to an integral FP32 value. -/
  | vfrnd (d a : Reg) (m : MReg) (ta : Bool)
  /-- VFSCL (R260): Lane-wise scaling by a power of two with a single rounding. -/
  | vfscl (d a b : Reg) (m : MReg) (ta tb : Bool)
  /-- VHADD (R263): Packed FP16 or BF16 addition per half. -/
  | vhadd (d a b : Reg) (m : MReg) (ta tb bf : Bool)
  /-- VHMUL (R263): Packed FP16 or BF16 multiplication per half. -/
  | vhmul (d a b : Reg) (m : MReg) (ta tb bf : Bool)
  /-- VHFMA (R263): Packed FP16 or BF16 fused multiply-add per half. -/
  | vhfma (d a b : Reg) (m : MReg) (ta tb bf : Bool)
  /-- VCVT (R264): Convert one element per lane between number formats. -/
  | vcvt (d a : Reg) (h : Bool) (s : TyCode) (m : MReg) (ta : Bool) (f : TyCode)
  /-- VCVTS (R266): Convert FP32 lanes multiplied by a scalar scale with one rounding. -/
  | vcvts (d a b : Reg) (m : MReg) (ta tb : Bool) (f : TyCode)
  /-- VSHFL (R242): Lane shuffle by index, xor, up or down. -/
  | vshfl (d a b : Reg) (m : MReg) (ta tb : Bool) (f : BitVec 2)
  /-- VBCST (R242): Broadcast one lane selected by a scalar. -/
  | vbcst (d a b : Reg) (m : MReg) (ta tb : Bool)
  /-- VRED (R243): Tree reduction of active lanes into a scalar; a long-latency producer. -/
  | vred (d a : Reg) (m : MReg) (ta : Bool) (p : RedOp) (y : RedTy)
  /-- VSCAN (R243): Inclusive Hillis-Steele scan over active lanes; a long-latency producer. -/
  | vscan (d a : Reg) (m : MReg) (ta : Bool) (p : RedOp) (y : RedTy)
  /-- VCPRS (R244): Compact active lanes into the low lanes. -/
  | vcprs (d a : Reg) (m : MReg) (ta : Bool)
  /-- VEXPD (R245): Expand low lanes into the active lanes. -/
  | vexpd (d a : Reg) (m : MReg) (ta : Bool)
  /-- MPOPC (R246): Count, lowest or highest lane of a mask into a scalar. -/
  | mpopc (d : Reg) (a m : MReg) (f : PopFn)
  /-- VTOS (R247): Move one lane selected by a scalar into a scalar register. -/
  | vtos (d a b : Reg) (ta tb sx : Bool)
  /-- STOV (R247): Write a scalar into one lane selected by a scalar. -/
  | stov (d a b : Reg) (m : MReg) (ta tb : Bool)
  /-- MLOG (R248): Logical operation on mask registers. -/
  | mlog (d a b : MReg) (f : MaskOp)
  /-- MMOVS_MASK_TO_SCALAR (R248): Copy a mask register into a scalar register. -/
  | mmovsMS (d : Reg) (a : MReg)
  /-- MMOVS_SCALAR_TO_MASK (R248): Copy the low bits of a scalar into a mask register. -/
  | mmovsSM (d : MReg) (a : Reg) (ta : Bool)
  /-- LDV (R232): Load consecutive 4-byte lanes from the window; a long-latency producer. -/
  | ldv (d s : Reg) (m : MReg) (o : BitVec 6)
  /-- STV (R232): Store consecutive 4-byte lanes to the window. -/
  | stv (d s : Reg) (m : MReg) (o : BitVec 6)
  /-- LDVS (R232): Strided vector load from the window. -/
  | ldvs (d s x : Reg) (m : MReg) (o : BitVec 6)
  /-- STVS (R232): Strided vector store to the window. -/
  | stvs (d s x : Reg) (m : MReg) (o : BitVec 6)
  /-- LDVX (R232): Indexed vector load from the window. -/
  | ldvx (d s x : Reg) (m : MReg) (c : BitVec 2) (o : BitVec 4)
  /-- STVX (R232): Indexed vector store to the window. -/
  | stvx (d s x : Reg) (m : MReg) (c : BitVec 2) (o : BitVec 4)
  /-- LDS (R236): Scalar 8-byte load from the window. -/
  | lds (d s : Reg) (o : BitVec 6)
  /-- STS (R236): Scalar 8-byte store to the window. -/
  | sts (d s : Reg) (o : BitVec 6)
  /-- RLDV (R238): Vector load from another band's window in the skein. -/
  | rldv (d s : Reg) (m : MReg) (o : BitVec 6)
  /-- RSTV (R238): Posted vector store to another band's window in the skein. -/
  | rstv (d s : Reg) (m : MReg) (o : BitVec 6)
  /-- ATOM (R240): Per-lane atomic read-modify-write on window words with optional ordering. -/
  | atom (d a b : Reg) (m : MReg) (ord : BitVec 2) (sc : Bool) (p : AtomOp)
  /-- RATOM (R240): Per-lane atomic on remote skein words, returning or posted. -/
  | ratom (d a b : Reg) (m : MReg) (ord : BitVec 2) (rt : Bool) (p : AtomOp)
  /-- TAK2 (R229): Pop a north entry, keep part of it and push it south unchanged. -/
  | tak2 (d : Reg) (m : MReg) (ta w : Bool)
  /-- PUT2 (R230): Push one 64-bit entry built from two registers. -/
  | put2 (a b : Reg) (m : MReg) (ta tb : Bool)
  /-- PQRY (R231): Read the state of the row's two ports. -/
  | pqry (d : Reg)
  /-- SHAPE (R286): Request and record a matrix shape grant for the row. -/
  | shape (d a : Reg) (ta : Bool)
  /-- MGAT (R289): Append indexed 8-byte chunks from the window to the operand latch. -/
  | mgat (d s : Reg) (m : MReg) (o : BitVec 6)
  /-- MLAT (R289): Append consecutive 8-byte chunks from the window to the operand latch. -/
  | mlat (s : Reg) (m : MReg) (o : BitVec 6)
  /-- MMA (R294): Issue a result-stationary dense matrix stream. -/
  | mma (a b : Reg) (m : MReg) (ta tb zp : Bool)
  /-- MMAS (R322): Issue a result-stationary sparse stream over a pattern card. -/
  | mmas (d a b : Reg) (m : MReg) (ta tb zp : Bool)
  /-- MWL (R295): Load the weight latches from the window. -/
  | mwl (s : Reg) (m : MReg) (o : BitVec 6)
  /-- MWF (R296): Issue a weight-stationary forward stream. -/
  | mwf (a b : Reg) (m : MReg) (ta tb : Bool)
  /-- MWB (R297): Issue a weight-stationary backward stream. -/
  | mwb (a b : Reg) (m : MReg) (ta tb : Bool)
  /-- MCLR (R305): Clear P, A, the result queue or the latch. -/
  | mclr (m : MReg) (f : BitVec 4)
  /-- MSCA (R307): Scale and add P into A with one rounding, then clear P. -/
  | msca (a b : Reg) (m : MReg) (ta tb : Bool)
  /-- MDRN (R308): Drain A or a result-queue vector through scale, clip and convert into a register. -/
  | mdrn (d a b : Reg) (m : MReg) (ta tb : Bool) (f : TyCode)
  /-- MMOVP_GP (R306): Move raw P accumulators into a vector register. -/
  | mmovpGP (d : Reg) (m : MReg)
  /-- MMOVP_GA (R306): Move raw A accumulators into a vector register. -/
  | mmovpGA (d : Reg) (m : MReg)
  /-- MMOVP_SP (R306): Move a vector register into the P accumulators. -/
  | mmovpSP (a : Reg) (m : MReg) (ta : Bool)
  /-- MMOVP_SA (R306): Move a vector register into the A accumulators. -/
  | mmovpSA (a : Reg) (m : MReg) (ta : Bool)
  /-- MPACK (R317): Prune a dense operand and pack metadata and values under a card header. -/
  | mpack (d a b : Reg) (ta tb : Bool)
  /-- MUNPK (R321): Expand a pattern card into its dense operand. -/
  | munpk (a b : Reg) (ta tb : Bool)
  /-- CARDCK (R316): Check a pattern card and return its summary. -/
  | cardck (d a : Reg) (ta : Bool)
  /-- QPACK (R330): Quantise FP32 blocks to Q16 indices, scale codes and a super-scale. -/
  | qpack (d a b : Reg) (ta tb : Bool)
  /-- SHCP (R150): Issue a shuttle tile copy command. -/
  | shcp (d a b : Reg) (bar d3 : Bool)
  /-- SHTR (R154): Issue a dense or card-headed transposing shuttle copy. -/
  | shtr (d a : Reg) (exp bar sp : Bool)
  /-- SHSET (R156): Issue a shuttle fill command. -/
  | shset (d a b : Reg) (z : BitVec 2) (bar d3 : Bool)
  /-- GATH (R179): Issue an indexed gather of table elements into window slots. -/
  | gath (d a b : Reg) (bar ixr : Bool)
  /-- SCAT (R179): Issue an indexed scatter of window slots into a table. -/
  | scat (d a b : Reg) (bar ixr : Bool)
  /-- SRED (R181): Issue an indexed scatter-reduction, pre-reduced by the combiner. -/
  | sred (d a b : Reg) (p : SredOp) (ord bar ixr : Bool)
  /-- WKST (R190): Issue a format walker command. -/
  | wkst (d a : Reg) (rl bar : Bool)
  /-- NPUT (R438): Issue a network copy to a remote device, with optional remote signal. -/
  | nput (d a : Reg)
  /-- NGET (R438): Issue a network copy from a remote device. -/
  | nget (d a : Reg) (bar : Bool)
  /-- NRED (R442): Issue a tree all-reduce over a reduction group. -/
  | nred (d a : Reg) (p : SredOp)
  /-- NSIG (R443): Issue a fenced remote event slot update. -/
  | nsig (d a : Reg) (st : Bool)
  /-- SEAL (R164): Close the row's open commands of a class into a numbered batch. -/
  | seal (d : Reg) (c : BClass)
  /-- WAIT (R165): Wait until at most n sealed batches of a class are unfinished and return the fault summary. -/
  | wait (d : Reg) (c : BClass) (n : BitVec 4)
  /-- WSTAT (R166): Read a batch record or its first failing address. -/
  | wstat (d a : Reg) (c : BClass) (addr : Bool)
  /-- BINIT (R374): Initialise a barrier slot with a new generation and configuration. -/
  | binit (a b : Reg) (ta tb : Bool)
  /-- BARV (R374): Arrive at a barrier slot and wait for the phase. -/
  | barv (d a : Reg) (ta : Bool)
  /-- BARX (R374): Arrive at a barrier slot and return a token without waiting. -/
  | barx (d a : Reg) (ta : Bool)
  /-- BWAIT (R374): Wait on a barrier token. -/
  | bwait (d a : Reg) (ta : Bool)
  /-- BWANY (R374): Wait for any of a group of barrier slots to advance. -/
  | bwany (d a b : Reg) (ta tb : Bool)
  /-- BPARK (R374): Arrive, register a parked continuation and exit. -/
  | bpark (a b : Reg) (ta tb : Bool)
  /-- BINV (R374): Invalidate a barrier slot and release its waiters. -/
  | binv (a : Reg) (ta : Bool)
  /-- FENCE (R340): Order the row's accesses at a scope and deliver deferred flags. -/
  | fence (s : Scope)
  /-- GBAR (R377): Launch-wide barrier of a GANG launch. -/
  | gbar (d : Reg)
  /-- CSRR (R275): Read a CSR into a scalar register. -/
  | csrr (d : Reg) (c : BitVec 12)
  /-- CSRW (R275): Write a scalar into the RW fields of a CSR. -/
  | csrw (a : Reg) (c : BitVec 12)
  /-- TRAP (R276): Freeze the row with cause USER_TRAP and a code. -/
  | trap (a : Reg) (i : BitVec 14)
  /-- BKPT (R276): Freeze the row with cause BREAKPOINT and a code. -/
  | bkpt (a : Reg) (i : BitVec 14)
  /-- LNCH (R277): Enqueue a launch block from the window into a launch queue. -/
  | lnch (d a : Reg)
  /-- EVSIG (R278): Fence at system scope and update an event slot. -/
  | evsig (d a : Reg) (st : Bool)
  /-- KRDR (R410): Monitor reads an item of a trapped row's state. -/
  | krdr (d a : Reg)
  /-- KWRR (R410): Monitor writes an item of a trapped row's state. -/
  | kwrr (a b : Reg)
  /-- KRSM (R412): Monitor resumes a trapped row, optionally skipping its instruction. -/
  | krsm (a : Reg)
  /-- KKIL (R413): Monitor ends a band. -/
  | kkil (a : Reg)
  /-- KSAV (R426): Monitor writes a pre-empted unit's save area and frees its resources. -/
  | ksav (d a b : Reg)
  /-- KLOD (R427): Monitor restores a pre-empted unit from its save area. -/
  | klod (d a b : Reg)
  /-- KRET (R414): End the handler or firmware activation, leaving the row trapped. -/
  | kret
  /-- ADD (R199): Walker 64-bit addition. -/
  | wadd (d a b : WReg)
  /-- SUB (R199): Walker 64-bit subtraction. -/
  | wsub (d a b : WReg)
  /-- MUL (R199): Walker 64-bit multiplication. -/
  | wmul (d a b : WReg)
  /-- AND (R199): Walker bitwise and. -/
  | wand (d a b : WReg)
  /-- OR (R199): Walker bitwise or. -/
  | wor (d a b : WReg)
  /-- XOR (R199): Walker bitwise exclusive or. -/
  | wxor (d a b : WReg)
  /-- SHL (R199): Walker shift left. -/
  | wshl (d a b : WReg)
  /-- SHR (R199): Walker logical shift right. -/
  | wshr (d a b : WReg)
  /-- ADDI (R199): Walker addition of a signed 18-bit immediate. -/
  | waddi (d a : WReg) (i : BitVec 18)
  /-- LI (R199): Walker load of a signed 22-bit immediate. -/
  | wli (d : WReg) (i : BitVec 22)
  /-- LD (R201): Walker aligned load through the read buffer and translation. -/
  | wld (d a : WReg) (s : BitVec 2) (i : BitVec 16)
  /-- PREF (R202): Walker prefetch of consecutive lines into the read buffer. -/
  | wpref (d a : WReg) (i : BitVec 16)
  /-- BCC (R200): Walker conditional branch comparing two registers. -/
  | wbcc (a b : WReg) (c : WCond) (o : BitVec 15)
  /-- J (R200): Walker unconditional branch. -/
  | wj (o : BitVec 15)
  /-- POPC (R203): Walker population count. -/
  | wpopc (d a : WReg)
  /-- PFX (R203): Walker prefix population count below a bit position. -/
  | wpfx (d a b : WReg)
  /-- ISECT (R204): Intersect two bitmap words and write position pairs. -/
  | isect (d a b e : WReg)
  /-- PART (R205): Partition a row-pointer array into equal-nonzero shares. -/
  | part (d a b e : WReg)
  /-- EMIT (R206): Start an emission copying a tile into cluster side memory. -/
  | emit (d a b e : WReg) (cr : Bool)
  /-- EMITZ (R206): Start an emission writing a tile of zeros into cluster side memory. -/
  | emitz (d b e : WReg) (cr : Bool)
  /-- SIGB (R208): Wait for earlier walker writes, then credit bytes to the barrier slot. -/
  | sigb (a : WReg)
  /-- END (R209): Stop the walker with cause 0. -/
  | wend
  /-- ILLEGAL_ENCODING (R58): A row decodes a word with an unassigned opcode, a reserved hint KIND, or another illegal encoding and traps with ILLEGAL. -/
  | illegalEncoding (st : Nat)
  /-- BRING_UP_STEP (R474): A bring-up step finishes and the next begins, or recovery mode is entered. -/
  | bringUpStep (ok : Bool) (bad : List Nat)
  /-- DEVICE_RESET (R473): Power-on, PORST_N, fundamental reset, RESET or trip returns all state to reset values and starts bring-up. -/
  | deviceReset
  /-- WALKER_COMMAND_START (R193): A walker command reaches the queue head: program load, argument read, register set-up, run from ENTRY. -/
  | walkerCommandStart (cl : ClusterId)
  /-- WALKER_INSTRUCTION_LIMIT (R195): 2^32 instructions executed in one command stops the walker with cause 5. -/
  | walkerInstructionLimit (cl : ClusterId)
  /-- WALKER_LOAD_DATA (R201): A walker LD or program-load line arrives or fails, and the walker continues or stops. -/
  | walkerLoadData (cl : ClusterId) (line : BitVec 64)
  /-- WALKER_EMISSION_COMPLETE (R208): An emission's last line is written or fails, crediting CR bytes or flagging a stop. -/
  | walkerEmissionComplete (cl : ClusterId) (n : Nat)
  /-- PRODUCER_COMPLETE (R221): A long-latency producer writes its destination and marks it full, waking waiting readers. -/
  | producerComplete (r : RowId) (n : Nat)
  /-- REMOTE_WRITE_PERFORM (R239): A posted RSTV or RATOM is performed at the target window. -/
  | remoteWritePerform (r : RowId)
  /-- PORT_ENTRY_ARRIVE (R302): A port entry completes its hop into the consumer's north port. -/
  | portEntryArrive (r : RowId)
  /-- LATCH_FILL (R290): Bytes of an MLAT or MGAT enter the operand latch. -/
  | latchFill (r : RowId)
  /-- MWL_ARRIVE (R295): MWL data reaches the weight latches. -/
  | mwlArrive (r : RowId)
  /-- STREAM_STEP (R291): A stream makes one step once latch bytes, entry and room are available. -/
  | streamStep (r : RowId)
  /-- STREAM_COMPLETE (R304): A stream finishes its last step; the queued stream starts and its MX command retires. -/
  | streamComplete (r : RowId)
  /-- MSCA_COMPLETE (R307): MSCA finishes, raising its flags and folding the matrix exception record. -/
  | mscaComplete (r : RowId)
  /-- TRANSLATION_WALK_COMPLETE (R128): A page-table walk ends, inserting a translation or failing its requests. -/
  | translationWalkComplete (k : CacheId) (asid : BitVec 6) (va : BitVec 52)
  /-- SHUTTLE_LINE_COMPLETE (R147): A shuttle line is read and written, or fails with a status. -/
  | shuttleLineComplete (c q k : Nat) (link : Bool)
  /-- GS_ELEMENT_COMPLETE (R177): A gather or scatter element line returns or fails at its engine. -/
  | gsElementComplete (c p : Nat) (link : Bool)
  /-- SRED_COMBINE (R181): The combiner takes the next SRED of its core and pre-reduces it into updates. -/
  | sredCombine (c : Nat)
  /-- SRED_UPDATE_APPLY (R182): A reduction unit applies one update indivisibly to a line. -/
  | sredUpdateApply (c g : Nat) (link : Bool)
  /-- NETWORK_ACK (R439): Acknowledgements of a network command's lines return and the command retires. -/
  | networkAck (c l : Nat) (st : Byte) (data : List Byte)
  /-- NETWORK_TIMEOUT (R440): A network command not retired after 2^NRTO.E N-cycles retires with LINK. -/
  | networkTimeout (c : Nat)
  /-- PEER_ACCESS_ARRIVAL (R436): An NPUT or NGET line or NSIG update arrives from a peer and is translated and performed. -/
  | peerAccessArrival (src : BitVec 12) (acc : PeerAccess)
  /-- PEER_FLIT_FORWARD (R435): An arriving flit addressed to another device is forwarded by the route table. -/
  | peerFlitForward (dst : BitVec 12) (data : List Byte)
  /-- NRED_RECEIVE (R442): An NRED rank receives a contribution from a child or the result from its parent. -/
  | nredReceive (c : Nat) (frm : NredFrom) (v : NredPart) (nf : BitVec 2) (bad : Bool)
  /-- PEER_FLIT_CRC_ERROR (R434): A peer flit fails its CRC and is resent; after 16 failures the port goes down. -/
  | peerFlitCrcError (p : Nat)
  /-- TREADLE_FLIT_CRC_ERROR (R428): A treadle flit fails its CRC and is resent; after 16 failures the link goes down. -/
  | treadleFlitCrcError
  /-- HOST_READ (R431): A host read through BAR2 of device physical memory. -/
  | hostRead (a : HostAddr) (n : Nat)
  /-- HOST_WRITE (R431): A host write through BAR2 of device physical memory. -/
  | hostWrite (a : HostAddr) (data : List Byte)
  /-- HOST_READ_HOLD_TIMEOUT (R432): A host read held during a freeze for HOLDLIM ms completes with Completer Abort. -/
  | hostReadHoldTimeout
  /-- QTAIL_WRITE (R353): A write to QTAIL publishes launch blocks in a queue. -/
  | qtailWrite (q : BitVec 4) (v : BitVec 64)
  /-- XINVC_GO (R129): Writing GO starts a translation invalidation. -/
  | xinvcGo (v : BitVec 64)
  /-- INVALIDATION_DONE (R129): Every cache and walk has dropped the entries and DONE returns to 1. -/
  | invalidationDone
  /-- REGISTER_WRITE (R8): A write to a CSR or management register with no row of its own, under its access codes. -/
  | registerWrite (off : Nat) (v : BitVec 64)
  /-- PACEEV_READ (R390): A read of PACEEV returns its fields and clears them. -/
  | paceevRead (r : RowId) (d : Reg)
  /-- PACEREQ_WRITE (R391): The lead row replaces its band's pace request, used from the next round. -/
  | pacereqWrite (r : RowId) (v : BitVec 64)
  /-- RDPOINTS (R478): Mailbox command returning a cluster's operating points. -/
  | rdpoints
  /-- QUOTE (R453): Mailbox command returning a signed attestation quote. -/
  | quote
  /-- SETCAP (R478): Mailbox command setting the power cap and starting an arbiter round. -/
  | setcap
  /-- RDLOG (R484): Mailbox command returning management log records. -/
  | rdlog
  /-- FWCHUNK (R478): Mailbox command storing firmware bytes in the staging area. -/
  | fwchunk
  /-- FWCOMMIT (R478): Mailbox command verifying a staged image and writing it to flash. -/
  | fwcommit
  /-- RESET (R478): Mailbox command that replies OK and then resets the device. -/
  | mbReset
  /-- KEYSTAT (R478): Mailbox command returning the signature key usage. -/
  | keystat
  /-- PREEMPT (R479): Mailbox command pre-empting and holding every unit of a launch. -/
  | preempt
  /-- RESUME (R479): Mailbox command restoring every held unit of a launch. -/
  | resume
  /-- ENDLAUNCH (R479): Mailbox command ending a launch as the default action does. -/
  | endlaunch
  /-- MAILBOX_REPLY (R477): A mailbox command finishes, BUSY falls and MSI-X vector 16 is raised. -/
  | mailboxReply
  /-- DCMD_KRDR (R448): Debug command making the monitor read a row state item. -/
  | dcmdKrdr (g : CoreId)
  /-- DCMD_KWRR (R448): Debug command making the monitor write a row state item. -/
  | dcmdKwrr (g : CoreId)
  /-- DCMD_KRSM (R448): Debug command making the monitor resume a row. -/
  | dcmdKrsm (g : CoreId)
  /-- DCMD_KKIL (R448): Debug command making the monitor end a band. -/
  | dcmdKkil (g : CoreId)
  /-- CHANNEL_RETRAIN (R107): Every 2^20 H-cycles a channel is retrained inside a refresh window. -/
  | channelRetrain (ch : Nat)
  /-- RETRAIN_COMPLETE (R107): A retraining ends, releasing waiting requests or counting a failure. -/
  | retrainComplete (ch : Nat) (ok : Bool)
  /-- COMMAND_PARITY_ALERT (R108): A stack reports a command parity error and the controller replays its history. -/
  | commandParityAlert (ch : Nat) (ok hist : Bool)
  /-- PATROL_SCRUB (R114): Every 4,096 H-cycles scrub reads one line, correcting or reporting it. -/
  | patrolScrub (pc : Nat)
  /-- STACK_HIGH_ENTER (R117): A stack reaches 85 °C: refresh doubles and an H 10 request applies. -/
  | stackHighEnter (st : Nat)
  /-- STACK_HIGH_LEAVE (R117): A stack falls below 80 °C and leaves High. -/
  | stackHighLeave (st : Nat)
  /-- PACKAGE_FREEZE (R118): A stack reaches 100 °C; controllers stop issuing new DRAM commands. -/
  | packageFreeze (st : Nat)
  /-- FREEZE_GATE (R118): Issued commands and refresh finish, stacks self-refresh and every clock is gated. -/
  | freezeGate
  /-- FREEZE_RELEASE (R119): Every stack falls below 90 °C; stacks leave self-refresh and retrain. -/
  | freezeRelease
  /-- FREEZE_RESUME (R119): Retraining ends and clocks restart at the grant in force before the freeze, which has lasted
  dur reference cycles (R484). -/
  | freezeResume (dur : Nat)
  /-- JUNCTION_THROTTLE (R393): A cluster's junction sensor crosses 105, 110 or 100 °C, changing pulse skipping. -/
  | junctionThrottle (cl : ClusterId) (lv : BitVec 2)
  /-- OVERCURRENT (R393): An overcurrent event makes the cluster clocks deliver one pulse in 2. -/
  | overcurrent (cl : ClusterId)
  /-- OVERCURRENT_END (R393): 2^10 reference cycles after an overcurrent event, skipping ends. -/
  | overcurrentEnd (cl : ClusterId)
  /-- THERMAL_TRIP (R483): Junction at 120 °C or coolant lost for 1 s removes the rails. -/
  | thermalTrip (coolant : Bool)
  /-- ARBITER_ROUND (R383): The pace arbiter decides N, H and each cluster's operating point. -/
  | arbiterRound
  /-- PACE_SWITCH (R386): Every band of a cluster stands at a boundary and the clocks stop for the switch. -/
  | paceSwitch (cl : ClusterId)
  /-- PACE_SWITCH_COMPLETE (R387): Clocks restart at the new grant and held rows are released. -/
  | paceSwitchComplete (cl : ClusterId)
  /-- PACE_CHANGE_ABANDON (R385): A pending change not applied within 2^16 V-cycles is abandoned. -/
  | paceChangeAbandon (cl : ClusterId)
  /-- PACE_HN_APPLY (R387): An H change in a refresh window or an N change between flits takes effect. -/
  | paceHnApply
  /-- RATION_MEASURE (R392): Every 2^10 V-cycles a cluster adjusts its ration level from measured power. -/
  | rationMeasure (cl : ClusterId) (mw : Nat)
  /-- WATCHDOG (R395): A wait reaches its domain's limit and the row traps with WATCHDOG. -/
  | watchdog (r : RowId)
  /-- YIELD_INTERVAL_END (R270): 16 V-cycles after YIELD the row regains normal issue priority. -/
  | yieldIntervalEnd (r : RowId)
  /-- EVENT_SLOT_POLL (R354): The distributor reads the wait slots of queue heads. -/
  | eventSlotPoll (q : BitVec 4)
  /-- LAUNCH_ACCEPT (R355): The distributor takes a ready head block, checks it and accepts or rejects it. -/
  | launchAccept
  /-- SKEIN_PLACE (R362): A skein fits a cluster and its bands are leased in one step. -/
  | skeinPlace (l : Nat)
  /-- SKEIN_RESERVATION (R364): A skein waiting 2^16 distributor V-cycles reserves runs in a cluster. -/
  | skeinReservation (l : Nat)
  /-- GANG_RESERVATION (R364): A GANG launch waiting 2^16 V-cycles reserves runs for all its skeins. -/
  | gangReservation (l : Nat)
  /-- STAGING_REGION_RETIRE (R143): A staging region command retires; after the last, the band's rows start. -/
  | stagingRegionRetire (bd : Nat)
  /-- LAUNCH_COMPLETE (R356): A launch completes and its signal slot is incremented. -/
  | launchComplete (l : Nat)
  /-- CONTINUATION_START (R367): A parked continuation is placed as a single-row band once its phase completes and an entry frees. -/
  | continuationStart (k : Nat)
  /-- BARRIER_RELEASE (R371): Rows released by a phase completion become ready with their results. -/
  | barrierRelease (r : RowId)
  /-- GBAR_SLEW_RELEASE (R378): Every 32 M-cycles a die releases the next group of up to 4 clusters. -/
  | gbarSlewRelease (l : Nat) (d : DieId)
  /-- PREEMPT_REQUEST (R416): Pre-emption of a band or chain is requested and its rows stop at boundaries. -/
  | preemptRequest (bd : Nat)
  /-- STREAM_STARVED (R417): A stream making no step for 64 M-cycles during pre-emption stops and is saved. -/
  | streamStarved (r : RowId)
  /-- MONITOR_TRAP_DISPATCH (R406): The core monitor takes the next trapped row and acts on its trap. -/
  | monitorTrapDispatch (g : CoreId)
  /-- HANDLER_INSTRUCTION_LIMIT (R408): The 2^20th instruction of a handler run is a handler fault. -/
  | handlerInstructionLimit (g : CoreId)
  /-- PC_SAMPLE (R449): Every 2^SI V-cycles a partition samples one row's PC and stall reason. -/
  | pcSample (g : CoreId) (p : Nat)
  /-- TRACE_PORT_SEND (R451): The trace port sends the next record in ring order. -/
  | tracePortSend (d : DieId)
  /-- ILLEGAL_WALKER_WORD (R197): The walker reaches a word with an unlisted opcode, a reserved bit set, or a field it does not use, and stops with CAUSE 3. -/
  | illegalWalkerWord (cl : ClusterId)
  /-- INSTRUCTION_FETCH_COMPLETE (R268): A row's fetch of a word from the kernel image completes, and a failing fetch traps with ILLEGAL and records the fetch status. -/
  | instructionFetchComplete (r : RowId)
  /-- EVSIG_UPDATE_PERFORMED (R278): The EVSIG event-slot update is performed at system scope or fails, and sD receives the status. -/
  | evsigUpdatePerformed (r : RowId)
  /-- LNCH_BLOCK_TAKEN (R277): The launch distributor takes or refuses an LNCH block, ending the row's wait and writing sD. -/
  | lnchBlockTaken (r : RowId)
  deriving DecidableEq, Repr

end Sys2Proof
end

