-- ==== Sys2Proof/WellFormed.lean ====
section
/-! DEFINITION. Well-formed instructions: the operands that a word can carry (R35, R38, R39, R44 to R47, R54). -/
namespace Sys2Proof

/-- A vector destination: not v28, v30 or v31 (R39). -/
def vdst (d : Reg) : Bool := d != 28 && d != 30 && d != 31
/-- A vector source: not v29 (R39). -/
def vsrc (a : Reg) : Bool := a != 29
/-- The first register of an E-format group (R35). -/
def groupReg (a : Reg) : Bool := decide (a.toNat ≤ 28)

/-- A packed type (R71). -/
def TyCode.packed : TyCode → Bool
  | .f16x2 | .bf16x2 => true
  | _ => false

/-- The types VSATN narrows to (R259). -/
def satnTy : TyCode → Bool
  | .i16 | .n16 | .i8 | .n8 => true
  | _ => false

/-- The destination types of VCVTS and MDRN (R266, R308). -/
def drainTy : TyCode → Bool
  | .i32 | .n32 | .i16 | .n16 | .i8 | .n8 | .f32 | .f16 | .bf16 | .e4m3 | .e5m2 => true
  | _ => false

/-- The source and destination types of VCVT (R264): no 64-bit type, no Q16 destination, not both packed. -/
def cvtTypes (s f : TyCode) : Bool :=
  s != .i64 && s != .n64 && f != .i64 && f != .n64 && f != .q16 && !(s.packed && f.packed)

/-- The operations and types of VRED and VSCAN (R243). -/
def redLegal : RedOp → RedTy → Bool
  | .min, .bf16x2 | .max, .bf16x2 => false
  | _, _ => true

/-- The reserved source fields of MLOG (R248): B in not, A and B in set and clear. -/
def mlogUnused : MaskOp → MReg → MReg → Bool
  | .not, _, b => b == 0
  | .set, a, b | .clear, a, b => a == 0 && b == 0
  | _, _, _ => true

/-- The listed CSR indices (R215). -/
def csrListed (c : BitVec 12) : Bool :=
  c == 0x000 || c == 0x001 || c == 0x002 || c == 0x003 || c == 0x004 || c == 0x005
    || c == 0x010 || c == 0x011 || c == 0x012 || c == 0x013
    || c == 0x020 || c == 0x021 || c == 0x022 || c == 0x030 || c == 0x031
    || c == 0x040 || c == 0x041 || c == 0x050 || c == 0x060 || c == 0x070

/-- The operations NRED shares with SRED (R441). -/
def nredOp : SredOp → Bool
  | .minI32 | .maxI32 => false
  | _ => true

/-- The register and type restrictions of each instruction's entry (R58, step 6, and the code limits that the
constructor's types do not hold). Events carry no word, so every event is well formed. -/
def Instr.wf : Instr → Bool
  | .mod r _ _ _ => decide (r.toNat ≤ 4)
  | .vadd d a b _ _ _ _ => vdst d && vsrc a && vsrc b
  | .vsub d a b _ _ _ _ => vdst d && vsrc a && vsrc b
  | .vmul d a b _ _ _ _ => vdst d && vsrc a && vsrc b
  | .vmulh d a b _ _ _ _ => vdst d && vsrc a && vsrc b
  | .vmad d a b _ _ _ _ => vdst d && vsrc a && vsrc b && d != 29
  | .vabs d a _ _ => vdst d && vsrc a
  | .vmin d a b _ _ _ _ => vdst d && vsrc a && vsrc b
  | .vmax d a b _ _ _ _ => vdst d && vsrc a && vsrc b
  | .vand d a b _ _ _ => vdst d && vsrc a && vsrc b
  | .vor d a b _ _ _ => vdst d && vsrc a && vsrc b
  | .vxor d a b _ _ _ => vdst d && vsrc a && vsrc b
  | .vandn d a b _ _ _ => vdst d && vsrc a && vsrc b
  | .vshl d a b _ _ _ => vdst d && vsrc a && vsrc b
  | .vshr d a b _ _ _ _ => vdst d && vsrc a && vsrc b
  | .vshli d a _ _ _ => vdst d && vsrc a
  | .vshri d a _ _ _ _ => vdst d && vsrc a
  | .vaddi d a _ => vdst d && vsrc a
  | .vcmp d a b _ _ _ _ _ => d != 0 && vsrc a && vsrc b
  | .vcmpi d a _ _ _ _ _ => d != 0 && vsrc a
  | .vsel d a b _ _ _ _ => vdst d && vsrc a && vsrc b
  | .vpopc d a _ _ => vdst d && vsrc a
  | .vclz d a _ _ => vdst d && vsrc a
  | .vmov d a _ _ => vdst d && vsrc a
  | .vmovs d _ _ _ => vdst d
  | .vli d _ => vdst d
  | .vsatn d a _ _ f => satnTy f && vdst d && vsrc a
  | .vdot4 d a b _ _ _ _ => vdst d && vsrc a && vsrc b && d != 29
  | .vfadd d a b _ _ _ => vdst d && vsrc a && vsrc b
  | .vfsub d a b _ _ _ => vdst d && vsrc a && vsrc b
  | .vfmul d a b _ _ _ => vdst d && vsrc a && vsrc b
  | .vfma d a b _ _ _ => vdst d && vsrc a && vsrc b && d != 29
  | .vfmin d a b _ _ _ => vdst d && vsrc a && vsrc b
  | .vfmax d a b _ _ _ => vdst d && vsrc a && vsrc b
  | .vfsgn d a b _ _ _ _ => vdst d && vsrc a && vsrc b
  | .vfrcp d a _ _ => vdst d && vsrc a
  | .vfrsq d a _ _ => vdst d && vsrc a
  | .vfsqrt d a _ _ => vdst d && vsrc a
  | .vfdiv d a b _ _ _ => vdst d && vsrc a && vsrc b
  | .vfexp2 d a _ _ => vdst d && vsrc a
  | .vflog2 d a _ _ => vdst d && vsrc a
  | .vfcmp d a b _ _ _ _ => d != 0 && vsrc a && vsrc b
  | .vfclass d a _ _ => vdst d && vsrc a
  | .vfrnd d a _ _ => vdst d && vsrc a
  | .vfscl d a b _ _ _ => vdst d && vsrc a && vsrc b
  | .vhadd d a b _ _ _ _ => vdst d && vsrc a && vsrc b
  | .vhmul d a b _ _ _ _ => vdst d && vsrc a && vsrc b
  | .vhfma d a b _ _ _ _ => vdst d && vsrc a && vsrc b && d != 29
  | .vcvt d a h s _ _ f => cvtTypes s f && (!h || s.packed || f.packed) && vdst d && vsrc a && (!f.packed || d != 29)
  | .vcvts d a _ _ _ _ f => drainTy f && vdst d && vsrc a
  | .vshfl d a b _ _ _ _ => vdst d && vsrc a && vsrc b
  | .vbcst d a _ _ _ _ => vdst d && vsrc a
  | .vred _ a _ _ p y => redLegal p y && vsrc a
  | .vscan d a _ _ p y => redLegal p y && vdst d && d != 29 && vsrc a
  | .vcprs d a _ _ => vdst d && vsrc a
  | .vexpd d a _ _ => vdst d && vsrc a
  | .vtos _ a _ _ _ _ => vsrc a
  | .stov d _ _ _ _ _ => vdst d
  | .mlog d a b f => d != 0 && mlogUnused f a b
  | .mmovsSM d _ _ => d != 0
  | .ldv d _ _ _ => vdst d && d != 29
  | .stv d _ _ _ => d != 29
  | .ldvs d _ _ _ _ => vdst d && d != 29
  | .stvs d _ _ _ _ => d != 29
  | .ldvx d _ x _ _ _ => vdst d && d != 29 && x != 29
  | .stvx d _ x _ _ _ => d != 29 && x != 29
  | .rldv d _ _ _ => vdst d && d != 29
  | .rstv d _ _ _ => d != 29
  | .atom d a b _ _ _ _ => vdst d && d != 29 && vsrc a && vsrc b
  | .ratom d a b _ ord rt p => (rt || !ord.getLsbD 0) && (rt || p == AtomOp.cas || d == 0) && (!rt || vdst d) && d != 29 && vsrc a && vsrc b
  | .tak2 d _ _ w => decide (d.toNat ≤ 27) && (!w || decide (d.toNat ≤ 26))
  | .put2 a b _ _ _ => vsrc a && vsrc b
  | .mgat d _ _ _ => d != 29
  | .mclr _ f => f != 0
  | .msca _ b _ _ _ => vsrc b
  | .mdrn d _ _ _ _ _ f => drainTy f && decide (d.toNat ≤ 27)
  | .mmovpGP d _ => vdst d
  | .mmovpGA d _ => vdst d
  | .mmovpSP a _ _ => vsrc a
  | .mmovpSA a _ _ => vsrc a
  | .shcp _ a b _ d3 => groupReg a && (d3 || b == 0)
  | .shtr _ a exp _ sp => groupReg a && (!exp || sp)
  | .shset _ a b _ _ d3 => groupReg a && (d3 || b == 0)
  | .gath _ a b _ ixr => groupReg a && (if ixr then decide (b.toNat ≤ 26) else b == 0)
  | .scat _ a b _ ixr => groupReg a && (if ixr then decide (b.toNat ≤ 26) else b == 0)
  | .sred _ a b _ _ _ ixr => groupReg a && (if ixr then decide (b.toNat ≤ 26) else b == 0)
  | .wkst _ a _ _ => groupReg a
  | .nput _ a => groupReg a
  | .nget _ a _ => groupReg a
  | .nred _ a p => groupReg a && nredOp p
  | .nsig _ a _ => groupReg a
  | .wait _ _ n => decide (n.toNat ≤ 8)
  | .wstat _ a _ _ => groupReg a
  | .csrr _ c => csrListed c
  | .csrw _ c => csrListed c
  | .lnch _ a => groupReg a
  | .evsig _ a _ => groupReg a
  | _ => true

end Sys2Proof
end

