-- ==== Sys2Proof/Decode.lean ====
section
/-! DEFINITION. Decoding, total on every word and refusing by the step of R58 that fails, and after it the encoder. -/
namespace Sys2Proof

/-- The 4-bit code of each TyCode. -/
def TyCode.code : TyCode → BitVec 4
  | .i32 => 0
  | .n32 => 1
  | .i16 => 2
  | .n16 => 3
  | .i8 => 4
  | .n8 => 5
  | .i64 => 6
  | .n64 => 7
  | .f32 => 8
  | .f16 => 9
  | .bf16 => 10
  | .e4m3 => 11
  | .e5m2 => 12
  | .q16 => 13
  | .f16x2 => 14
  | .bf16x2 => 15

/-- The TyCode of a code; a code the instruction does not define is refused before it is used. -/
def TyCode.ofCode (c : BitVec 4) : TyCode :=
  match c.toNat with
  | 0 => .i32
  | 1 => .n32
  | 2 => .i16
  | 3 => .n16
  | 4 => .i8
  | 5 => .n8
  | 6 => .i64
  | 7 => .n64
  | 8 => .f32
  | 9 => .f16
  | 10 => .bf16
  | 11 => .e4m3
  | 12 => .e5m2
  | 13 => .q16
  | 14 => .f16x2
  | _ => .bf16x2

/-- The 3-bit code of each Cond. -/
def Cond.code : Cond → BitVec 3
  | .eq => 0
  | .ne => 1
  | .lt => 2
  | .le => 3
  | .gt => 4
  | .ge => 5

/-- The Cond of a code; a code the instruction does not define is refused before it is used. -/
def Cond.ofCode (c : BitVec 3) : Cond :=
  match c.toNat with
  | 0 => .eq
  | 1 => .ne
  | 2 => .lt
  | 3 => .le
  | 4 => .gt
  | _ => .ge

/-- The 3-bit code of each Scope. -/
def Scope.code : Scope → BitVec 3
  | .row => 0
  | .band => 1
  | .core => 2
  | .skein => 3
  | .die => 4
  | .pkg => 5
  | .sys => 6

/-- The Scope of a code; a code the instruction does not define is refused before it is used. -/
def Scope.ofCode (c : BitVec 3) : Scope :=
  match c.toNat with
  | 0 => .row
  | 1 => .band
  | 2 => .core
  | 3 => .skein
  | 4 => .die
  | 5 => .pkg
  | _ => .sys

/-- The 3-bit code of each BClass. -/
def BClass.code : BClass → BitVec 3
  | .mx => 0
  | .sh => 1
  | .gs => 2
  | .wk => 3
  | .nw => 4

/-- The BClass of a code; a code the instruction does not define is refused before it is used. -/
def BClass.ofCode (c : BitVec 3) : BClass :=
  match c.toNat with
  | 0 => .mx
  | 1 => .sh
  | 2 => .gs
  | 3 => .wk
  | _ => .nw

/-- The 2-bit code of each SgnOp. -/
def SgnOp.code : SgnOp → BitVec 2
  | .cpy => 0
  | .neg => 1
  | .xor => 2

/-- The SgnOp of a code; a code the instruction does not define is refused before it is used. -/
def SgnOp.ofCode (c : BitVec 2) : SgnOp :=
  match c.toNat with
  | 0 => .cpy
  | 1 => .neg
  | _ => .xor

/-- The 2-bit code of each RedOp. -/
def RedOp.code : RedOp → BitVec 2
  | .add => 0
  | .min => 1
  | .max => 2

/-- The RedOp of a code; a code the instruction does not define is refused before it is used. -/
def RedOp.ofCode (c : BitVec 2) : RedOp :=
  match c.toNat with
  | 0 => .add
  | 1 => .min
  | _ => .max

/-- The 2-bit code of each RedTy. -/
def RedTy.code : RedTy → BitVec 2
  | .i32 => 0
  | .n32 => 1
  | .f32 => 2
  | .bf16x2 => 3

/-- The RedTy of a code; a code the instruction does not define is refused before it is used. -/
def RedTy.ofCode (c : BitVec 2) : RedTy :=
  match c.toNat with
  | 0 => .i32
  | 1 => .n32
  | 2 => .f32
  | _ => .bf16x2

/-- The 2-bit code of each PopFn. -/
def PopFn.code : PopFn → BitVec 2
  | .count => 0
  | .lowest => 1
  | .highest => 2

/-- The PopFn of a code; a code the instruction does not define is refused before it is used. -/
def PopFn.ofCode (c : BitVec 2) : PopFn :=
  match c.toNat with
  | 0 => .count
  | 1 => .lowest
  | _ => .highest

/-- The 3-bit code of each MaskOp. -/
def MaskOp.code : MaskOp → BitVec 3
  | .and => 0
  | .or => 1
  | .xor => 2
  | .andn => 3
  | .not => 4
  | .set => 5
  | .clear => 6

/-- The MaskOp of a code; a code the instruction does not define is refused before it is used. -/
def MaskOp.ofCode (c : BitVec 3) : MaskOp :=
  match c.toNat with
  | 0 => .and
  | 1 => .or
  | 2 => .xor
  | 3 => .andn
  | 4 => .not
  | 5 => .set
  | _ => .clear

/-- The 3-bit code of each AtomOp. -/
def AtomOp.code : AtomOp → BitVec 3
  | .addI32 => 0
  | .addF32 => 1
  | .minI32 => 2
  | .maxI32 => 3
  | .and => 4
  | .or => 5
  | .xchg => 6
  | .cas => 7

/-- The AtomOp of a code; a code the instruction does not define is refused before it is used. -/
def AtomOp.ofCode (c : BitVec 3) : AtomOp :=
  match c.toNat with
  | 0 => .addI32
  | 1 => .addF32
  | 2 => .minI32
  | 3 => .maxI32
  | 4 => .and
  | 5 => .or
  | 6 => .xchg
  | _ => .cas

/-- The 3-bit code of each SredOp. -/
def SredOp.code : SredOp → BitVec 3
  | .addF32 => 0
  | .addBf16x2 => 1
  | .addI32 => 2
  | .minF32 => 3
  | .maxF32 => 4
  | .minI32 => 5
  | .maxI32 => 6

/-- The SredOp of a code; a code the instruction does not define is refused before it is used. -/
def SredOp.ofCode (c : BitVec 3) : SredOp :=
  match c.toNat with
  | 0 => .addF32
  | 1 => .addBf16x2
  | 2 => .addI32
  | 3 => .minF32
  | 4 => .maxF32
  | 5 => .minI32
  | _ => .maxI32

/-- The 3-bit code of each WCond. -/
def WCond.code : WCond → BitVec 3
  | .eq => 0
  | .ne => 1
  | .lt => 2
  | .ge => 3
  | .ltu => 4
  | .geu => 5

/-- The WCond of a code; a code the instruction does not define is refused before it is used. -/
def WCond.ofCode (c : BitVec 3) : WCond :=
  match c.toNat with
  | 0 => .eq
  | 1 => .ne
  | 2 => .lt
  | 3 => .ge
  | 4 => .ltu
  | _ => .geu

/-- The legal condition codes (R45). -/
def Cond.legal (c : BitVec 3) : Bool := decide (c.toNat ≤ 5)
/-- The legal class codes (R47). -/
def BClass.legal (c : BitVec 3) : Bool := decide (c.toNat ≤ 4)
/-- The legal comparison codes of BCC (R200). -/
def WCond.legal (c : BitVec 3) : Bool := decide (c.toNat ≤ 5)
/-- The legal FN values of VRED and VSCAN (R243). -/
def redLegalCode (fn : BitVec 4) : Bool :=
  fn.extractLsb' 2 2 != 3 && redLegal (RedOp.ofCode (fn.extractLsb' 2 2)) (RedTy.ofCode (fn.extractLsb' 0 2))

/-! Fields of the seven formats (R30 to R36). -/

/-- The primary opcode. -/
def fOp (w : Word) : BitVec 8 := w.extractLsb' 24 8
/-- Field D; field A of BR (R33). -/
def fD (w : Word) : Reg := w.extractLsb' 19 5
/-- Field A; field S of MEM. -/
def fA (w : Word) : Reg := w.extractLsb' 14 5
/-- Field B; field X of MEM. -/
def fB (w : Word) : Reg := w.extractLsb' 9 5
/-- Field MSK; field C of the E format. -/
def fM (w : Word) : BitVec 3 := w.extractLsb' 6 3
/-- The trap bit of A. -/
def fTA (w : Word) : Bool := w.getLsbD 5
/-- The trap bit of B. -/
def fTB (w : Word) : Bool := w.getLsbD 4
/-- FN of the V3 format. -/
def fFN (w : Word) : BitVec 4 := w.extractLsb' 0 4
/-- FN of the E format; OFF6 of the MEM format. -/
def fFN6 (w : Word) : BitVec 6 := w.extractLsb' 0 6
/-- IMM14. -/
def fImm (w : Word) : BitVec 14 := w.extractLsb' 0 14
/-- OFF19. -/
def fOff (w : Word) : BitVec 19 := w.extractLsb' 0 19
/-- OFF24; the payload of a hint. -/
def fJ (w : Word) : BitVec 24 := w.extractLsb' 0 24

/-- The checks of R58, steps 4 to 6, in their order. -/
def chk (c4 c5 : Bool) (i : Instr) : Except Nat Instr :=
  if !c4 then .error 4 else if !c5 then .error 5 else if !i.wf then .error 6 else .ok i

/-- The check of a hint word: reserved payload, step 1 of R58. DESIGN CHOICE: log entry 101. -/
def chkHint (c : Bool) (i : Instr) : Except Nat Instr :=
  if !c then .error 1 else if !i.wf then .error 1 else .ok i

/-- The words of primary opcodes 0x00 to 0x0F (R56). -/
def decodeScalar (w : Word) : Except Nat Instr :=
  match ((fOp w).extractLsb' 0 4).toNat with
  | 0x1 => chk ((fFN w) == 0) ((fM w) == 0) (.sadd (fD w) (fA w) (fB w) (fTA w) (fTB w))
  | 0x2 => chk ((fFN w) == 0) ((fM w) == 0) (.ssub (fD w) (fA w) (fB w) (fTA w) (fTB w))
  | 0x3 => chk ((fFN w) == 0) ((fM w) == 0) (.smul (fD w) (fA w) (fB w) (fTA w) (fTB w))
  | 0x4 => chk ((fFN w) == 6 || (fFN w) == 7) ((fM w) == 0) (.smulh (fD w) (fA w) (fB w) (fTA w) (fTB w) ((fFN w).getLsbD 0))
  | 0x5 => chk ((fFN w) == 6 || (fFN w) == 7) ((fM w) == 0) (.sdiv (fD w) (fA w) (fB w) (fTA w) (fTB w) ((fFN w).getLsbD 0))
  | 0x6 => chk ((fFN w) == 6 || (fFN w) == 7) ((fM w) == 0) (.srem (fD w) (fA w) (fB w) (fTA w) (fTB w) ((fFN w).getLsbD 0))
  | 0x7 => chk ((fFN w) == 0) ((fM w) == 0) (.sand (fD w) (fA w) (fB w) (fTA w) (fTB w))
  | 0x8 => chk ((fFN w) == 0) ((fM w) == 0) (.sor (fD w) (fA w) (fB w) (fTA w) (fTB w))
  | 0x9 => chk ((fFN w) == 0) ((fM w) == 0) (.sxor (fD w) (fA w) (fB w) (fTA w) (fTB w))
  | 0xA => chk ((fFN w) == 0) ((fM w) == 0) (.sshl (fD w) (fA w) (fB w) (fTA w) (fTB w))
  | 0xB => chk ((fFN w) == 6 || (fFN w) == 7) ((fM w) == 0) (.sshr (fD w) (fA w) (fB w) (fTA w) (fTB w) ((fFN w).getLsbD 0))
  | 0xC => chk ((fFN w) == 6 || (fFN w) == 7) ((fM w) == 0) (.smin (fD w) (fA w) (fB w) (fTA w) (fTB w) ((fFN w).getLsbD 0))
  | 0xD => chk ((fFN w) == 6 || (fFN w) == 7) ((fM w) == 0) (.smax (fD w) (fA w) (fB w) (fTA w) (fTB w) ((fFN w).getLsbD 0))
  | 0xE => chk (Cond.legal ((fFN w).extractLsb' 0 3)) ((fM w) == 0) (.scmp (fD w) (fA w) (fB w) (fTA w) (fTB w) ((fFN w).getLsbD 3) (Cond.ofCode ((fFN w).extractLsb' 0 3)))
  | 0xF => chk (true) ((fM w) == 0) (.ssel (fD w) (fA w) (fB w) (fTA w) (fTB w) (fFN w))
  | _ => .error 2

/-- The words of primary opcodes 0x10 to 0x1F (R56). -/
def decodeScalarImm (w : Word) : Except Nat Instr :=
  match ((fOp w).extractLsb' 0 4).toNat with
  | 0x0 => chk (true) (true) (.saddi (fD w) (fA w) (fImm w))
  | 0x1 => chk (true) (true) (.sandi (fD w) (fA w) (fImm w))
  | 0x2 => chk (true) (true) (.sori (fD w) (fA w) (fImm w))
  | 0x3 => chk (true) (true) (.sxori (fD w) (fA w) (fImm w))
  | 0x4 => chk (true) ((fImm w).extractLsb' 6 8 == 0) (.sshli (fD w) (fA w) ((fImm w).extractLsb' 0 6))
  | 0x5 => chk (true) ((fImm w).extractLsb' 7 7 == 0) (.sshri (fD w) (fA w) ((fImm w).getLsbD 6) ((fImm w).extractLsb' 0 6))
  | 0x6 => chk (true) ((fA w) == 0) (.sli (fD w) (fImm w))
  | 0x7 => chk ((fFN w) == 0) ((fB w) == 0 && (fM w) == 0 && !(fTB w)) (.spopc (fD w) (fA w) (fTA w))
  | 0x8 => chk ((fFN w) == 0) ((fB w) == 0 && (fM w) == 0 && !(fTB w)) (.sclz (fD w) (fA w) (fTA w))
  | 0x9 => chk ((fFN w) == 0) ((fB w) == 0 && (fM w) == 0 && !(fTB w)) (.smov (fD w) (fA w) (fTA w))
  | _ => .error 2

/-- The words of primary opcodes 0x20 to 0x2F (R56). -/
def decodeControl (w : Word) : Except Nat Instr :=
  match ((fOp w).extractLsb' 0 4).toNat with
  | 0x0 => chk (true) (true) (.bra (fJ w))
  | 0x1 => chk (true) (true) (.bz (fD w) (fOff w))
  | 0x2 => chk (true) (true) (.bnz (fD w) (fOff w))
  | 0x3 => chk (true) (true) (.call (fJ w))
  | 0x4 => chk (true) ((fD w) == 0 && (fB w) == 0 && (fM w) == 0 && !(fTB w) && (fFN w) == 0) (.ret (fA w) (fTA w))
  | 0x5 => chk (true) ((fD w) == 0 && (fB w) == 0 && (fM w) == 0 && !(fTB w) && (fFN w) == 0) (.jmpr (fA w) (fTA w))
  | 0x6 => chk (true) ((fD w) == 0 && (fA w) == 0 && (fB w) == 0 && (fM w) == 0 && !(fTA w) && !(fTB w) && (fFN w) == 0) .exit
  | 0x7 => chk (true) ((fD w) == 0 && (fA w) == 0 && (fB w) == 0 && (fM w) == 0 && !(fTA w) && !(fTB w) && (fFN w) == 0) .yield
  | 0x8 => chk (true) ((fD w) == 0 && (fA w) == 0 && (fB w) == 0 && (fM w) == 0 && !(fTA w) && !(fTB w) && (fFN w) == 0) .nop
  | 0x9 => chk (true) ((fD w).extractLsb' 3 2 == 0) (.ifm ((fD w).extractLsb' 0 3) (fOff w))
  | 0xA => chk (true) ((fD w) == 0) (.elsem (fOff w))
  | 0xB => chk (true) ((fD w) == 0 && (fA w) == 0 && (fB w) == 0 && (fM w) == 0 && !(fTA w) && !(fTB w) && (fFN w) == 0) .endifm
  | 0xC => chk (true) ((fD w) == 0) (.loopm (fOff w))
  | 0xD => chk (true) ((fD w).extractLsb' 3 2 == 0) (.brkm ((fD w).extractLsb' 0 3) (fOff w))
  | 0xE => chk (true) ((fD w) == 0) (.endl (fOff w))
  | _ => .error 2

/-- The words of primary opcodes 0x30 to 0x3F (R56). -/
def decodeVInt (w : Word) : Except Nat Instr :=
  match ((fOp w).extractLsb' 0 4).toNat with
  | 0x0 => chk ((fFN w) == 0 || (fFN w) == 1) (true) (.vadd (fD w) (fA w) (fB w) (fM w) (fTA w) (fTB w) ((fFN w).getLsbD 0))
  | 0x1 => chk ((fFN w) == 0 || (fFN w) == 1) (true) (.vsub (fD w) (fA w) (fB w) (fM w) (fTA w) (fTB w) ((fFN w).getLsbD 0))
  | 0x2 => chk ((fFN w) == 0 || (fFN w) == 1) (true) (.vmul (fD w) (fA w) (fB w) (fM w) (fTA w) (fTB w) ((fFN w).getLsbD 0))
  | 0x3 => chk ((fFN w) == 0 || (fFN w) == 1) (true) (.vmulh (fD w) (fA w) (fB w) (fM w) (fTA w) (fTB w) ((fFN w).getLsbD 0))
  | 0x4 => chk ((fFN w) == 0 || (fFN w) == 1) (true) (.vmad (fD w) (fA w) (fB w) (fM w) (fTA w) (fTB w) ((fFN w).getLsbD 0))
  | 0x5 => chk ((fFN w) == 0) ((fB w) == 0 && !(fTB w)) (.vabs (fD w) (fA w) (fM w) (fTA w))
  | 0x6 => chk ((fFN w) == 0 || (fFN w) == 1) (true) (.vmin (fD w) (fA w) (fB w) (fM w) (fTA w) (fTB w) ((fFN w).getLsbD 0))
  | 0x7 => chk ((fFN w) == 0 || (fFN w) == 1) (true) (.vmax (fD w) (fA w) (fB w) (fM w) (fTA w) (fTB w) ((fFN w).getLsbD 0))
  | 0x8 => chk ((fFN w) == 0) (true) (.vand (fD w) (fA w) (fB w) (fM w) (fTA w) (fTB w))
  | 0x9 => chk ((fFN w) == 0) (true) (.vor (fD w) (fA w) (fB w) (fM w) (fTA w) (fTB w))
  | 0xA => chk ((fFN w) == 0) (true) (.vxor (fD w) (fA w) (fB w) (fM w) (fTA w) (fTB w))
  | 0xB => chk ((fFN w) == 0) (true) (.vandn (fD w) (fA w) (fB w) (fM w) (fTA w) (fTB w))
  | 0xC => chk ((fFN w) == 0) (true) (.vshl (fD w) (fA w) (fB w) (fM w) (fTA w) (fTB w))
  | 0xD => chk ((fFN w) == 0 || (fFN w) == 1) (true) (.vshr (fD w) (fA w) (fB w) (fM w) (fTA w) (fTB w) ((fFN w).getLsbD 0))
  | 0xE => chk ((fFN w) == 0) (!(fTB w)) (.vshli (fD w) (fA w) (fB w) (fM w) (fTA w))
  | 0xF => chk ((fFN w) == 0 || (fFN w) == 1) (!(fTB w)) (.vshri (fD w) (fA w) (fB w) (fM w) (fTA w) ((fFN w).getLsbD 0))
  | _ => .error 2

/-- The words of primary opcodes 0x40 to 0x4F (R56). -/
def decodeVInt2 (w : Word) : Except Nat Instr :=
  match ((fOp w).extractLsb' 0 4).toNat with
  | 0x0 => chk (true) (true) (.vaddi (fD w) (fA w) (fImm w))
  | 0x1 => chk (Cond.legal ((fFN w).extractLsb' 0 3)) ((fD w).extractLsb' 3 2 == 0) (.vcmp ((fD w).extractLsb' 0 3) (fA w) (fB w) (fM w) (fTA w) (fTB w) ((fFN w).getLsbD 3) (Cond.ofCode ((fFN w).extractLsb' 0 3)))
  | 0x2 => chk (Cond.legal ((fFN w).extractLsb' 0 3)) ((fD w).extractLsb' 3 2 == 0 && !(fTB w)) (.vcmpi ((fD w).extractLsb' 0 3) (fA w) (fB w) (fM w) (fTA w) ((fFN w).getLsbD 3) (Cond.ofCode ((fFN w).extractLsb' 0 3)))
  | 0x3 => chk (true) (!(fFN w).getLsbD 3) (.vsel (fD w) (fA w) (fB w) (fM w) (fTA w) (fTB w) ((fFN w).extractLsb' 0 3))
  | 0x4 => chk ((fFN w) == 0) ((fB w) == 0 && !(fTB w)) (.vpopc (fD w) (fA w) (fM w) (fTA w))
  | 0x5 => chk ((fFN w) == 0) ((fB w) == 0 && !(fTB w)) (.vclz (fD w) (fA w) (fM w) (fTA w))
  | 0x6 => chk ((fFN w) == 0) ((fB w) == 0 && !(fTB w)) (.vmov (fD w) (fA w) (fM w) (fTA w))
  | 0x7 => chk ((fFN w) == 0) ((fB w) == 0 && !(fTB w)) (.vmovs (fD w) (fA w) (fM w) (fTA w))
  | 0x8 => chk (true) ((fA w) == 0) (.vli (fD w) (fImm w))
  | 0x9 => chk (satnTy (TyCode.ofCode (fFN w))) ((fB w) == 0 && !(fTB w)) (.vsatn (fD w) (fA w) (fM w) (fTA w) (TyCode.ofCode (fFN w)))
  | 0xA => chk ((fFN w) == 4 || (fFN w) == 5) (true) (.vdot4 (fD w) (fA w) (fB w) (fM w) (fTA w) (fTB w) ((fFN w).getLsbD 0))
  | _ => .error 2

/-- The words of primary opcodes 0x60 to 0x6F (R56). -/
def decodeVFloat (w : Word) : Except Nat Instr :=
  match ((fOp w).extractLsb' 0 4).toNat with
  | 0x0 => chk ((fFN w) == 8) (true) (.vfadd (fD w) (fA w) (fB w) (fM w) (fTA w) (fTB w))
  | 0x1 => chk ((fFN w) == 8) (true) (.vfsub (fD w) (fA w) (fB w) (fM w) (fTA w) (fTB w))
  | 0x2 => chk ((fFN w) == 8) (true) (.vfmul (fD w) (fA w) (fB w) (fM w) (fTA w) (fTB w))
  | 0x3 => chk ((fFN w) == 8) (true) (.vfma (fD w) (fA w) (fB w) (fM w) (fTA w) (fTB w))
  | 0x4 => chk ((fFN w) == 8) (true) (.vfmin (fD w) (fA w) (fB w) (fM w) (fTA w) (fTB w))
  | 0x5 => chk ((fFN w) == 8) (true) (.vfmax (fD w) (fA w) (fB w) (fM w) (fTA w) (fTB w))
  | 0x6 => chk (decide ((fFN w).toNat ≤ 2)) (true) (.vfsgn (fD w) (fA w) (fB w) (fM w) (fTA w) (fTB w) (SgnOp.ofCode ((fFN w).extractLsb' 0 2)))
  | 0x7 => chk ((fFN w) == 8) ((fB w) == 0 && !(fTB w)) (.vfrcp (fD w) (fA w) (fM w) (fTA w))
  | 0x8 => chk ((fFN w) == 8) ((fB w) == 0 && !(fTB w)) (.vfrsq (fD w) (fA w) (fM w) (fTA w))
  | 0x9 => chk ((fFN w) == 8) ((fB w) == 0 && !(fTB w)) (.vfsqrt (fD w) (fA w) (fM w) (fTA w))
  | 0xA => chk ((fFN w) == 8) (true) (.vfdiv (fD w) (fA w) (fB w) (fM w) (fTA w) (fTB w))
  | 0xB => chk ((fFN w) == 8) ((fB w) == 0 && !(fTB w)) (.vfexp2 (fD w) (fA w) (fM w) (fTA w))
  | 0xC => chk ((fFN w) == 8) ((fB w) == 0 && !(fTB w)) (.vflog2 (fD w) (fA w) (fM w) (fTA w))
  | 0xD => chk (Cond.legal ((fFN w).extractLsb' 0 3)) ((fD w).extractLsb' 3 2 == 0 && !(fFN w).getLsbD 3) (.vfcmp ((fD w).extractLsb' 0 3) (fA w) (fB w) (fM w) (fTA w) (fTB w) (Cond.ofCode ((fFN w).extractLsb' 0 3)))
  | 0xE => chk ((fFN w) == 8) ((fB w) == 0 && !(fTB w)) (.vfclass (fD w) (fA w) (fM w) (fTA w))
  | 0xF => chk ((fFN w) == 8) ((fB w) == 0 && !(fTB w)) (.vfrnd (fD w) (fA w) (fM w) (fTA w))
  | _ => .error 2

/-- The words of primary opcodes 0x70 to 0x7F (R56). -/
def decodeVFloat2 (w : Word) : Except Nat Instr :=
  match ((fOp w).extractLsb' 0 4).toNat with
  | 0x0 => chk ((fFN w) == 8) (true) (.vfscl (fD w) (fA w) (fB w) (fM w) (fTA w) (fTB w))
  | 0x1 => chk ((fFN w) == 0xE || (fFN w) == 0xF) (true) (.vhadd (fD w) (fA w) (fB w) (fM w) (fTA w) (fTB w) ((fFN w).getLsbD 0))
  | 0x2 => chk ((fFN w) == 0xE || (fFN w) == 0xF) (true) (.vhmul (fD w) (fA w) (fB w) (fM w) (fTA w) (fTB w) ((fFN w).getLsbD 0))
  | 0x3 => chk ((fFN w) == 0xE || (fFN w) == 0xF) (true) (.vhfma (fD w) (fA w) (fB w) (fM w) (fTA w) (fTB w) ((fFN w).getLsbD 0))
  | 0x4 => chk (cvtTypes (TyCode.ofCode ((fB w).extractLsb' 0 4)) (TyCode.ofCode (fFN w))) ((!(fB w).getLsbD 4 || (TyCode.ofCode ((fB w).extractLsb' 0 4)).packed || (TyCode.ofCode (fFN w)).packed) && !(fTB w)) (.vcvt (fD w) (fA w) ((fB w).getLsbD 4) (TyCode.ofCode ((fB w).extractLsb' 0 4)) (fM w) (fTA w) (TyCode.ofCode (fFN w)))
  | 0x5 => chk (drainTy (TyCode.ofCode (fFN w))) (true) (.vcvts (fD w) (fA w) (fB w) (fM w) (fTA w) (fTB w) (TyCode.ofCode (fFN w)))
  | _ => .error 2

/-- The words of primary opcodes 0x90 to 0x9F (R56). -/
def decodeLane (w : Word) : Except Nat Instr :=
  match ((fOp w).extractLsb' 0 4).toNat with
  | 0x0 => chk (decide ((fFN w).toNat ≤ 3)) (true) (.vshfl (fD w) (fA w) (fB w) (fM w) (fTA w) (fTB w) ((fFN w).extractLsb' 0 2))
  | 0x1 => chk ((fFN w) == 0) (true) (.vbcst (fD w) (fA w) (fB w) (fM w) (fTA w) (fTB w))
  | 0x2 => chk (redLegalCode (fFN w)) ((fB w) == 0 && !(fTB w)) (.vred (fD w) (fA w) (fM w) (fTA w) (RedOp.ofCode ((fFN w).extractLsb' 2 2)) (RedTy.ofCode ((fFN w).extractLsb' 0 2)))
  | 0x3 => chk (redLegalCode (fFN w)) ((fB w) == 0 && !(fTB w)) (.vscan (fD w) (fA w) (fM w) (fTA w) (RedOp.ofCode ((fFN w).extractLsb' 2 2)) (RedTy.ofCode ((fFN w).extractLsb' 0 2)))
  | 0x4 => chk ((fFN w) == 0) ((fB w) == 0 && !(fTB w)) (.vcprs (fD w) (fA w) (fM w) (fTA w))
  | 0x5 => chk ((fFN w) == 0) ((fB w) == 0 && !(fTB w)) (.vexpd (fD w) (fA w) (fM w) (fTA w))
  | 0x6 => chk (decide ((fFN w).toNat ≤ 2)) ((fA w).extractLsb' 3 2 == 0 && (fB w) == 0 && !(fTA w) && !(fTB w)) (.mpopc (fD w) ((fA w).extractLsb' 0 3) (fM w) (PopFn.ofCode ((fFN w).extractLsb' 0 2)))
  | 0x7 => chk ((fFN w) == 0 || (fFN w) == 1) ((fM w) == 0) (.vtos (fD w) (fA w) (fB w) (fTA w) (fTB w) ((fFN w).getLsbD 0))
  | 0x8 => chk ((fFN w) == 0) (true) (.stov (fD w) (fA w) (fB w) (fM w) (fTA w) (fTB w))
  | 0x9 => chk (decide ((fFN w).toNat ≤ 6)) ((fD w).extractLsb' 3 2 == 0 && (fA w).extractLsb' 3 2 == 0 && (fB w).extractLsb' 3 2 == 0 && (fM w) == 0 && !(fTA w) && !(fTB w) && mlogUnused (MaskOp.ofCode ((fFN w).extractLsb' 0 3)) ((fA w).extractLsb' 0 3) ((fB w).extractLsb' 0 3)) (.mlog ((fD w).extractLsb' 0 3) ((fA w).extractLsb' 0 3) ((fB w).extractLsb' 0 3) (MaskOp.ofCode ((fFN w).extractLsb' 0 3)))
  | 0xA =>
    match (fFN w).toNat with
    | 0 => chk (true) ((fA w).extractLsb' 3 2 == 0 && (fB w) == 0 && (fM w) == 0 && !(fTA w) && !(fTB w)) (.mmovsMS (fD w) ((fA w).extractLsb' 0 3))
    | 1 => chk (true) ((fD w).extractLsb' 3 2 == 0 && (fB w) == 0 && (fM w) == 0 && !(fTB w)) (.mmovsSM ((fD w).extractLsb' 0 3) (fA w) (fTA w))
    | _ => .error 4
  | _ => .error 2

/-- The words of primary opcodes 0xA0 to 0xAF (R56). DESIGN CHOICE: log entry 97. -/
def decodeMem (w : Word) : Except Nat Instr :=
  match ((fOp w).extractLsb' 0 4).toNat with
  | 0x0 => chk (true) ((fB w) == 0) (.ldv (fD w) (fA w) (fM w) (fFN6 w))
  | 0x1 => chk (true) ((fB w) == 0) (.stv (fD w) (fA w) (fM w) (fFN6 w))
  | 0x2 => chk (true) (true) (.ldvs (fD w) (fA w) (fB w) (fM w) (fFN6 w))
  | 0x3 => chk (true) (true) (.stvs (fD w) (fA w) (fB w) (fM w) (fFN6 w))
  | 0x4 => chk (true) (true) (.ldvx (fD w) (fA w) (fB w) (fM w) ((fFN6 w).extractLsb' 4 2) ((fFN6 w).extractLsb' 0 4))
  | 0x5 => chk (true) (true) (.stvx (fD w) (fA w) (fB w) (fM w) ((fFN6 w).extractLsb' 4 2) ((fFN6 w).extractLsb' 0 4))
  | 0x6 => chk (true) ((fB w) == 0 && (fM w) == 0) (.lds (fD w) (fA w) (fFN6 w))
  | 0x7 => chk (true) ((fB w) == 0 && (fM w) == 0) (.sts (fD w) (fA w) (fFN6 w))
  | 0x8 => chk (true) ((fB w) == 0) (.rldv (fD w) (fA w) (fM w) (fFN6 w))
  | 0x9 => chk (true) ((fB w) == 0) (.rstv (fD w) (fA w) (fM w) (fFN6 w))
  | 0xA => chk (true) (true) (.atom (fD w) (fA w) (fB w) (fM w) (bit (fTA w) ++ bit (fTB w)) ((fFN w).getLsbD 3) (AtomOp.ofCode ((fFN w).extractLsb' 0 3)))
  | 0xB => chk ((fFN w).getLsbD 3 || !(fTB w)) ((fFN w).getLsbD 3 || (fFN w).extractLsb' 0 3 == 7 || (fD w) == 0) (.ratom (fD w) (fA w) (fB w) (fM w) (bit (fTA w) ++ bit (fTB w)) ((fFN w).getLsbD 3) (AtomOp.ofCode ((fFN w).extractLsb' 0 3)))
  | 0xC => if fA w != 28 then (if (fB w) == 0 && !(fTB w) && (fFN w).extractLsb' 1 3 == 0 then .error 6 else .error 5) else chk (true) ((fB w) == 0 && !(fTB w) && (fFN w).extractLsb' 1 3 == 0) (.tak2 (fD w) (fM w) (fTA w) ((fFN w).getLsbD 0))
  | 0xD => if fD w != 29 then (if (fFN w) == 0 then .error 6 else .error 4) else chk ((fFN w) == 0) (true) (.put2 (fA w) (fB w) (fM w) (fTA w) (fTB w))
  | 0xE => chk ((fFN w) == 0) ((fA w) == 0 && (fB w) == 0 && (fM w) == 0 && !(fTA w) && !(fTB w)) (.pqry (fD w))
  | _ => .error 2

/-- The words of primary opcodes 0xB0 to 0xBF (R56). -/
def decodeMatrix (w : Word) : Except Nat Instr :=
  match ((fOp w).extractLsb' 0 4).toNat with
  | 0x0 => chk ((fFN w) == 0) ((fB w) == 0 && (fM w) == 0 && !(fTB w)) (.shape (fD w) (fA w) (fTA w))
  | 0x1 => chk (true) ((fB w) == 0) (.mgat (fD w) (fA w) (fM w) (fFN6 w))
  | 0x2 => chk (true) ((fB w) == 0 && (fD w) == 0) (.mlat (fA w) (fM w) (fFN6 w))
  | 0x3 => chk (true) ((fD w) == 0 && (fFN w).extractLsb' 1 3 == 0) (.mma (fA w) (fB w) (fM w) (fTA w) (fTB w) ((fFN w).getLsbD 0))
  | 0x4 => chk (true) ((fFN w).extractLsb' 1 3 == 0) (.mmas (fD w) (fA w) (fB w) (fM w) (fTA w) (fTB w) ((fFN w).getLsbD 0))
  | 0x5 => chk (true) ((fB w) == 0 && (fD w) == 0) (.mwl (fA w) (fM w) (fFN6 w))
  | 0x6 => chk ((fFN w) == 0) ((fD w) == 0) (.mwf (fA w) (fB w) (fM w) (fTA w) (fTB w))
  | 0x7 => chk ((fFN w) == 0) ((fD w) == 0) (.mwb (fA w) (fB w) (fM w) (fTA w) (fTB w))
  | 0x8 => chk ((fFN w) != 0) ((fD w) == 0 && (fA w) == 0 && (fB w) == 0 && !(fTA w) && !(fTB w)) (.mclr (fM w) (fFN w))
  | 0x9 => chk ((fFN w) == 0) ((fD w) == 0) (.msca (fA w) (fB w) (fM w) (fTA w) (fTB w))
  | 0xA => chk (drainTy (TyCode.ofCode (fFN w))) (true) (.mdrn (fD w) (fA w) (fB w) (fM w) (fTA w) (fTB w) (TyCode.ofCode (fFN w)))
  | 0xB =>
    match (fFN w).toNat with
    | 0 => chk (true) ((fA w) == 0 && (fB w) == 0 && !(fTA w) && !(fTB w)) (.mmovpGP (fD w) (fM w))
    | 1 => chk (true) ((fA w) == 0 && (fB w) == 0 && !(fTA w) && !(fTB w)) (.mmovpGA (fD w) (fM w))
    | 2 => chk (true) ((fD w) == 0 && (fB w) == 0 && !(fTB w)) (.mmovpSP (fA w) (fM w) (fTA w))
    | 3 => chk (true) ((fD w) == 0 && (fB w) == 0 && !(fTB w)) (.mmovpSA (fA w) (fM w) (fTA w))
    | _ => .error 4
  | _ => .error 2

/-- The words of primary opcodes 0xC0 to 0xCF (R56). -/
def decodeSparse (w : Word) : Except Nat Instr :=
  match ((fOp w).extractLsb' 0 4).toNat with
  | 0x0 => chk ((fFN w) == 0) ((fM w) == 0) (.mpack (fD w) (fA w) (fB w) (fTA w) (fTB w))
  | 0x1 => chk ((fFN w) == 0) ((fD w) == 0 && (fM w) == 0) (.munpk (fA w) (fB w) (fTA w) (fTB w))
  | 0x2 => chk ((fFN w) == 0) ((fB w) == 0 && (fM w) == 0 && !(fTB w)) (.cardck (fD w) (fA w) (fTA w))
  | 0x3 => chk ((fFN w) == 0) ((fM w) == 0) (.qpack (fD w) (fA w) (fB w) (fTA w) (fTB w))
  | _ => .error 2

/-- The words of primary opcodes 0xD0 to 0xDF (R56). -/
def decodeEngine (w : Word) : Except Nat Instr :=
  match ((fOp w).extractLsb' 0 4).toNat with
  | 0x0 => chk ((fM w) == 1) ((fFN6 w).extractLsb' 2 4 == 0 && ((fFN6 w).getLsbD 0 || (fB w) == 0)) (.shcp (fD w) (fA w) (fB w) ((fFN6 w).getLsbD 1) ((fFN6 w).getLsbD 0))
  | 0x1 => chk ((fM w) == 1 && (!(fFN6 w).getLsbD 2 || (fFN6 w).getLsbD 0)) ((fFN6 w).extractLsb' 3 3 == 0 && (fB w) == 0) (.shtr (fD w) (fA w) ((fFN6 w).getLsbD 2) ((fFN6 w).getLsbD 1) ((fFN6 w).getLsbD 0))
  | 0x2 => chk ((fM w) == 1) ((fFN6 w).extractLsb' 4 2 == 0 && ((fFN6 w).getLsbD 0 || (fB w) == 0)) (.shset (fD w) (fA w) (fB w) ((fFN6 w).extractLsb' 2 2) ((fFN6 w).getLsbD 1) ((fFN6 w).getLsbD 0))
  | 0x3 => chk ((fM w) == 2 && (fFN6 w).extractLsb' 2 4 == 0) ((fFN6 w).getLsbD 0 || (fB w) == 0) (.gath (fD w) (fA w) (fB w) ((fFN6 w).getLsbD 1) ((fFN6 w).getLsbD 0))
  | 0x4 => chk ((fM w) == 2 && (fFN6 w).extractLsb' 2 4 == 0) ((fFN6 w).getLsbD 0 || (fB w) == 0) (.scat (fD w) (fA w) (fB w) ((fFN6 w).getLsbD 1) ((fFN6 w).getLsbD 0))
  | 0x5 => chk ((fM w) == 2 && (fFN6 w).extractLsb' 3 3 != 7) ((fFN6 w).getLsbD 0 || (fB w) == 0) (.sred (fD w) (fA w) (fB w) (SredOp.ofCode ((fFN6 w).extractLsb' 3 3)) ((fFN6 w).getLsbD 2) ((fFN6 w).getLsbD 1) ((fFN6 w).getLsbD 0))
  | 0x6 => chk ((fM w) == 3) ((fFN6 w).extractLsb' 2 4 == 0 && (fB w) == 0) (.wkst (fD w) (fA w) ((fFN6 w).getLsbD 1) ((fFN6 w).getLsbD 0))
  | 0x7 => chk ((fM w) == 4 && (fFN6 w) == 0) ((fB w) == 0) (.nput (fD w) (fA w))
  | 0x8 => chk ((fM w) == 4) ((fFN6 w).extractLsb' 1 5 == 0 && (fB w) == 0) (.nget (fD w) (fA w) ((fFN6 w).getLsbD 0))
  | 0x9 => chk ((fM w) == 4 && decide ((fFN6 w).toNat % 8 ≤ 4)) ((fFN6 w).extractLsb' 3 3 == 0 && (fB w) == 0) (.nred (fD w) (fA w) (SredOp.ofCode ((fFN6 w).extractLsb' 0 3)))
  | 0xA => chk ((fM w) == 4 && decide ((fFN6 w).toNat ≤ 1)) ((fB w) == 0) (.nsig (fD w) (fA w) ((fFN6 w).getLsbD 0))
  | 0xB => chk (BClass.legal (fM w)) ((fA w) == 0 && (fB w) == 0 && (fFN6 w) == 0) (.seal (fD w) (BClass.ofCode (fM w)))
  | 0xC => chk (BClass.legal (fM w) && decide ((fFN6 w).toNat % 16 ≤ 8)) ((fA w) == 0 && (fB w) == 0 && (fFN6 w).extractLsb' 4 2 == 0) (.wait (fD w) (BClass.ofCode (fM w)) ((fFN6 w).extractLsb' 0 4))
  | 0xD => chk (BClass.legal (fM w) && decide ((fFN6 w).toNat ≤ 1)) ((fB w) == 0) (.wstat (fD w) (fA w) (BClass.ofCode (fM w)) ((fFN6 w).getLsbD 0))
  | _ => .error 2

/-- The words of primary opcodes 0xE0 to 0xEF (R56). -/
def decodeSystem (w : Word) : Except Nat Instr :=
  match ((fOp w).extractLsb' 0 4).toNat with
  | 0x0 => chk ((fFN w) == 0) ((fD w) == 0 && (fM w) == 0) (.binit (fA w) (fB w) (fTA w) (fTB w))
  | 0x1 => chk ((fFN w) == 0) ((fB w) == 0 && (fM w) == 0 && !(fTB w)) (.barv (fD w) (fA w) (fTA w))
  | 0x2 => chk ((fFN w) == 0) ((fB w) == 0 && (fM w) == 0 && !(fTB w)) (.barx (fD w) (fA w) (fTA w))
  | 0x3 => chk ((fFN w) == 0) ((fB w) == 0 && (fM w) == 0 && !(fTB w)) (.bwait (fD w) (fA w) (fTA w))
  | 0x4 => chk ((fFN w) == 0) ((fM w) == 0) (.bwany (fD w) (fA w) (fB w) (fTA w) (fTB w))
  | 0x5 => chk ((fFN w) == 0) ((fD w) == 0 && (fM w) == 0) (.bpark (fA w) (fB w) (fTA w) (fTB w))
  | 0x6 => chk ((fFN w) == 0) ((fD w) == 0 && (fB w) == 0 && (fM w) == 0 && !(fTB w)) (.binv (fA w) (fTA w))
  | 0x7 =>
    match (fFN w).toNat with
    | 0 | 1 | 2 | 3 | 4 | 5 | 6 => chk (true) ((fD w) == 0 && (fA w) == 0 && (fB w) == 0 && (fM w) == 0 && !(fTA w) && !(fTB w)) (.fence (Scope.ofCode ((fFN w).extractLsb' 0 3)))
    | 8 => chk (true) ((fA w) == 0 && (fB w) == 0 && (fM w) == 0 && !(fTA w) && !(fTB w)) (.gbar (fD w))
    | _ => .error 4
  | 0x8 => chk (csrListed ((fImm w).extractLsb' 0 12)) ((fA w) == 0 && (fImm w).extractLsb' 12 2 == 0) (.csrr (fD w) ((fImm w).extractLsb' 0 12))
  | 0x9 => chk (csrListed ((fImm w).extractLsb' 0 12)) ((fD w) == 0 && (fImm w).extractLsb' 12 2 == 0) (.csrw (fA w) ((fImm w).extractLsb' 0 12))
  | 0xA => chk (true) ((fD w) == 0) (.trap (fA w) (fImm w))
  | 0xB => chk (true) ((fD w) == 0) (.bkpt (fA w) (fImm w))
  | 0xC => chk (true) ((fB w) == 0 && (fM w) == 0 && (fFN6 w) == 0) (.lnch (fD w) (fA w))
  | 0xD => chk (decide ((fFN6 w).toNat ≤ 1)) ((fB w) == 0 && (fM w) == 0) (.evsig (fD w) (fA w) ((fFN6 w).getLsbD 0))
  | 0xF =>
    match (fFN w).toNat with
    | 0 => chk (true) ((fB w) == 0 && (fM w) == 0 && !(fTA w) && !(fTB w)) (.krdr (fD w) (fA w))
    | 1 => chk (true) ((fD w) == 0 && (fM w) == 0 && !(fTA w) && !(fTB w)) (.kwrr (fA w) (fB w))
    | 2 => chk (true) ((fD w) == 0 && (fB w) == 0 && (fM w) == 0 && !(fTA w) && !(fTB w)) (.krsm (fA w))
    | 3 => chk (true) ((fD w) == 0 && (fB w) == 0 && (fM w) == 0 && !(fTA w) && !(fTB w)) (.kkil (fA w))
    | 4 => chk (true) ((fM w) == 0 && !(fTA w) && !(fTB w)) (.ksav (fD w) (fA w) (fB w))
    | 5 => chk (true) ((fM w) == 0 && !(fTA w) && !(fTB w)) (.klod (fD w) (fA w) (fB w))
    | 6 => chk (true) ((fD w) == 0 && (fA w) == 0 && (fB w) == 0 && (fM w) == 0 && !(fTA w) && !(fTB w)) .kret
    | _ => .error 4
  | _ => .error 2

/-- The words of primary opcodes 0xF0 to 0xFF (R56). -/
def decodeHint (w : Word) : Except Nat Instr :=
  match ((fOp w).extractLsb' 0 4).toNat with
  | 0x0 => chkHint (true) (.imx (fJ w))
  | 0x1 => chkHint ((fJ w).extractLsb' 0 12 == 0) (.rep ((fJ w).extractLsb' 18 6) ((fJ w).extractLsb' 16 2) ((fJ w).extractLsb' 14 2) ((fJ w).extractLsb' 12 2))
  | 0x2 => chkHint ((fJ w).extractLsb' 0 18 == 0) (.mod ((fJ w).extractLsb' 21 3) ((fJ w).getLsbD 20) ((fJ w).getLsbD 19) ((fJ w).getLsbD 18))
  | 0x3 => chkHint ((fJ w).extractLsb' 0 21 == 0) (.schd ((fJ w).getLsbD 23) ((fJ w).extractLsb' 21 2))
  | _ => .error 1

/-- The instruction of a word, or the step of R58 that refuses it. The checks that need the row's state (duplicate and
unaccepted hints, PRIVILEGE, waits) are made where the word issues. DEDUCED: log entry 26. DEDUCED: log entry 27. -/
def decodeRow (w : Word) : Except Nat Instr :=
  match ((fOp w).extractLsb' 4 4).toNat with
  | 0x0 => decodeScalar w
  | 0x1 => decodeScalarImm w
  | 0x2 => decodeControl w
  | 0x3 => decodeVInt w
  | 0x4 => decodeVInt2 w
  | 0x6 => decodeVFloat w
  | 0x7 => decodeVFloat2 w
  | 0x9 => decodeLane w
  | 0xA => decodeMem w
  | 0xB => decodeMatrix w
  | 0xC => decodeSparse w
  | 0xD => decodeEngine w
  | 0xE => decodeSystem w
  | 0xF => decodeHint w
  | _ => .error 2

/-! Fields of the walker formats (R196). -/

/-- The walker opcode. -/
def kOp (w : Word) : BitVec 6 := w.extractLsb' 26 6
/-- Field D; field A of WB. -/
def kD (w : Word) : WReg := w.extractLsb' 22 4
/-- Field A; field B of WB. -/
def kA (w : Word) : WReg := w.extractLsb' 18 4
/-- Field B of WR. -/
def kB (w : Word) : WReg := w.extractLsb' 14 4
/-- Field E of WR. -/
def kE (w : Word) : WReg := w.extractLsb' 10 4
/-- Field CR of WR. -/
def kCR (w : Word) : Bool := w.getLsbD 9
/-- The reserved bits of WR. -/
def kLow (w : Word) : BitVec 9 := w.extractLsb' 0 9
/-- IMM18. -/
def kI18 (w : Word) : BitVec 18 := w.extractLsb' 0 18
/-- IMM22. -/
def kI22 (w : Word) : BitVec 22 := w.extractLsb' 0 22
/-- SZ. -/
def kSz (w : Word) : BitVec 2 := w.extractLsb' 16 2
/-- IMM16. -/
def kI16 (w : Word) : BitVec 16 := w.extractLsb' 0 16
/-- COND. -/
def kCond (w : Word) : BitVec 3 := w.extractLsb' 15 3
/-- OFF15. -/
def kO15 (w : Word) : BitVec 15 := w.extractLsb' 0 15

/-- The walker instruction, or none for a word of R197 that stops the walker with CAUSE 3. -/
def decodeWalker (w : Word) : Option Instr :=
  match (kOp w).toNat with
  | 0x01 => if (kE w) == 0 && !(kCR w) && (kLow w) == 0 then some (.wadd (kD w) (kA w) (kB w)) else none
  | 0x02 => if (kE w) == 0 && !(kCR w) && (kLow w) == 0 then some (.wsub (kD w) (kA w) (kB w)) else none
  | 0x03 => if (kE w) == 0 && !(kCR w) && (kLow w) == 0 then some (.wmul (kD w) (kA w) (kB w)) else none
  | 0x04 => if (kE w) == 0 && !(kCR w) && (kLow w) == 0 then some (.wand (kD w) (kA w) (kB w)) else none
  | 0x05 => if (kE w) == 0 && !(kCR w) && (kLow w) == 0 then some (.wor (kD w) (kA w) (kB w)) else none
  | 0x06 => if (kE w) == 0 && !(kCR w) && (kLow w) == 0 then some (.wxor (kD w) (kA w) (kB w)) else none
  | 0x07 => if (kE w) == 0 && !(kCR w) && (kLow w) == 0 then some (.wshl (kD w) (kA w) (kB w)) else none
  | 0x08 => if (kE w) == 0 && !(kCR w) && (kLow w) == 0 then some (.wshr (kD w) (kA w) (kB w)) else none
  | 0x09 => some (.waddi (kD w) (kA w) (kI18 w))
  | 0x0A => some (.wli (kD w) (kI22 w))
  | 0x10 => some (.wld (kD w) (kA w) (kSz w) (kI16 w))
  | 0x11 => if (kSz w) == 0 then some (.wpref (kD w) (kA w) (kI16 w)) else none
  | 0x18 => if WCond.legal (kCond w) then some (.wbcc (kD w) (kA w) (WCond.ofCode (kCond w)) (kO15 w)) else none
  | 0x19 => if (kD w) == 0 && (kA w) == 0 && (kCond w) == 0 then some (.wj (kO15 w)) else none
  | 0x20 => if (kB w) == 0 && (kE w) == 0 && !(kCR w) && (kLow w) == 0 then some (.wpopc (kD w) (kA w)) else none
  | 0x21 => if (kE w) == 0 && !(kCR w) && (kLow w) == 0 then some (.wpfx (kD w) (kA w) (kB w)) else none
  | 0x22 => if !(kCR w) && (kLow w) == 0 then some (.isect (kD w) (kA w) (kB w) (kE w)) else none
  | 0x23 => if !(kCR w) && (kLow w) == 0 then some (.part (kD w) (kA w) (kB w) (kE w)) else none
  | 0x28 => if (kLow w) == 0 then some (.emit (kD w) (kA w) (kB w) (kE w) (kCR w)) else none
  | 0x29 => if (kA w) == 0 && (kLow w) == 0 then some (.emitz (kD w) (kB w) (kE w) (kCR w)) else none
  | 0x2A => if (kD w) == 0 && (kB w) == 0 && (kE w) == 0 && !(kCR w) && (kLow w) == 0 then some (.sigb (kA w)) else none
  | 0x3F => if (kD w) == 0 && (kA w) == 0 && (kB w) == 0 && (kE w) == 0 && !(kCR w) && (kLow w) == 0 then some (.wend) else none
  | _ => none

/-! The encoder, from the formats of R30 to R36 and R196. -/

/-- A V3 word (R30). -/
def encV3 (op : BitVec 8) (d a b : Reg) (m : BitVec 3) (ta tb : Bool) (fn : BitVec 4) : Word :=
  op ++ d ++ a ++ b ++ m ++ bit ta ++ bit tb ++ fn
/-- An I word (R31). -/
def encI (op : BitVec 8) (d a : Reg) (i : BitVec 14) : Word := op ++ d ++ a ++ i
/-- A MEM word (R32). -/
def encMem (op : BitVec 8) (d s x : Reg) (m : BitVec 3) (o : BitVec 6) : Word := op ++ d ++ s ++ x ++ m ++ o
/-- A BR word (R33). -/
def encBr (op : BitVec 8) (a : Reg) (o : BitVec 19) : Word := op ++ a ++ o
/-- A J word (R34). -/
def encJ (op : BitVec 8) (o : BitVec 24) : Word := op ++ o
/-- An E word (R35). -/
def encE (op : BitVec 8) (d a b : Reg) (c : BitVec 3) (fn : BitVec 6) : Word := op ++ d ++ a ++ b ++ c ++ fn
/-- An H word (R36). -/
def encH (kind : BitVec 4) (p : BitVec 24) : Word := (0xF : BitVec 4) ++ kind ++ p
/-- A WR word (R196). -/
def encWR (op : BitVec 6) (d a b e : WReg) (cr : Bool) : Word := op ++ d ++ a ++ b ++ e ++ bit cr ++ (0 : BitVec 9)
/-- A WI word. -/
def encWI (op : BitVec 6) (d a : WReg) (i : BitVec 18) : Word := op ++ d ++ a ++ i
/-- A WL word. -/
def encWL (op : BitVec 6) (d : WReg) (i : BitVec 22) : Word := op ++ d ++ i
/-- A WM word. -/
def encWM (op : BitVec 6) (d a : WReg) (s : BitVec 2) (i : BitVec 16) : Word := op ++ d ++ a ++ s ++ i
/-- A WB word. -/
def encWB (op : BitVec 6) (a b : WReg) (c : BitVec 3) (o : BitVec 15) : Word := op ++ a ++ b ++ c ++ o

/-- The word of a row, monitor or walker instruction; an event has none. -/
def encode : Instr → Option Word
  | .imx p => some (encH 0 p)
  | .rep c d a b => some (encH 1 (c ++ d ++ a ++ b ++ (0 : BitVec 12)))
  | .mod r s t w => some (encH 2 (r ++ bit s ++ bit t ++ bit w ++ (0 : BitVec 18)))
  | .schd l y => some (encH 3 (bit l ++ y ++ (0 : BitVec 21)))
  | .sadd d a b ta tb => some (encV3 0x01 d a b 0 ta tb 0)
  | .ssub d a b ta tb => some (encV3 0x02 d a b 0 ta tb 0)
  | .smul d a b ta tb => some (encV3 0x03 d a b 0 ta tb 0)
  | .smulh d a b ta tb u => some (encV3 0x04 d a b 0 ta tb ((3 : BitVec 3) ++ bit u))
  | .sdiv d a b ta tb u => some (encV3 0x05 d a b 0 ta tb ((3 : BitVec 3) ++ bit u))
  | .srem d a b ta tb u => some (encV3 0x06 d a b 0 ta tb ((3 : BitVec 3) ++ bit u))
  | .sand d a b ta tb => some (encV3 0x07 d a b 0 ta tb 0)
  | .sor d a b ta tb => some (encV3 0x08 d a b 0 ta tb 0)
  | .sxor d a b ta tb => some (encV3 0x09 d a b 0 ta tb 0)
  | .sshl d a b ta tb => some (encV3 0x0a d a b 0 ta tb 0)
  | .sshr d a b ta tb u => some (encV3 0x0b d a b 0 ta tb ((3 : BitVec 3) ++ bit u))
  | .smin d a b ta tb u => some (encV3 0x0c d a b 0 ta tb ((3 : BitVec 3) ++ bit u))
  | .smax d a b ta tb u => some (encV3 0x0d d a b 0 ta tb ((3 : BitVec 3) ++ bit u))
  | .scmp d a b ta tb u c => some (encV3 0x0E d a b 0 ta tb (bit u ++ c.code))
  | .ssel d a b ta tb c => some (encV3 0x0F d a b 0 ta tb c)
  | .saddi d a i => some (encI 0x10 d a i)
  | .sandi d a i => some (encI 0x11 d a i)
  | .sori d a i => some (encI 0x12 d a i)
  | .sxori d a i => some (encI 0x13 d a i)
  | .sshli d a n => some (encI 0x14 d a ((0 : BitVec 8) ++ n))
  | .sshri d a k n => some (encI 0x15 d a ((0 : BitVec 7) ++ bit k ++ n))
  | .sli d i => some (encI 0x16 d 0 i)
  | .spopc d a ta => some (encV3 0x17 d a 0 0 ta false 0)
  | .sclz d a ta => some (encV3 0x18 d a 0 0 ta false 0)
  | .smov d a ta => some (encV3 0x19 d a 0 0 ta false 0)
  | .bra o => some (encJ 0x20 o)
  | .bz a o => some (encBr 0x21 a o)
  | .bnz a o => some (encBr 0x22 a o)
  | .call o => some (encJ 0x23 o)
  | .ret a ta => some (encV3 0x24 0 a 0 0 ta false 0)
  | .jmpr a ta => some (encV3 0x25 0 a 0 0 ta false 0)
  | .exit => some (encV3 0x26 0 0 0 0 false false 0)
  | .yield => some (encV3 0x27 0 0 0 0 false false 0)
  | .nop => some (encV3 0x28 0 0 0 0 false false 0)
  | .ifm k o => some (encBr 0x29 ((0 : BitVec 2) ++ k) o)
  | .elsem o => some (encBr 0x2A 0 o)
  | .endifm => some (encV3 0x2B 0 0 0 0 false false 0)
  | .loopm o => some (encBr 0x2C 0 o)
  | .brkm k o => some (encBr 0x2D ((0 : BitVec 2) ++ k) o)
  | .endl o => some (encBr 0x2E 0 o)
  | .vadd d a b m ta tb u => some (encV3 0x30 d a b m ta tb ((0 : BitVec 3) ++ bit u))
  | .vsub d a b m ta tb u => some (encV3 0x31 d a b m ta tb ((0 : BitVec 3) ++ bit u))
  | .vmul d a b m ta tb u => some (encV3 0x32 d a b m ta tb ((0 : BitVec 3) ++ bit u))
  | .vmulh d a b m ta tb u => some (encV3 0x33 d a b m ta tb ((0 : BitVec 3) ++ bit u))
  | .vmad d a b m ta tb u => some (encV3 0x34 d a b m ta tb ((0 : BitVec 3) ++ bit u))
  | .vabs d a m ta => some (encV3 0x35 d a 0 m ta false 0)
  | .vmin d a b m ta tb u => some (encV3 0x36 d a b m ta tb ((0 : BitVec 3) ++ bit u))
  | .vmax d a b m ta tb u => some (encV3 0x37 d a b m ta tb ((0 : BitVec 3) ++ bit u))
  | .vand d a b m ta tb => some (encV3 0x38 d a b m ta tb 0)
  | .vor d a b m ta tb => some (encV3 0x39 d a b m ta tb 0)
  | .vxor d a b m ta tb => some (encV3 0x3a d a b m ta tb 0)
  | .vandn d a b m ta tb => some (encV3 0x3b d a b m ta tb 0)
  | .vshl d a b m ta tb => some (encV3 0x3c d a b m ta tb 0)
  | .vshr d a b m ta tb u => some (encV3 0x3d d a b m ta tb ((0 : BitVec 3) ++ bit u))
  | .vshli d a n m ta => some (encV3 0x3E d a n m ta false 0)
  | .vshri d a n m ta u => some (encV3 0x3F d a n m ta false ((0 : BitVec 3) ++ bit u))
  | .vaddi d a i => some (encI 0x40 d a i)
  | .vcmp d a b m ta tb u c => some (encV3 0x41 ((0 : BitVec 2) ++ d) a b m ta tb (bit u ++ c.code))
  | .vcmpi d a i m ta u c => some (encV3 0x42 ((0 : BitVec 2) ++ d) a i m ta false (bit u ++ c.code))
  | .vsel d a b m ta tb c => some (encV3 0x43 d a b m ta tb (bit false ++ c))
  | .vpopc d a m ta => some (encV3 0x44 d a 0 m ta false 0)
  | .vclz d a m ta => some (encV3 0x45 d a 0 m ta false 0)
  | .vmov d a m ta => some (encV3 0x46 d a 0 m ta false 0)
  | .vmovs d a m ta => some (encV3 0x47 d a 0 m ta false 0)
  | .vli d i => some (encI 0x48 d 0 i)
  | .vsatn d a m ta f => some (encV3 0x49 d a 0 m ta false f.code)
  | .vdot4 d a b m ta tb u => some (encV3 0x4A d a b m ta tb ((2 : BitVec 3) ++ bit u))
  | .vfadd d a b m ta tb => some (encV3 0x60 d a b m ta tb 8)
  | .vfsub d a b m ta tb => some (encV3 0x61 d a b m ta tb 8)
  | .vfmul d a b m ta tb => some (encV3 0x62 d a b m ta tb 8)
  | .vfma d a b m ta tb => some (encV3 0x63 d a b m ta tb 8)
  | .vfmin d a b m ta tb => some (encV3 0x64 d a b m ta tb 8)
  | .vfmax d a b m ta tb => some (encV3 0x65 d a b m ta tb 8)
  | .vfsgn d a b m ta tb f => some (encV3 0x66 d a b m ta tb ((0 : BitVec 2) ++ f.code))
  | .vfrcp d a m ta => some (encV3 0x67 d a 0 m ta false 8)
  | .vfrsq d a m ta => some (encV3 0x68 d a 0 m ta false 8)
  | .vfsqrt d a m ta => some (encV3 0x69 d a 0 m ta false 8)
  | .vfdiv d a b m ta tb => some (encV3 0x6a d a b m ta tb 8)
  | .vfexp2 d a m ta => some (encV3 0x6b d a 0 m ta false 8)
  | .vflog2 d a m ta => some (encV3 0x6c d a 0 m ta false 8)
  | .vfcmp d a b m ta tb c => some (encV3 0x6D ((0 : BitVec 2) ++ d) a b m ta tb (bit false ++ c.code))
  | .vfclass d a m ta => some (encV3 0x6e d a 0 m ta false 8)
  | .vfrnd d a m ta => some (encV3 0x6f d a 0 m ta false 8)
  | .vfscl d a b m ta tb => some (encV3 0x70 d a b m ta tb 8)
  | .vhadd d a b m ta tb bf => some (encV3 0x71 d a b m ta tb ((7 : BitVec 3) ++ bit bf))
  | .vhmul d a b m ta tb bf => some (encV3 0x72 d a b m ta tb ((7 : BitVec 3) ++ bit bf))
  | .vhfma d a b m ta tb bf => some (encV3 0x73 d a b m ta tb ((7 : BitVec 3) ++ bit bf))
  | .vcvt d a h s m ta f => some (encV3 0x74 d a (bit h ++ s.code) m ta false f.code)
  | .vcvts d a b m ta tb f => some (encV3 0x75 d a b m ta tb f.code)
  | .vshfl d a b m ta tb f => some (encV3 0x90 d a b m ta tb ((0 : BitVec 2) ++ f))
  | .vbcst d a b m ta tb => some (encV3 0x91 d a b m ta tb 0)
  | .vred d a m ta p y => some (encV3 0x92 d a 0 m ta false (p.code ++ y.code))
  | .vscan d a m ta p y => some (encV3 0x93 d a 0 m ta false (p.code ++ y.code))
  | .vcprs d a m ta => some (encV3 0x94 d a 0 m ta false 0)
  | .vexpd d a m ta => some (encV3 0x95 d a 0 m ta false 0)
  | .mpopc d a m f => some (encV3 0x96 d ((0 : BitVec 2) ++ a) 0 m false false ((0 : BitVec 2) ++ f.code))
  | .vtos d a b ta tb sx => some (encV3 0x97 d a b 0 ta tb ((0 : BitVec 3) ++ bit sx))
  | .stov d a b m ta tb => some (encV3 0x98 d a b m ta tb 0)
  | .mlog d a b f => some (encV3 0x99 ((0 : BitVec 2) ++ d) ((0 : BitVec 2) ++ a) ((0 : BitVec 2) ++ b) 0 false false (bit false ++ f.code))
  | .mmovsMS d a => some (encV3 0x9A d ((0 : BitVec 2) ++ a) 0 0 false false 0)
  | .mmovsSM d a ta => some (encV3 0x9A ((0 : BitVec 2) ++ d) a 0 0 ta false 1)
  | .ldv d s m o => some (encMem 0xA0 d s 0 m o)
  | .stv d s m o => some (encMem 0xA1 d s 0 m o)
  | .ldvs d s x m o => some (encMem 0xA2 d s x m o)
  | .stvs d s x m o => some (encMem 0xA3 d s x m o)
  | .ldvx d s x m c o => some (encMem 0xA4 d s x m (c ++ o))
  | .stvx d s x m c o => some (encMem 0xA5 d s x m (c ++ o))
  | .lds d s o => some (encMem 0xA6 d s 0 0 o)
  | .sts d s o => some (encMem 0xA7 d s 0 0 o)
  | .rldv d s m o => some (encMem 0xA8 d s 0 m o)
  | .rstv d s m o => some (encMem 0xA9 d s 0 m o)
  | .atom d a b m ord sc p => some (encV3 0xAA d a b m (ord.getLsbD 1) (ord.getLsbD 0) (bit sc ++ p.code))
  | .ratom d a b m ord rt p => some (encV3 0xAB d a b m (ord.getLsbD 1) (ord.getLsbD 0) (bit rt ++ p.code))
  | .tak2 d m ta w => some (encV3 0xAC d 28 0 m ta false ((0 : BitVec 3) ++ bit w))
  | .put2 a b m ta tb => some (encV3 0xAD 29 a b m ta tb 0)
  | .pqry d => some (encV3 0xAE d 0 0 0 false false 0)
  | .shape d a ta => some (encV3 0xB0 d a 0 0 ta false 0)
  | .mgat d s m o => some (encMem 0xB1 d s 0 m o)
  | .mlat s m o => some (encMem 0xB2 0 s 0 m o)
  | .mma a b m ta tb zp => some (encV3 0xB3 0 a b m ta tb ((0 : BitVec 3) ++ bit zp))
  | .mmas d a b m ta tb zp => some (encV3 0xB4 d a b m ta tb ((0 : BitVec 3) ++ bit zp))
  | .mwl s m o => some (encMem 0xB5 0 s 0 m o)
  | .mwf a b m ta tb => some (encV3 0xb6 0 a b m ta tb 0)
  | .mwb a b m ta tb => some (encV3 0xb7 0 a b m ta tb 0)
  | .mclr m f => some (encV3 0xB8 0 0 0 m false false f)
  | .msca a b m ta tb => some (encV3 0xB9 0 a b m ta tb 0)
  | .mdrn d a b m ta tb f => some (encV3 0xBA d a b m ta tb f.code)
  | .mmovpGP d m => some (encV3 0xBB d 0 0 m false false 0)
  | .mmovpGA d m => some (encV3 0xBB d 0 0 m false false 1)
  | .mmovpSP a m ta => some (encV3 0xBB 0 a 0 m ta false 2)
  | .mmovpSA a m ta => some (encV3 0xBB 0 a 0 m ta false 3)
  | .mpack d a b ta tb => some (encV3 0xC0 d a b 0 ta tb 0)
  | .munpk a b ta tb => some (encV3 0xC1 0 a b 0 ta tb 0)
  | .cardck d a ta => some (encV3 0xC2 d a 0 0 ta false 0)
  | .qpack d a b ta tb => some (encV3 0xC3 d a b 0 ta tb 0)
  | .shcp d a b bar d3 => some (encE 0xD0 d a b 1 ((0 : BitVec 4) ++ bit bar ++ bit d3))
  | .shtr d a exp bar sp => some (encE 0xD1 d a 0 1 ((0 : BitVec 3) ++ bit exp ++ bit bar ++ bit sp))
  | .shset d a b z bar d3 => some (encE 0xD2 d a b 1 ((0 : BitVec 2) ++ z ++ bit bar ++ bit d3))
  | .gath d a b bar ixr => some (encE 0xd3 d a b 2 ((0 : BitVec 4) ++ bit bar ++ bit ixr))
  | .scat d a b bar ixr => some (encE 0xd4 d a b 2 ((0 : BitVec 4) ++ bit bar ++ bit ixr))
  | .sred d a b p ord bar ixr => some (encE 0xD5 d a b 2 (p.code ++ bit ord ++ bit bar ++ bit ixr))
  | .wkst d a rl bar => some (encE 0xD6 d a 0 3 ((0 : BitVec 4) ++ bit rl ++ bit bar))
  | .nput d a => some (encE 0xD7 d a 0 4 0)
  | .nget d a bar => some (encE 0xD8 d a 0 4 ((0 : BitVec 5) ++ bit bar))
  | .nred d a p => some (encE 0xD9 d a 0 4 ((0 : BitVec 3) ++ p.code))
  | .nsig d a st => some (encE 0xDA d a 0 4 ((0 : BitVec 5) ++ bit st))
  | .seal d c => some (encE 0xDB d 0 0 c.code 0)
  | .wait d c n => some (encE 0xDC d 0 0 c.code ((0 : BitVec 2) ++ n))
  | .wstat d a c addr => some (encE 0xDD d a 0 c.code ((0 : BitVec 5) ++ bit addr))
  | .binit a b ta tb => some (encV3 0xE0 0 a b 0 ta tb 0)
  | .barv d a ta => some (encV3 0xe1 d a 0 0 ta false 0)
  | .barx d a ta => some (encV3 0xe2 d a 0 0 ta false 0)
  | .bwait d a ta => some (encV3 0xe3 d a 0 0 ta false 0)
  | .bwany d a b ta tb => some (encV3 0xE4 d a b 0 ta tb 0)
  | .bpark a b ta tb => some (encV3 0xE5 0 a b 0 ta tb 0)
  | .binv a ta => some (encV3 0xE6 0 a 0 0 ta false 0)
  | .fence s => some (encV3 0xE7 0 0 0 0 false false (bit false ++ s.code))
  | .gbar d => some (encV3 0xE7 d 0 0 0 false false 8)
  | .csrr d c => some (encI 0xE8 d 0 ((0 : BitVec 2) ++ c))
  | .csrw a c => some (encI 0xE9 0 a ((0 : BitVec 2) ++ c))
  | .trap a i => some (encI 0xea 0 a i)
  | .bkpt a i => some (encI 0xeb 0 a i)
  | .lnch d a => some (encE 0xEC d a 0 0 0)
  | .evsig d a st => some (encE 0xED d a 0 0 ((0 : BitVec 5) ++ bit st))
  | .krdr d a => some (encV3 0xEF d a 0 0 false false 0)
  | .kwrr a b => some (encV3 0xEF 0 a b 0 false false 1)
  | .krsm a => some (encV3 0xEF 0 a 0 0 false false 2)
  | .kkil a => some (encV3 0xEF 0 a 0 0 false false 3)
  | .ksav d a b => some (encV3 0xEF d a b 0 false false 4)
  | .klod d a b => some (encV3 0xEF d a b 0 false false 5)
  | .kret => some (encV3 0xEF 0 0 0 0 false false 6)
  | .wadd d a b => some (encWR 0x01 d a b 0 false)
  | .wsub d a b => some (encWR 0x02 d a b 0 false)
  | .wmul d a b => some (encWR 0x03 d a b 0 false)
  | .wand d a b => some (encWR 0x04 d a b 0 false)
  | .wor d a b => some (encWR 0x05 d a b 0 false)
  | .wxor d a b => some (encWR 0x06 d a b 0 false)
  | .wshl d a b => some (encWR 0x07 d a b 0 false)
  | .wshr d a b => some (encWR 0x08 d a b 0 false)
  | .waddi d a i => some (encWI 0x09 d a i)
  | .wli d i => some (encWL 0x0A d i)
  | .wld d a s i => some (encWM 0x10 d a s i)
  | .wpref d a i => some (encWM 0x11 d a 0 i)
  | .wbcc a b c o => some (encWB 0x18 a b c.code o)
  | .wj o => some (encWB 0x19 0 0 0 o)
  | .wpopc d a => some (encWR 0x20 d a 0 0 false)
  | .wpfx d a b => some (encWR 0x21 d a b 0 false)
  | .isect d a b e => some (encWR 0x22 d a b e false)
  | .part d a b e => some (encWR 0x23 d a b e false)
  | .emit d a b e cr => some (encWR 0x28 d a b e cr)
  | .emitz d b e cr => some (encWR 0x29 d 0 b e cr)
  | .sigb a => some (encWR 0x2A 0 a 0 0 false)
  | .wend => some (encWR 0x3F 0 0 0 0 false)
  | _ => none

/-- The instruction of a word numbered as the opcode table numbers it. Row, band and monitor words are read by
decodeRow; a word it refuses is read as a walker word (R196), which lives in a program of its own.
DESIGN CHOICE: log entry 35. -/
def decodeTableWord (nbits w : Nat) : Option Instr :=
  let x : Word := BitVec.ofNat 32 (w % 2 ^ nbits)
  match decodeRow x with
  | .ok i => some i
  | .error _ => decodeWalker x

end Sys2Proof
end

