-- ==== Sys2Proof/Machine/Float.lean ====
section
/-! DEFINITION. Number formats and arithmetic rules (R69 to R95): exact values, the one rounding, conversions and the
functions of one lane. Every function here takes and returns bit patterns as Nat or BitVec and the flags it raises. -/
namespace Sys2Proof.Machine

/-- The five flags in the order of R96: bit 4 INVALID, 3 DIVZERO, 2 OVERFLOW, 1 UNDERFLOW, 0 INEXACT. -/
abbrev Flags := BitVec 5
/-- INEXACT (R96). -/
def flInexact : Flags := 1
/-- UNDERFLOW (R96). -/
def flUnderflow : Flags := 2
/-- OVERFLOW (R96). -/
def flOverflow : Flags := 4
/-- DIVZERO (R96). -/
def flDivzero : Flags := 8
/-- INVALID (R96). -/
def flInvalid : Flags := 16

/-- The rounding modes of R77. -/
inductive RMode
  | rne | rtz | rdn | rup
  deriving DecidableEq, Repr

/-- The mode of an RMODE value (R77). -/
def RMode.ofCode (c : BitVec 2) : RMode :=
  match c.toNat with
  | 0 => .rne
  | 1 => .rtz
  | 2 => .rdn
  | _ => .rup

/-- The floating-point formats of R69. -/
inductive Fmt
  | f32 | f16 | bf16 | e4m3 | e5m2
  deriving DecidableEq, Repr

/-- Exponent bits (R69). -/
def Fmt.eb : Fmt → Nat
  | .f32 => 8 | .f16 => 5 | .bf16 => 8 | .e4m3 => 4 | .e5m2 => 5
/-- Fraction bits (R69). -/
def Fmt.fb : Fmt → Nat
  | .f32 => 23 | .f16 => 10 | .bf16 => 7 | .e4m3 => 3 | .e5m2 => 2
/-- Bias (R69). -/
def Fmt.bias : Fmt → Nat
  | .f32 => 127 | .f16 => 15 | .bf16 => 127 | .e4m3 => 7 | .e5m2 => 15
/-- The canonical NaN (R69). -/
def Fmt.nan : Fmt → Nat
  | .f32 => 0x7FC00000 | .f16 => 0x7E00 | .bf16 => 0x7FC0 | .e4m3 => 0x7F | .e5m2 => 0x7E
/-- The encoding of the largest finite value (R69). -/
def Fmt.maxCode : Fmt → Nat
  | .f32 => 0x7F7FFFFF | .f16 => 0x7BFF | .bf16 => 0x7F7F | .e4m3 => 0x7E | .e5m2 => 0x7B
/-- Infinities exist in every format but E4M3 (R69, R70). -/
def Fmt.hasInf : Fmt → Bool
  | .e4m3 => false | _ => true
/-- The sign bit of the format as a number. -/
def Fmt.signBit (f : Fmt) : Nat := 2 ^ (f.eb + f.fb)
/-- The encoding of infinity; used only where the format has one. -/
def Fmt.infCode (f : Fmt) : Nat := (2 ^ f.eb - 1) * 2 ^ f.fb
/-- A magnitude with a sign. -/
def Fmt.signed (f : Fmt) (neg : Bool) (code : Nat) : Nat := if neg then f.signBit + code else code

/-- A value: NaN, an infinity, or (-1)^neg times m times 2^e (R69); a zero keeps its sign. -/
inductive FVal
  | nan
  | inf (neg : Bool)
  | fin (neg : Bool) (m : Nat) (e : Int)
  deriving DecidableEq, Repr

/-- The value of an encoding (R69, R70). -/
def unpack (f : Fmt) (bits : Nat) : FVal :=
  let b := bits % (2 * f.signBit)
  let neg := decide (f.signBit ≤ b)
  let c := b % f.signBit
  let e := c / 2 ^ f.fb
  let fr := c % 2 ^ f.fb
  if f = .e4m3 ∧ c = 0x7F then .nan
  else if f.hasInf = true ∧ e = 2 ^ f.eb - 1 then (if fr = 0 then .inf neg else .nan)
  else if e = 0 then .fin neg fr (1 - (f.bias : Int) - f.fb)
  else .fin neg (fr + 2 ^ f.fb) ((e : Int) - f.bias - f.fb)

/-- A value is NaN. -/
def FVal.isNan : FVal → Bool
  | .nan => true
  | _ => false
/-- A value is a zero. -/
def FVal.isZero : FVal → Bool
  | .fin _ 0 _ => true
  | _ => false
/-- A value is an infinity. -/
def FVal.isInf : FVal → Bool
  | .inf _ => true
  | _ => false
/-- The sign of a value. -/
def FVal.neg : FVal → Bool
  | .nan => false
  | .inf n => n
  | .fin n _ _ => n
/-- A value with its sign inverted. -/
def FVal.negate : FVal → FVal
  | .nan => .nan
  | .inf n => .inf (!n)
  | .fin n m e => .fin (!n) m e

/-- A finite magnitude before rounding. With sticky set, the exact magnitude lies strictly between m and m + 1 units
of 2^e. -/
structure Mag where
  neg : Bool
  m : Nat
  e : Int
  sticky : Bool := false
  deriving DecidableEq, Repr

/-- What a rounding delivers: the encoding, the flags, and whether the value was tiny after rounding (R78). -/
structure Rounded where
  bits : Nat
  fl : Flags
  tiny : Bool := false
  deriving DecidableEq, Repr

/-- The number of bits of a magnitude. -/
def bitLen (m : Nat) : Nat := if m = 0 then 0 else Nat.log2 m + 1

/-- The rounding decision: whether the next value away from zero is taken, for quotient n, remainder class and mode.
cls is 0 for exact, 1 below half, 2 half, 3 above half. -/
def roundsUp (mode : RMode) (neg : Bool) (n cls : Nat) : Bool :=
  match mode with
  | .rne => decide (cls = 3) || (decide (cls = 2) && decide (n % 2 = 1))
  | .rtz => false
  | .rdn => neg && decide (cls ≠ 0)
  | .rup => !neg && decide (cls ≠ 0)

/-- A magnitude as a count of units of 2^q and the class of its remainder. -/
def splitAt (x : Mag) (q : Int) : Nat × Nat :=
  if q ≤ x.e then (x.m * 2 ^ (x.e - q).toNat, if x.sticky then 1 else 0)
  else
    let sh := (q - x.e).toNat
    if bitLen x.m + 1 < sh then (0, if x.m = 0 ∧ x.sticky = false then 0 else 1)
    else
      let n := x.m / 2 ^ sh
      let r := x.m % 2 ^ sh
      let h := 2 ^ (sh - 1)
      (n, if r = 0 then (if x.sticky then 1 else 0)
          else if r < h then 1
          else if r = h then (if x.sticky then 3 else 2)
          else 3)

/-- The value an overflow delivers (R79). -/
def overflowBits (f : Fmt) (mode : RMode) (sat neg : Bool) : Nat :=
  let mx := f.signed neg f.maxCode
  let away := match mode with
    | .rne => true
    | .rtz => false
    | .rdn => neg
    | .rup => !neg
  if sat || !away then mx
  else if f.hasInf then f.signed neg f.infCode else f.nan

/-- RoundTo of R11 and R78, with the overflow results of R79. A zero magnitude keeps its sign. -/
def roundTo (f : Fmt) (mode : RMode) (sat : Bool) (x : Mag) : Rounded :=
  if x.m = 0 ∧ x.sticky = false then ⟨f.signed x.neg 0, 0, false⟩
  else
    let top : Int := x.e + bitLen x.m - 1
    let emin : Int := 1 - f.bias
    let ovf : Rounded := ⟨overflowBits f mode sat x.neg, flOverflow ||| flInexact, false⟩
    if (f.bias : Int) + 1 < top then ovf
    else
      let q := max top emin - f.fb
      let (n, cls) := splitAt x q
      let n' := if roundsUp mode x.neg n cls then n + 1 else n
      let code := ((q + f.fb + f.bias - 1).toNat) * 2 ^ f.fb + n'
      let (t, tcls) := splitAt x (top - f.fb)
      let t' := if roundsUp mode x.neg t tcls then t + 1 else t
      let tiny := decide (top < emin - 1) || (decide (top = emin - 1) && decide (t' < 2 ^ (f.fb + 1)))
      if f.maxCode < code then ovf
      else
        let inex := decide (cls ≠ 0)
        ⟨f.signed x.neg code,
          (if inex then flInexact else 0) ||| (if inex && tiny then flUnderflow else 0), tiny⟩

/-- The canonical NaN with flags. -/
def Fmt.mkNan (f : Fmt) (fl : Flags) : Rounded := ⟨f.nan, fl, false⟩
/-- An infinity; only for formats that have one. -/
def Fmt.mkInf (f : Fmt) (neg : Bool) (fl : Flags := 0) : Rounded := ⟨f.signed neg f.infCode, fl, false⟩
/-- A signed zero. -/
def Fmt.mkZero (f : Fmt) (neg : Bool) : Rounded := ⟨f.signed neg 0, 0, false⟩

/-- A product and whether it was infinity times zero (R97). -/
def mulVal : FVal → FVal → FVal × Bool
  | .nan, _ | _, .nan => (.nan, false)
  | .inf a, .inf b => (.inf (a != b), false)
  | .inf a, .fin b m _ => if m = 0 then (.nan, true) else (.inf (a != b), false)
  | .fin a m _, .inf b => if m = 0 then (.nan, true) else (.inf (a != b), false)
  | .fin a m e, .fin b n g => (.fin (a != b) (m * n) (e + g), false)

/-- The least exponent of the finite nonzero terms. -/
def minExp : List FVal → Int → Int
  | [], a => a
  | .fin _ m e :: ts, a => minExp ts (if m = 0 then a else min a e)
  | _ :: ts, a => minExp ts a

/-- The exact sum of the finite terms in units of 2^q. -/
def sumUnits (q : Int) : List FVal → Int
  | [] => 0
  | .fin neg m e :: ts =>
    let v : Int := if m = 0 then 0 else ((m * 2 ^ (e - q).toNat : Nat) : Int)
    (if neg then -v else v) + sumUnits q ts
  | _ :: ts => sumUnits q ts

/-- The exponent some finite nonzero term has; 0 when there is none. -/
def someExp : List FVal → Int
  | [] => 0
  | .fin _ m e :: ts => if m = 0 then someExp ts else e
  | _ :: ts => someExp ts

/-- An exact sum before rounding: NaN with the flags it raises, an infinity, or a finite value whose zero has the
sign of R78. -/
inductive SumVal
  | nan (fl : Flags)
  | inf (neg : Bool)
  | fin (x : Mag)
  deriving DecidableEq, Repr

/-- The exact sum of the terms (R78, R84, R85): a NaN term gives NaN, opposite infinities give NaN with INVALID. A zero
sum is +0, or -0 under RDN, or -0 when every term is -0. DEDUCED: log entry 28. -/
def sumVals (mode : RMode) (ts : List FVal) : SumVal :=
  if ts.any FVal.isNan then .nan 0
  else if ts.any (fun t => t.isInf && t.neg) && ts.any (fun t => t.isInf && !t.neg) then .nan flInvalid
  else if ts.any FVal.isInf then .inf (ts.any (fun t => t.isInf && t.neg))
  else
    let q := minExp ts (someExp ts)
    let v := sumUnits q ts
    if v = 0 then .fin ⟨ts.all (fun t => t.isZero && t.neg) || decide (mode = .rdn), 0, 0, false⟩
    else .fin ⟨decide (v < 0), v.natAbs, q, false⟩

/-- Rounding of an exact sum into a format with infinities or into E4M3 (R78, R79, R81). DEDUCED: log entry 28. -/
def roundSum (f : Fmt) (mode : RMode) (sat : Bool) : SumVal → Rounded
  | .nan fl => f.mkNan fl
  | .inf neg => if f.hasInf then f.mkInf neg else if sat then ⟨f.signed neg f.maxCode, flInvalid, false⟩ else f.mkNan flInvalid
  | .fin x => roundTo f mode sat x

/-- a + b (R260, R261). -/
def fAdd (f : Fmt) (mode : RMode) (a b : FVal) : Rounded := roundSum f mode false (sumVals mode [a, b])

/-- a times b (R260, R261): a zero product has the exclusive or of the signs. -/
def fMul (f : Fmt) (mode : RMode) (a b : FVal) : Rounded :=
  match mulVal a b with
  | (.nan, bad) => f.mkNan (if bad then flInvalid else 0)
  | (.inf n, _) => f.mkInf n
  | (.fin n m e, _) => roundTo f mode false ⟨n, m, e, false⟩

/-- a times b plus c with one rounding (R260, R261). -/
def fFma (f : Fmt) (mode : RMode) (a b c : FVal) : Rounded :=
  let (p, bad) := mulVal a b
  let r := roundSum f mode false (sumVals mode [p, c])
  if bad then f.mkNan flInvalid else r

/-- A quotient of magnitudes to 80 bits or more, with sticky. -/
def divMag (neg : Bool) (m : Nat) (e : Int) (n : Nat) (g : Int) : Mag :=
  let k := bitLen n + 80
  let q := m * 2 ^ k / n
  ⟨neg, q, e - g - k, decide (q * n ≠ m * 2 ^ k)⟩

/-- a divided by b (R260, R261). -/
def fDiv (f : Fmt) (mode : RMode) (a b : FVal) : Rounded :=
  match a, b with
  | .nan, _ | _, .nan => f.mkNan 0
  | .inf _, .inf _ => f.mkNan flInvalid
  | .inf s, .fin t _ _ => f.mkInf (s != t)
  | .fin s _ _, .inf t => f.mkZero (s != t)
  | .fin s m e, .fin t n g =>
    if n = 0 then (if m = 0 then f.mkNan flInvalid else f.mkInf (s != t) flDivzero)
    else if m = 0 then f.mkZero (s != t)
    else roundTo f mode false (divMag (s != t) m e n g)

/-- The integer square root, bit by bit from bit k - 1 down, of the part of n above r. -/
def isqrtFrom (n : Nat) : Nat → Nat → Nat
  | 0, r => r
  | k + 1, r => let t := r + 2 ^ k; isqrtFrom n k (if t * t ≤ n then t else r)
/-- The integer square root. -/
def isqrt (n : Nat) : Nat := isqrtFrom n (bitLen n / 2 + 1) 0

/-- The square root of a positive value (R260), to 64 bits or more with sticky. -/
def sqrtMag (m : Nat) (e : Int) : Mag :=
  let (m1, e1) := if e % 2 = 0 then (m, e) else (2 * m, e - 1)
  let m2 := m1 * 2 ^ 128
  let r := isqrt m2
  ⟨false, r, (e1 - 128) / 2, decide (r * r ≠ m2)⟩

/-- The reciprocal square root of a positive value (R260), to 64 bits or more with sticky. -/
def rsqrtMag (m : Nat) (e : Int) : Mag :=
  let (m1, e1) := if e % 2 = 0 then (m, e) else (2 * m, e - 1)
  let k := bitLen m1 + 64
  let r := isqrt (2 ^ (2 * k) / m1)
  ⟨false, r, -(e1 / 2) - k, decide (m1 * r * r ≠ 2 ^ (2 * k))⟩

/-- VFSQRT of one lane (R261). -/
def fSqrt (f : Fmt) (mode : RMode) : FVal → Rounded
  | .nan => f.mkNan 0
  | .inf n => if n then f.mkNan flInvalid else f.mkInf false
  | .fin n m e => if m = 0 then f.mkZero n else if n then f.mkNan flInvalid else roundTo f mode false (sqrtMag m e)

/-- VFRSQ of one lane (R261). -/
def fRsqrt (f : Fmt) (mode : RMode) : FVal → Rounded
  | .nan => f.mkNan 0
  | .inf n => if n then f.mkNan flInvalid else f.mkZero false
  | .fin n m e =>
    if m = 0 then f.mkInf n flDivzero
    else if n then f.mkNan flInvalid else roundTo f mode false (rsqrtMag m e)

/-- VFRCP of one lane (R261). -/
def fRcp (f : Fmt) (mode : RMode) (a : FVal) : Rounded := fDiv f mode (.fin false 1 0) a

/-! The exponential and the logarithm, in fixed point with 400 fraction bits (PRESUMED, log entry 24). -/

/-- Fraction bits of the fixed point. -/
def fixBits : Nat := 400

/-- The sum of 2^fixBits / (k 2^k) for k from n down to 1: ln 2 in fixed point. -/
def ln2Sum : Nat → Nat
  | 0 => 0
  | k + 1 => 2 ^ fixBits / ((k + 1) * 2 ^ (k + 1)) + ln2Sum k
/-- ln 2 in fixed point. -/
def ln2Fix : Nat := ln2Sum 400

/-- The Taylor series of exp at y, from term number k whose value is t, for n more terms. -/
def expSum (y : Nat) : Nat → Nat → Nat → Nat
  | 0, _, _ => 0
  | n + 1, k, t => t + expSum y n (k + 1) (t * y / 2 ^ fixBits / (k + 1))

/-- 2 to the power of a fraction below 1, in fixed point. PRESUMED: log entry 24. -/
def exp2Fix (fr : Nat) : Nat := expSum (fr * ln2Fix / 2 ^ fixBits) 110 0 (2 ^ fixBits)

/-- 2 to the power of the finite value (-1)^neg m 2^e: exact at integral values, else a magnitude with sticky.
PRESUMED: log entry 24. -/
def exp2Mag (neg : Bool) (m : Nat) (e : Int) : Mag :=
  if (12 : Int) < e + bitLen m then ⟨false, 1, if neg then -4096 else 4096, false⟩
  else if e + bitLen m < -300 then ⟨false, if neg then 2 ^ 300 - 1 else 2 ^ 300, -300, true⟩
  else
    let v : Int := if 0 ≤ e + fixBits then (m * 2 ^ (e + fixBits).toNat : Nat) else 0
    let x : Int := if neg then -v else v
    let ip : Int := x / (2 ^ fixBits : Nat)
    let fr := (x % (2 ^ fixBits : Nat)).toNat
    if fr = 0 then ⟨false, 1, ip, false⟩ else ⟨false, exp2Fix fr / 2 ^ 16, ip - fixBits + 16, true⟩

/-- VFEXP2 of one lane (R261). -/
def fExp2 (f : Fmt) (mode : RMode) : FVal → Rounded
  | .nan => f.mkNan 0
  | .inf n => if n then f.mkZero false else f.mkInf false
  | .fin n m e => if m = 0 then roundTo f mode false ⟨false, 1, 0, false⟩ else roundTo f mode false (exp2Mag n m e)

/-- The series of atanh: the sum of t^(2k+1) / (2k+1), from term k with power p, for n terms. -/
def atanhSum (t2 : Nat) : Nat → Nat → Nat → Nat
  | 0, _, _ => 0
  | n + 1, k, p => p / (2 * k + 1) + atanhSum t2 n (k + 1) (p * t2 / 2 ^ fixBits)

/-- log2 of m 2^e for positive m, as a signed fixed-point number. PRESUMED: log entry 24. -/
def log2Fix (m : Nat) (e : Int) : Int :=
  let l := bitLen m - 1
  let t := (m - 2 ^ l) * 2 ^ fixBits / (m + 2 ^ l)
  let ln := 2 * atanhSum (t * t / 2 ^ fixBits) 140 0 t
  (e + l) * (2 ^ fixBits : Nat) + (ln * 2 ^ fixBits / ln2Fix : Nat)

/-- log2 of a positive value: exact at powers of two, else a magnitude with sticky. PRESUMED: log entry 24. -/
def log2Mag (m : Nat) (e : Int) : Mag :=
  let l := bitLen m - 1
  if m = 2 ^ l then
    let p : Int := e + l
    ⟨decide (p < 0), p.natAbs, 0, false⟩
  else
    let v := log2Fix m e
    ⟨decide (v < 0), v.natAbs / 2 ^ 16, 16 - (fixBits : Int), true⟩

/-- VFLOG2 of one lane (R261). -/
def fLog2 (f : Fmt) (mode : RMode) : FVal → Rounded
  | .nan => f.mkNan 0
  | .inf n => if n then f.mkNan flInvalid else f.mkInf false
  | .fin n m e =>
    if m = 0 then f.mkInf true flDivzero
    else if n then f.mkNan flInvalid else roundTo f mode false (log2Mag m e)

/-- A value rounded to an integral value in the mode, as a value, and whether it changed (R260, R261). -/
def rndIntegral (mode : RMode) : FVal → FVal × Bool
  | .fin neg m e =>
    if 0 ≤ e ∨ m = 0 then (.fin neg m e, false)
    else
      let (n, cls) := splitAt ⟨neg, m, e, false⟩ 0
      (.fin neg (if roundsUp mode neg n cls then n + 1 else n) 0, decide (cls ≠ 0))
  | v => (v, false)

/-- A value that the format holds, as an encoding. -/
def packExact (f : Fmt) : FVal → Nat
  | .nan => f.nan
  | .inf n => f.signed n f.infCode
  | .fin n m e => (roundTo f .rne false ⟨n, m, e, false⟩).bits

/-- VFRND of one lane (R261). -/
def fRnd (f : Fmt) (mode : RMode) (a : FVal) : Rounded :=
  let (v, ch) := rndIntegral mode a
  ⟨packExact f v, if ch then flInexact else 0, false⟩

/-- VFSCL of one lane (R261). -/
def fScl (f : Fmt) (mode : RMode) (a : FVal) (n : Int) : Rounded :=
  match a with
  | .nan => f.mkNan 0
  | .inf s => f.mkInf s
  | .fin s m e => roundTo f mode false ⟨s, m, e + n, false⟩

/-- Order of two values neither of which is NaN: -0 below +0 when total is set, equal otherwise. -/
def fLt (total : Bool) (a b : FVal) : Bool :=
  let key (v : FVal) : Int × Int × Nat :=
    match v with
    | .nan => (0, 0, 0)
    | .inf n => (if n then -2 else 2, 0, 0)
    | .fin n m e => (if m = 0 then 0 else if n then -1 else 1, e, m)
  let (ka, ea, ma) := key a
  let (kb, eb, mb) := key b
  if ka < kb then true
  else if kb < ka then false
  else if ka = 0 then total && a.neg && !b.neg
  else if ka = 2 ∨ ka = -2 then false
  else
    let q := min ea eb
    let x := ma * 2 ^ (ea - q).toNat
    let y := mb * 2 ^ (eb - q).toNat
    if ka = 1 then decide (x < y) else decide (y < x)

/-- Minimum under R95; the operands are given as encodings and the chosen one is returned. -/
def fMin (f : Fmt) (x y : Nat) : Nat :=
  let a := unpack f x
  let b := unpack f y
  if a.isNan || b.isNan then f.nan else if fLt true b a then y else x
/-- Maximum under R95. -/
def fMax (f : Fmt) (x y : Nat) : Nat :=
  let a := unpack f x
  let b := unpack f y
  if a.isNan || b.isNan then f.nan else if fLt true a b then y else x

/-- A floating-point comparison (R95): with a NaN operand only ne holds. -/
def fCmp (c : Cond) (a b : FVal) : Bool :=
  if a.isNan || b.isNan then decide (c = .ne)
  else
    let lt := fLt false a b
    let gt := fLt false b a
    match c with
    | .eq => !lt && !gt
    | .ne => lt || gt
    | .lt => lt
    | .le => !gt
    | .gt => gt
    | .ge => !lt

/-- The class word of VFCLASS (R262). -/
def fClass (x : Word) : Word :=
  let e := (x.toNat / 2 ^ 23) % 256
  match unpack .f32 x.toNat with
  | .nan => 0x100
  | .inf n => if n then 0x001 else 0x080
  | .fin n m _ =>
    if m = 0 then (if n then 0x008 else 0x010)
    else if e = 0 then (if n then 0x004 else 0x020)
    else (if n then 0x002 else 0x040)

/-- FTZ at an input (R76). -/
def ftzIn (ftz : Bool) (x : Word) : FVal :=
  match unpack .f32 x.toNat with
  | .fin n m e => if ftz && decide ((x.toNat / 2 ^ 23) % 256 = 0) then .fin n 0 e else .fin n m e
  | v => v

/-- FTZ at an input, as an encoding. -/
def ftzWord (ftz : Bool) (x : Word) : Word :=
  if ftz && decide ((x.toNat / 2 ^ 23) % 256 = 0) then x &&& 0x80000000 else x

/-- FTZ at an FP32 result (R76). -/
def ftzOut (ftz : Bool) (r : Rounded) : Word × Flags :=
  if ftz && r.tiny then (BitVec.ofNat 32 r.bits &&& 0x80000000, r.fl ||| flUnderflow ||| flInexact)
  else (BitVec.ofNat 32 r.bits, r.fl)

/-! Conversions (R80 to R83). -/

/-- The floating-point format of a type code; packed types give the format of a half. -/
def tyFmt : TyCode → Option Fmt
  | .f32 => some .f32
  | .f16 | .f16x2 => some .f16
  | .bf16 | .bf16x2 => some .bf16
  | .e4m3 => some .e4m3
  | .e5m2 => some .e5m2
  | _ => none

/-- Width and signedness of an integer type code (R71); 32 and signed for the others, which are not asked. -/
def tyInt : TyCode → Nat × Bool
  | .i32 => (32, true) | .n32 => (32, false) | .i16 => (16, true) | .n16 => (16, false)
  | .i8 => (8, true) | .n8 => (8, false) | .i64 => (64, true) | .n64 => (64, false)
  | _ => (32, true)

/-- Smallest value of an integer type. -/
def intMin (t : Nat × Bool) : Int := if t.2 then -(2 ^ (t.1 - 1) : Nat) else 0
/-- Largest value of an integer type. -/
def intMax (t : Nat × Bool) : Int := if t.2 then (2 ^ (t.1 - 1) : Nat) - 1 else (2 ^ t.1 : Nat) - 1
/-- A value clamped to an integer type. -/
def clampInt (t : Nat × Bool) (v : Int) : Int := max (intMin t) (min (intMax t) v)

/-- Floating point to integer (R82). -/
def toInt (t : Nat × Bool) (mode : RMode) (x : FVal) : Int × Flags :=
  match rndIntegral mode x with
  | (.nan, _) => (0, flInvalid)
  | (.inf n, _) => (if n then intMin t else intMax t, flInvalid)
  | (.fin n m e, ch) =>
    if m = 0 then (0, if ch then flInexact else 0)
    else if (128 : Int) < e then (if n then intMin t else intMax t, flInvalid)
    else
      let k : Nat := m * 2 ^ e.toNat
      let v : Int := if n then -(k : Int) else k
      if v < intMin t ∨ intMax t < v then (clampInt t v, flInvalid) else (v, if ch then flInexact else 0)

/-- A value converted to a floating-point format (R80, R81). -/
def toFmt (f : Fmt) (mode : RMode) (sat : Bool) : FVal → Rounded
  | .nan => f.mkNan 0
  | .inf n => roundSum f mode sat (.inf n)
  | .fin n m e => roundTo f mode sat ⟨n, m, e, false⟩

/-- An integer as a value. -/
def intVal (v : Int) : FVal := .fin (decide (v < 0)) v.natAbs 0

/-- The codebook of R72, in units of 1/64. -/
def q16Units (q : Nat) : Int :=
  match q with
  | 0 => -64 | 1 => -45 | 2 => -34 | 3 => -26 | 4 => -19 | 5 => -12 | 6 => -6 | 7 => 0
  | 8 => 5 | 9 => 10 | 10 => 16 | 11 => 22 | 12 => 29 | 13 => 37 | 14 => 47 | _ => 64

/-- The value of a Q16 index (R72). -/
def q16Val (q : Nat) : FVal := .fin (decide (q16Units q < 0)) (q16Units q).natAbs (-6)

/-- The source element of VCVT as a value, and as an integer where the source is one (R265). -/
def cvtSource (s : TyCode) (hi : Bool) (ftz : Bool) (x : Word) : FVal × Option Int :=
  match s with
  | .q16 => (q16Val (x.toNat % 16), none)
  | .f32 => (ftzIn ftz x, none)
  | .f16x2 => (unpack .f16 (if hi then x.toNat / 65536 else x.toNat % 65536), none)
  | .bf16x2 => (unpack .bf16 (if hi then x.toNat / 65536 else x.toNat % 65536), none)
  | .f16 => (unpack .f16 (x.toNat % 65536), none)
  | .bf16 => (unpack .bf16 (x.toNat % 65536), none)
  | .e4m3 => (unpack .e4m3 (x.toNat % 256), none)
  | .e5m2 => (unpack .e5m2 (x.toNat % 256), none)
  | t =>
    let (w, sg) := tyInt t
    let n := x.toNat % 2 ^ w
    let v : Int := if sg && decide (2 ^ (w - 1) ≤ n) then (n : Int) - (2 ^ w : Nat) else n
    (intVal v, some v)

/-- A narrow result in the low bits of a lane (R265): an integer is extended by its sign, others by zeros. -/
def placeInt (v : Int) (t : Nat × Bool) : Word :=
  let n := (v % (2 ^ t.1 : Nat)).toNat
  if t.2 then (BitVec.ofNat t.1 n).signExtend 32 else BitVec.ofNat 32 n

/-- A value or integer converted to the destination type (R264, R265); a packed destination keeps the other half of
old. -/
def cvtTo (d : TyCode) (hi : Bool) (mode : RMode) (sat ftz : Bool) (v : FVal) (iv : Option Int) (old : Word) :
    Word × Flags :=
  match tyFmt d with
  | some .f32 => ftzOut ftz (toFmt .f32 mode sat v)
  | some f =>
    let r := toFmt f mode sat v
    if d.packed then
      (if hi then BitVec.ofNat 16 r.bits ++ old.extractLsb' 0 16 else old.extractLsb' 16 16 ++ BitVec.ofNat 16 r.bits, r.fl)
    else (BitVec.ofNat 32 r.bits, r.fl)
  | none =>
    let t := tyInt d
    match iv with
    | some i => (placeInt (if sat then clampInt t i else i) t, 0)
    | none => let (i, fl) := toInt t mode v; (placeInt i t, fl)

/-- VCVTS of one lane (R266): the exact product of vA and c, rounded once. -/
def cvtScaled (d : TyCode) (mode : RMode) (sat ftz : Bool) (x c : Word) : Word × Flags :=
  let (p, bad) := mulVal (ftzIn ftz x) (ftzIn ftz c)
  let (w, fl) := cvtTo d false mode sat ftz p none 0
  (w, if bad then flInvalid else fl)

/-! Arithmetic on packed halves (R263) and the operations of reductions (R92 to R95, R180). -/

/-- A function of halves on both halves of a lane; the flags are ORed (R71). -/
def halves (g : Nat → Nat → Nat → Rounded) (a b d : Word) : Word × Flags :=
  let lo := g (a.toNat % 65536) (b.toNat % 65536) (d.toNat % 65536)
  let hi := g (a.toNat / 65536) (b.toNat / 65536) (d.toNat / 65536)
  (BitVec.ofNat 16 hi.bits ++ BitVec.ofNat 16 lo.bits, lo.fl ||| hi.fl)

/-- The sum of two FP32 words rounded RNE. -/
def addF32 (x y : Word) : Word × Flags :=
  let r := fAdd .f32 .rne (unpack .f32 x.toNat) (unpack .f32 y.toNat)
  (BitVec.ofNat 32 r.bits, r.fl)

/-- The sum of two packed BF16 words, each half rounded RNE. -/
def addBf16x2 (x y : Word) : Word × Flags :=
  halves (fun a b _ => fAdd .bf16 .rne (unpack .bf16 a) (unpack .bf16 b)) x y 0

/-- One combination of VRED and VSCAN (R92, R95). DEDUCED: log entry 28. -/
def redOp (p : RedOp) (y : RedTy) (a b : Word) : Word × Flags :=
  match p, y with
  | .add, .i32 | .add, .n32 => (a + b, 0)
  | .add, .f32 => addF32 a b
  | .add, .bf16x2 => addBf16x2 a b
  | .min, .i32 => (if b.slt a then b else a, 0)
  | .max, .i32 => (if a.slt b then b else a, 0)
  | .min, .n32 => (if b.ult a then b else a, 0)
  | .max, .n32 => (if a.ult b then b else a, 0)
  | .min, _ => (BitVec.ofNat 32 (fMin .f32 a.toNat b.toNat), 0)
  | .max, _ => (BitVec.ofNat 32 (fMax .f32 a.toNat b.toNat), 0)

/-- The identity of an inactive lane (R94). -/
def redIdentity (p : RedOp) (y : RedTy) : Word :=
  match p, y with
  | .add, .f32 => 0x80000000
  | .add, .bf16x2 => 0x80008000
  | .add, _ => 0
  | .min, .i32 => 0x7FFFFFFF
  | .min, .n32 => 0xFFFFFFFF
  | .min, _ => 0x7F800000
  | .max, .i32 => 0x80000000
  | .max, .n32 => 0
  | .max, _ => 0xFF800000

/-- One word of SRED, NRED and RATOM-like updates (R180). -/
def sredOp (p : SredOp) (x y : Word) : Word :=
  match p with
  | .addF32 => (addF32 x y).1
  | .addBf16x2 => (addBf16x2 x y).1
  | .addI32 => x + y
  | .minF32 => BitVec.ofNat 32 (fMin .f32 x.toNat y.toNat)
  | .maxF32 => BitVec.ofNat 32 (fMax .f32 x.toNat y.toNat)
  | .minI32 => if y.slt x then y else x
  | .maxI32 => if x.slt y then y else x

/-- One step of an atomic (R240): new from old, the operand and the compare value. -/
def atomNew (p : AtomOp) (old b c : Word) : Word :=
  match p with
  | .addI32 => old + b
  | .addF32 => (addF32 old b).1
  | .minI32 => if b.slt old then b else old
  | .maxI32 => if old.slt b then b else old
  | .and => old &&& b
  | .or => old ||| b
  | .xchg => b
  | .cas => if old = c then b else old

end Sys2Proof.Machine
end

