-- ==== Sys2Proof/Machine/Memory.lean ====
section
/-! DEFINITION. Memory as one list of cells in canonical form, and the places of the machine's memories in it
(R104, R121, R132). -/
namespace Sys2Proof.Machine

/-- Every memory of the machine in one list of cells: keys strictly rising, no cell equal to what an unlisted key reads
as, which is 0 (R136 for the scratch levels; DESIGN CHOICE, log entry 1 for the others). -/
abbrev Memory := List Host.Cell

/-- What a key that is not listed reads as (DESIGN CHOICE, log entry 1). -/
def memDefault : Byte := 0

/-- The byte at a key. -/
def memGet : Memory → Nat → Byte
  | [], _ => memDefault
  | (a, b) :: m, k => if k = a then b else if k < a then memDefault else memGet m k

/-- The memory with one byte written; the canonical form is kept. -/
def memSet : Memory → Nat → Byte → Memory
  | [], k, v => if v = memDefault then [] else [(k, v)]
  | (a, b) :: m, k, v =>
    if k < a then (if v = memDefault then (a, b) :: m else (k, v) :: (a, b) :: m)
    else if k = a then (if v = memDefault then m else (k, v) :: m)
    else (a, b) :: memSet m k v

/-- n bytes from a key on. -/
def memRead (m : Memory) (k : Nat) : Nat → List Byte
  | 0 => []
  | n + 1 => memGet m k :: memRead m (k + 1) n

/-- The memory with the bytes written from a key on. -/
def memWrite (m : Memory) (k : Nat) : List Byte → Memory
  | [] => m
  | b :: bs => memWrite (memSet m k b) (k + 1) bs

/-- Every key of a memory lies above a bound and the canonical form holds. -/
def memWfFrom : Option Nat → Memory → Bool
  | _, [] => true
  | none, (a, b) :: m => b != memDefault && memWfFrom (some a) m
  | some l, (a, b) :: m => decide (l < a) && b != memDefault && memWfFrom (some a) m

/-- The canonical form. -/
def Memory.wf (m : Memory) : Bool := memWfFrom none m

/-- The little-endian word of four bytes at a key (R4). -/
def memWord (m : Memory) (k : Nat) : BitVec 32 := BitVec.ofNat 32 (leNat (memRead m k 4))
/-- The little-endian doubleword of eight bytes at a key (R4). -/
def memDword (m : Memory) (k : Nat) : BitVec 64 := BitVec.ofNat 64 (leNat (memRead m k 8))

/-! Where each memory lies in the list. The ranges do not overlap. -/

/-- Main memory: the physical address itself (R104). -/
def hbmKey (pa : Nat) : Nat := pa
/-- Side memory of core c, 1 MiB each (R132). -/
def sideKey (c off : Nat) : Nat := 2 ^ 44 + c * 2 ^ 20 + off
/-- Cluster memory of cluster c, 4 MiB each (R132). -/
def clusterKey (c off : Nat) : Nat := 2 ^ 45 + c * 2 ^ 22 + off
/-- Die memory of die d, 64 MiB each (R132). -/
def dieKey (d off : Nat) : Nat := 2 ^ 46 + d * 2 ^ 26 + off
/-- Firmware memory of the monitor of core c (R405). -/
def monitorKey (c off : Nat) : Nat := 2 ^ 47 + c * 2 ^ 16 + off
/-- The mailbox buffer, 8 KiB (R477). -/
def mailboxKey (off : Nat) : Nat := 2 ^ 48 + off
/-- The firmware staging area, 4 MiB (R478). DEDUCED: log entry 70. -/
def stagingKey (off : Nat) : Nat := 2 ^ 49 + off
/-- The firmware flash: image i at 4 MiB steps (R478). -/
def flashKey (i off : Nat) : Nat := 2 ^ 50 + i * 2 ^ 22 + off
/-- Host memory behind tag 100 (R121, R433). -/
def hostKey (a : Nat) : Nat := 2 ^ 53 + a

end Sys2Proof.Machine
end

