-- ==== Sys2Proof/Machine/RowState.lean ====
section
/-! DEFINITION. The state of one logical row (R19, R213, R279) and of the commands it issues (R146, R162). -/
namespace Sys2Proof.Machine

/-- One vector register: 32 bits per lane (R19). -/
abbrev Lanes := Vector Word 64
/-- One port entry, or the W latch: 64 bits per lane (R12, R18). -/
abbrev Entry := Vector Dword 64

/-- The clock domains (R6). -/
inductive Dom
  | m | v | n | h
  deriving DecidableEq, Repr

/-- The payloads of hint words not yet consumed (R48). -/
structure Hints where
  imx1 : Option (BitVec 24) := none
  imx2 : Option (BitVec 24) := none
  rep : Option (BitVec 24) := none
  modp : Option (BitVec 24) := none
  schd : Option (BitVec 24) := none
  deriving DecidableEq, Repr

/-- One entry of the mask stack (R271). -/
structure MaskEntry where
  isLoop : Bool
  elseDone : Bool
  saved : Mask
  pend : Mask
  deriving DecidableEq, Repr

/-- The registers of a row (R19, R40). m holds m0 at index 0, the divergence mask; a set bit of sfull or vfull means
full, a set bit of sbad a parity error not yet read, and vbad the lanes of each vector register that hold one (R404). -/
structure Regs where
  s : Vector Dword 32
  v : Vector Lanes 28
  m : Vector Mask 8
  sfull : BitVec 32
  vfull : BitVec 32
  sbad : BitVec 32
  vbad : Vector Mask 28
  deriving DecidableEq, Repr

/-- Floating-point state and the matrix exception record (R76, R77, R87, R96, R98). -/
structure FpState where
  flags : Flags
  pend : Bool
  en : BitVec 5
  rmode : BitVec 2
  ftz : Bool
  mi : Bool
  mo : Bool
  deriving DecidableEq, Repr

/-- One lane of a remote write or of an update (R238, R240): a core offset of the target core and what is done there.
An op of none is a store of b. -/
structure RemoteLane where
  off : Nat
  targ : Dword
  op : Option AtomOp
  b : Word
  c : Word
  deriving DecidableEq, Repr

/-- A step of a returning atomic not yet made (R240): its lane, its target core and band, and what is done there. -/
structure AtomStep where
  lane : Nat
  core : CoreId
  band : Nat
  what : RemoteLane
  deriving DecidableEq, Repr

/-- The destination and value of a pending producer (R221). -/
inductive ProdDest
  | vec (d : Reg) (lanes : Mask) (val : Lanes)
  | sca (d : Reg) (val : Dword)
  deriving DecidableEq, Repr

/-- A long-latency instruction issued and not complete (R222): whether it can raise a flag (R99), the flags it raises and
whether it folds MI and MO at completion (R100), the TARG of a PARITY trap it reports (R403), and the steps of an atomic
still to be made, in order (R240). -/
structure Producer where
  dest : ProdDest
  raises : Bool := false
  fl : Flags := 0
  fold : Bool := false
  parity : Option Dword := none
  todo : List AtomStep := []
  deriving DecidableEq, Repr

/-- A posted remote write, not yet performed: its target core and band (R239). -/
structure Posted where
  core : CoreId
  band : Nat
  lanes : List RemoteLane
  deriving DecidableEq, Repr

/-- What a trap leaves (R400, R401), with the trapping word and CYCLE of its core when it was taken (R399). -/
structure TrapRec where
  cause : Byte
  detail : Byte
  code : BitVec 14
  targ : Dword
  word : Word
  cycle : Dword
  deriving DecidableEq, Repr

/-- Why a row waits: the stall reason of R449, the domain of R394 and the pulses counted so far (R395). -/
structure WaitRec where
  reason : Nat
  dom : Dom
  count : Nat
  deriving DecidableEq, Repr

/-- The north port of a row: the entries it holds, head first, those in transit to it, its flags (R224, R302), and the
places of the entries that hold a parity error (R404). -/
structure NorthPort where
  fifo : List Entry
  transit : List Entry
  isOpen : Bool
  closed : Bool
  bad : List Nat := []
  deriving DecidableEq, Repr

/-- The south port of a row: the consuming row, the entries that may lie between the two rows, 8 or 16 across the
selvedge (R302), and its flags (R224). -/
structure SouthPort where
  dest : Option RowId
  cap : Nat
  isOpen : Bool
  orphan : Bool
  deriving DecidableEq, Repr

/-- The four streams (R280). -/
inductive StreamKind
  | mma | mmas | mwf | mwb
  deriving DecidableEq, Repr

/-- A stream running or queued (R281, R291, R322, R326): its instruction word and MOD payload, the grant and operands
captured at issue, its active lanes, the masks of an MMAS, the next step, its remaining cost, and the words of a partly
filled vector of an MWB (R297). -/
structure Stream where
  kind : StreamKind
  word : Word
  modp : BitVec 24
  zp : Bool
  grant : Dword
  base : Nat
  stride : Nat
  lanes : Mask
  card : Dword
  masks : List Nat
  cardBytes : List Byte
  step : Nat
  remaining : Nat
  part : List Word
  starved : Bool
  deriving DecidableEq, Repr

/-- An MSCA in progress: its operands, captured at issue (R307). -/
structure MscaOp where
  lanes : Mask
  rs : Word
  ls : Lanes
  deriving DecidableEq, Repr

/-- The matrix unit of a row (R279). fly holds the bytes of each MLAT and MGAT not yet in the latch (R290); mwl the
lanes and values of each MWL not yet arrived (R295); pbad, abad and wbad the lanes of P, A and W with a parity error,
latchBad and rqBad the places of the latch bytes and of the vectors of RQ that hold one (R404). -/
structure Matrix where
  p : Lanes
  a : Lanes
  w : Entry
  latch : List Byte
  fly : List (List Byte)
  rq : List Lanes
  shape : Dword
  running : Option Stream
  queued : Option Stream
  msca : Option MscaOp
  mwl : List (Mask × Entry)
  pbad : Mask
  abad : Mask
  wbad : Mask
  latchBad : List Nat := []
  rqBad : List Nat := []
  deriving DecidableEq, Repr

/-- One batch, or the open commands, of a class (R162, R166): pending commands not retired, commands in all, failing
ones, the fault summary, and the first failing command as (position, status, address). -/
structure BatchRec where
  num : Nat
  pending : Nat
  ncmd : Nat
  nfail : Nat
  sum : Byte
  first : Option (Nat × Byte × Dword)
  complete : Bool
  deriving DecidableEq, Repr

/-- The batches of one class of a row: the counter, the open commands, the sealed and complete batches not expired in
ascending order, and the lowest batch number not yet covered by a WAIT (R162, R165). -/
structure ClassState where
  counter : Nat
  openB : BatchRec
  batches : List BatchRec
  covered : Nat
  deriving DecidableEq, Repr

/-- A row waiting at a barrier: its token (R374), the generations of the slots a BWANY names, and the result once the
phase has completed or the generation has changed. -/
structure BarWait where
  token : Dword
  gens : List (BitVec 16)
  gbar : Bool
  result : Option Dword
  deriving DecidableEq, Repr

/-- An LNCH waiting for the distributor (R277): the block it read and its queue. -/
structure LnchOp where
  block : List Byte
  queue : BitVec 4
  deriving DecidableEq, Repr

/-- An EVSIG waiting for its update (R278). -/
structure EvsigOp where
  slot : Dword
  v : Dword
  set : Bool
  deriving DecidableEq, Repr

/-- Whether a row's band is still being staged, runs, or has exited with streams or producers left (R143, R269, R301). -/
inductive RowStatus
  | staging | running | exited
  deriving DecidableEq, Repr

/-- State of a row that concerns its scheduling and its neighbours in time: what it waits for, what is due at its next
boundary or at the next instruction that waits on its stream, and what holds it (R298, R385, R403, R406, R446). hnDue
holds the bits of PACEEV for the H and N changes applied since the row's last boundary point (R387, R390). stall is the stall reason that the sampler
finds for the row (R449), gather the operand reads gathered for its next instruction and the V-cycle in which it was last
chosen for more, (0, 0) where none are being gathered (R392). -/
structure RowCtl where
  wait : Option WaitRec
  trap : Option TrapRec
  barrier : Option BarWait
  lnch : Option LnchOp
  evsig : Option EvsigOp
  closedDue : Bool
  streamParity : Option (Byte × Dword)
  parityDue : Option (Byte × Dword)
  exempt : Bool
  debugHeld : Bool
  yieldLeft : Nat
  stamp : Nat
  stall : Nat
  gather : Nat × Nat
  hnDue : BitVec 5
  deriving DecidableEq, Repr

/-- The special registers of a row that are not computed from its place (R215). -/
structure Csrs where
  wid : Dword
  paceg : Dword
  paceev : BitVec 5
  wdlim : Dword
  bslot : BitVec 6
  blast : Byte
  bwany : BitVec 3
  deriving DecidableEq, Repr

/-- A logical row (R213). ibuf is the word fetched for the PC and not yet issued. DEDUCED: log entry 4. -/
structure Row where
  band : Nat
  inBand : BitVec 7
  status : RowStatus
  pc : Dword
  ibuf : Option Word
  regs : Regs
  hints : Hints
  repix : BitVec 6
  stack : List MaskEntry
  fp : FpState
  csr : Csrs
  north : NorthPort
  south : SouthPort
  mx : Matrix
  prods : List Producer
  posted : List Posted
  cls : Vector ClassState 5
  ctl : RowCtl
  deriving DecidableEq, Repr

/-- A register of zeros in every lane. -/
def zeroLanes : Lanes := Vector.replicate 64 0
/-- An entry of zeros in every lane. -/
def zeroEntry : Entry := Vector.replicate 64 0

/-- An empty batch. -/
def emptyBatch (n : Nat) (c : Bool) : BatchRec := ⟨n, 0, 0, 0, 0, none, c⟩
/-- The batches of a class at row start: batch 0, empty and complete (R162). -/
def ClassState.start : ClassState := ⟨0, emptyBatch 0 false, [emptyBatch 0 true], 1⟩

/-- The matrix unit at row start (R279). -/
def Matrix.start : Matrix := ⟨zeroLanes, zeroLanes, zeroEntry, [], [], [], 0, none, none, none, [], 0, 0, 0, [], []⟩

/-- Nothing awaited, due or held. -/
def RowCtl.start : RowCtl := ⟨none, none, none, none, none, false, none, none, false, false, 0, 0, 15, (0, 0), 0⟩

end Sys2Proof.Machine
end

