-- ==== Sys2Proof/Machine/DeviceState.lean ====
section
/-! DEFINITION. The state outside the rows: bands, launches, engine commands, cores, clusters, dies, the package and its
management space (R15 to R17, R106 to R129, R146 to R194, R352 to R389, R405, R416 to R454, R473 to R484). -/
namespace Sys2Proof.Machine

/-! ### Engine commands -/

/-- Who issued a command: a row of a band, or the staging of a region (R143). -/
inductive CmdSrc
  | row (r : RowId)
  | staging (region : Nat)
  deriving DecidableEq, Repr

/-- A range held in a scoreboard (R160): core, destination or source, and core offsets lo to hi - 1. -/
structure SbRange where
  core : CoreId
  dst : Bool
  lo : Nat
  hi : Nat
  deriving DecidableEq, Repr

/-- A combined update of an SRED (R181): element address, and the words to combine. -/
structure SredGroup where
  addr : Dword
  p : Nat
  words : List Word
  deriving DecidableEq, Repr

/-- An engine command in flight (R146, R147): the instruction, its issuer, the operands captured at issue, the slot
generation captured (R152), the batch it is sealed into, the units (lines, elements or groups) completed, and the failed
ones as (order, status, address). -/
structure Cmd where
  id : Nat
  instr : Instr
  src : CmdSrc
  band : Nat
  launch : Nat
  core : CoreId
  cls : BClass
  pos : Nat
  ticket : Dword
  ops : List Dword
  b : Dword
  idx : List Nat
  gen : BitVec 16
  batch : Option Nat
  done : List Nat
  fails : List (Nat × Byte × Dword)
  sb : List SbRange
  groups : List SredGroup
  combined : Bool
  sent : List Nat
  timer : Nat
  deriving DecidableEq, Repr

/-- A byte that an engine command has written: the command, the key, what stood there before, what it wrote (R148). -/
structure WriteNote where
  cmd : Nat
  key : Nat
  old : Byte
  new : Byte
  deriving DecidableEq, Repr

/-! ### Bands and launches -/

/-- The steps of a pre-emption (R417, R427): requested, saved and held reserved, or restored while another band of its
chain is not. -/
inductive PreemptPhase
  | requested | saved | restored
  deriving DecidableEq, Repr

/-- A walk that a pre-emption stopped: its command, PC, instruction count, registers and discarded credit (R418). -/
structure SavedWalk where
  cmd : Nat
  pc : Nat
  count : Nat
  w : Vector Dword 16
  stale : Bool
  deriving DecidableEq, Repr

/-- A placed band (R137, R217, R357 to R361). held, heldCmds and heldStale keep what stood in a saved band at its save: its
save area takes precedence over them when it is restored (DESIGN CHOICE, log entry 30). hostHeld says that a PREEMPT of the
mailbox requested its pre-emption and RESUME has not restored it (R479). saveLen is the size of the save area, savedAt the place
of the save among those of the bands; freed keeps the rows whose lease entries have been freed (R360), as a save records them
(R423, R424). -/
structure Band where
  id : Nat
  launch : Nat
  skein : Nat
  bandIx : Nat
  nb : Nat
  core : CoreId
  pane : BitVec 2
  row0 : Nat
  height : Nat
  laneW : Nat
  wbase : Nat
  wsize : Nat
  wid0 : Dword
  lead : Nat
  parks : List Nat
  chain : Option Nat
  parent : Option Nat
  serial : BitVec 32
  pacereq : Dword
  region : Nat
  staged : Bool
  age : Nat
  preempt : Option PreemptPhase
  saveArea : Option Nat
  held : List (RowId × Row)
  heldCmds : List Cmd
  heldStale : Bool
  killed : Bool
  hostHeld : Bool := false
  saveLen : Nat := 0
  savedAt : Nat := 0
  freed : List (RowId × Row) := []
  deriving DecidableEq, Repr

/-- A run of rows reserved for a waiting skein (R364): core, pane, first row, height, window base and size. -/
structure ReservedRun where
  core : CoreId
  pane : BitVec 2
  row0 : Nat
  height : Nat
  wbase : Nat
  wsize : Nat
  deriving DecidableEq, Repr

/-- An accepted launch (R355 to R358): its block of 32 doublewords, its copies of the tables, the next skein, its GBAR
sequence, the waiting time of R364, and its reservation. -/
structure Launch where
  id : Nat
  queue : BitVec 4
  entry : Nat
  order : Nat
  block : List Dword
  pcs : List Dword
  args : List Dword
  regions : List (List Dword)
  nextSkein : Nat
  gbarSeq : BitVec 32
  gbarOut : List (DieId × Nat)
  waited : Nat
  reserved : List ReservedRun
  ended : Bool
  deriving DecidableEq, Repr

/-- A parked continuation (R367). -/
structure Continuation where
  id : Nat
  launch : Nat
  band : Nat
  core : CoreId
  laneW : Nat
  pc : Dword
  s : Vector Dword 32
  wid : Dword
  park : Bool
  slot : BitVec 6
  gen : BitVec 16
  phase : BitVec 32
  result : Option Byte
  deriving DecidableEq, Repr

/-! ### Cores -/

/-- The modes of a core monitor (R405, R407). -/
inductive MonMode
  | idle | handler | privileged
  deriving DecidableEq, Repr

/-- A core monitor (R405 to R408). -/
structure Monitor where
  mode : MonMode
  pc : Dword
  s : Vector Dword 32
  imx1 : Option (BitVec 24)
  imx2 : Option (BitVec 24)
  count : Nat
  row : Option RowId
  deriving DecidableEq, Repr

/-- The debug block of a core (R445, R447, R448). -/
structure Debug where
  bpaddr : Vector Dword 8
  bpctl : Vector Dword 8
  bplo : Vector Dword 8
  bphi : Vector Dword 8
  wpaddr : Vector Dword 4
  wpctl : Vector Dword 4
  dclaim : Dword
  dsel : Dword
  dcmd : Option (BitVec 2)
  ddata : Dword
  rej : Bool
  deriving DecidableEq, Repr

/-- What a pane of a partition has used of a V-cycle: the stamp of that cycle, its issue slots, and its operand reads (R369,
R392). -/
structure SlotUse where
  stamp : Nat
  slots : Nat
  reads : Nat
  deriving DecidableEq, Repr

/-- A core (R17): its cycle counters, its monitor, the trapped rows in trap order, its debug block, the sampler position
and the lane width of each partition, the rows that wait to enter the walker queue, in order (R192), and
what pane p of partition q has used of a V-cycle, at place 4 q + p (R369, R392). -/
structure Core where
  cycle : Dword
  mcycle : Dword
  mon : Monitor
  trapQ : List RowId
  dbg : Debug
  sampler : Vector Nat 6
  partW : Vector Nat 6
  walkQ : List RowId
  slotUse : Vector SlotUse 24
  deriving DecidableEq, Repr

/-! ### Clusters -/

/-- A barrier slot (R371). -/
structure Slot where
  owner : Option Nat
  gen : BitVec 16
  exp : BitVec 16
  txexp : BitVec 48
  ra : BitVec 16
  rb : Int
  phase : BitVec 32
  fstat : Byte
  deriving DecidableEq, Repr

/-- A line of the walker's read buffer (R188, R189). -/
structure WalkLine where
  addr : Dword
  data : List Byte
  deriving DecidableEq, Repr

/-- An emission in flight (R206): its shape, the bytes it credits when done, and the PC and element register of the
instruction that started it. src is none for EMITZ. -/
structure Emission where
  id : Nat
  dst : Dword
  src : Option Dword
  rows : Nat
  bytes : Nat
  drs : Nat
  srs : Nat
  credit : Nat
  pc : Nat
  elem : Dword
  deriving DecidableEq, Repr

/-- Why a walker stops (R194, R195): cause, status, PC, element index and address. -/
structure WalkStop where
  cause : Byte
  status : Byte
  pc : Nat
  elem : Dword
  addr : Dword
  deriving DecidableEq, Repr

/-- The format walker of a cluster (R186 to R195). cmd is the running command, queue the waiting ones; prog and tag are
the loaded image with its ASID, program address and length; buf is the read buffer, most recently used line first;
fetches are the lines awaited, each with the address of the LD that waits for it; stale records a discarded credit; resume holds walks to
be continued (R418). -/
structure Walker where
  cmd : Option Nat
  queue : List Nat
  w : Vector Dword 16
  prog : List Word
  tag : Option (BitVec 6 × Dword × Nat)
  pc : Nat
  count : Nat
  buf : List WalkLine
  fetches : List (Dword × Option Dword)
  emis : List Emission
  nextEm : Nat
  stale : Bool
  stop : Option WalkStop
  resume : List SavedWalk
  deriving DecidableEq, Repr

/-- A fused operating point (R380): M, V, rail in millivolts, power in milliwatts. -/
structure FusedPoint where
  m : Nat
  v : Nat
  mv : Nat
  mw : Nat
  deriving DecidableEq, Repr

/-- The pace of a cluster (R379 to R388, R392, R393): the grant and its rail, the pending change and its V-cycles, the share
in milliwatts as a quotient, and the decision taken while a switch is made. -/
structure Pace where
  m : Nat
  v : Nat
  mv : Nat
  seq : BitVec 32
  pending : Option (Nat × Nat)
  pendCount : Nat
  switching : Bool
  shareNum : Nat
  shareDen : Nat
  ration : Nat
  skip : Nat
  overcurrent : Bool
  fuses : List FusedPoint
  next : Option (Nat × Nat) := none
  deriving DecidableEq, Repr

/-- A cluster (R17, R371, R375). -/
structure Cluster where
  slots : Vector Slot 64
  stale : List (Nat × BitVec 16)
  walker : Walker
  pace : Pace
  deriving DecidableEq, Repr

/-! ### Dies, stacks and channels -/

/-- A die: its H grant and pending H, its trace registers (R379, R450, R451). -/
structure Die where
  h : Nat
  pendingH : Option Nat
  trEn : Bool
  trSmp : Bool
  trSi : BitVec 5
  trWr : BitVec 32
  trRd : BitVec 32
  trDrop : Dword
  trLost : Nat
  trSeq : BitVec 32
  deriving DecidableEq, Repr

/-- An HBM channel (R107 to R110, R116). -/
structure Channel where
  cecnt : BitVec 16
  rpcnt : BitVec 8
  uecnt : BitVec 4
  rtfail : Bool
  failed : Bool
  trained : Bool
  retraining : Bool
  replays : Nat
  deriving DecidableEq, Repr

/-- A stack's temperature state (R117). -/
structure Stack where
  high : Bool
  critical : Bool
  deriving DecidableEq, Repr

/-- A cached translation (R128): ASID, page size as a number of bits, page number, and the leaf entry. -/
structure Translation where
  asid : BitVec 6
  bits : Nat
  page : Nat
  leaf : Dword
  deriving DecidableEq, Repr

/-- An L1 to L3 entry in a walker's cache (R128). -/
structure TableEntry where
  die : Option DieId
  asid : BitVec 6
  level : Nat
  page : Nat
  entry : Dword
  deriving DecidableEq, Repr

/-! ### The package -/

/-- The freeze of R118 to R119. -/
inductive FreezePhase
  | none | draining | gated | released
  deriving DecidableEq, Repr

/-- A launch queue (R352). head holds the distributor's copy of the head block and whether the last read of its wait
slots failed (R354). -/
structure LaunchQueue where
  base : BitVec 32
  size : BitVec 4
  cls : BitVec 2
  en : Bool
  head : BitVec 12
  tail : BitVec 12
  err0 : Dword
  err1 : Dword
  nerr : BitVec 32
  nacc : BitVec 32
  ready : Bool
  failing : Bool
  deriving DecidableEq, Repr

/-- A peer port or the treadle link: down until the next reset, and the consecutive CRC failures of the flit being sent
(R428, R434). -/
structure Link where
  down : Bool
  fails : Nat
  deriving DecidableEq, Repr

/-- A message on the way to a peer (R436 to R442). -/
inductive PeerMsg
  | access (dev : BitVec 12) (cmd : Nat) (line : Nat) (acc : PeerAccess)
  | ack (dev : BitVec 12) (st : Byte) (data : List Byte)
  | contribution (dev : BitVec 12) (group : Nat) (tag : BitVec 16) (p : SredOp) (v : List Word) (nf : BitVec 2) (bad : Bool)
  | forward (dev : BitVec 12) (port : BitVec 4) (data : List Byte)
  deriving DecidableEq, Repr

/-- What an NRED command has received (R442). -/
structure NredState where
  cmd : Nat
  child0 : Option (List Word × BitVec 2 × Bool)
  child1 : Option (List Word × BitVec 2 × Bool)
  sentUp : Bool
  deriving DecidableEq, Repr

/-- A host access held during a freeze, with WINBASE as it stood when the access arrived (R120, R430, R432). -/
inductive HeldAccess
  | read (a : HostAddr) (n : Nat) (win : BitVec 4)
  | write (a : HostAddr) (data : List Byte) (win : BitVec 4)
  deriving DecidableEq, Repr

/-- A completion the host has received: data, or none for Completer Abort (R431, R432). -/
abbrev HostReply := Option (List Byte)

/-- A record of the management log: its eight doublewords (R484). -/
abbrev LogRec := List Dword

/-- Registers of the management space that belong to translation, context and security (R125, R129, R422, R430, R452).
invalidating holds XINVA and XINVC of an invalidation in progress. -/
structure MgmtRegs where
  roots : Vector Dword 64
  xinva : Dword
  xinvc : Dword
  invalidating : Option (Dword × Dword)
  ctxpool : Dword
  winbase : BitVec 4
  holdlim : BitVec 6
  nabort : BitVec 32
  dbgen : Bool
  deriving DecidableEq, Repr

/-- The network registers and the peers (R434, R435, R441). -/
structure Network where
  devid : BitVec 12
  lock : Bool
  peerEn : Bool
  peerAsid : BitVec 6
  nrto : BitVec 5
  route : List (Nat × BitVec 4)
  grp0 : Vector Dword 16
  grp1 : Vector Dword 16
  ports : Vector Link 12
  out : List PeerMsg
  nred : List NredState
  deriving DecidableEq, Repr

/-- The management and security processor (R452 to R454, R473 to R484). step 0 says that the rails have been removed
(R474). mbDone says that the running mailbox command has its reply and awaits MAILBOX_REPLY; mbWork names the launch and
the units of a PREEMPT or RESUME in progress. msix, replies and aer are what the host has received: interrupts, completions,
and the uncorrectable internal errors that the adapter has reported (R428). measures holds the measurements of the images
verified at bring-up (R453), freezeAt the reference count at the start of the freeze (R484), roundDue an arbiter
round that a freeze has put off until the resume (R383, R478). -/
structure Mgmt where
  step : Nat
  bootState : BitVec 4
  nfailch : Nat
  cap : Nat
  mbcmd : Dword
  mbstat : Dword
  mbBusy : Bool
  mbDone : Bool
  mbWork : Option (Nat × List (List Nat))
  log : List LogRec
  resets : Nat
  refclk : Nat
  sigBlocks : Nat
  sigIndex : Nat
  sigFresh : Bool
  freezes : Nat
  msix : List Nat
  replies : List HostReply
  aer : Nat := 0
  measures : List (Vector Byte 32) := []
  freezeAt : Nat := 0
  roundDue : Bool := false
  deriving DecidableEq, Repr

end Sys2Proof.Machine
end

