-- ==== Sys2Proof/Machine/State.lean ====
section
/-! DEFINITION. The whole state of the machine, plain data, the reasons a step can stop, and the state after reset. -/
namespace Sys2Proof.Machine

/-- Who executes the instruction of the current step. DESIGN CHOICE: log entry 16. -/
inductive Agent
  | none
  | row (r : RowId)
  | monitor (g : CoreId)
  | walker (cl : ClusterId)
  deriving DecidableEq, Repr

/-- What comes next: an agent that executes its next instruction, an event of the opcode table, a delivery of clock
pulses (R6, R394, R396), or an input from outside that has no row in the table. DESIGN CHOICE: log entry 16. -/
inductive Turn
  /-- A partition of core g issues an instruction of one pane (R369). -/
  | slot (g : CoreId) (part : Nat) (pane : BitVec 2)
  /-- The monitor of core g executes a word (R405). -/
  | monitor (g : CoreId)
  /-- The walker of a cluster executes a word (R193). -/
  | walker (cl : ClusterId)
  /-- An event of the table happens. -/
  | event (i : Instr)
  /-- n M pulses are delivered in a cluster. -/
  | pulsesM (cl : ClusterId) (n : Nat)
  /-- n V pulses are delivered in a cluster. -/
  | pulsesV (cl : ClusterId) (n : Nat)
  /-- n H pulses are delivered in a die. -/
  | pulsesH (d : DieId) (n : Nat)
  /-- n N pulses are delivered. -/
  | pulsesN (n : Nat)
  /-- n cycles of the distributor's own clock pass (R364). -/
  | pulsesD (n : Nat)
  /-- n cycles of the 100 MHz reference pass (R484). -/
  | reference (n : Nat)
  /-- The network engine sends or performs line l of network command c (R438, R440). -/
  | netLine (c l : Nat)
  /-- Transfers across cross links and the link die fail after their retries from now on, or pass again (R131). -/
  | crossFail (b : Bool)
  /-- The firmware of core g is activated at a PC in privileged mode (R405). -/
  | firmware (g : CoreId) (pc : Dword)
  /-- An HBM line becomes uncorrectable, or correctable (R111, R112). -/
  | hbmError (line : Nat) (hard : Bool)
  /-- A word of a scratch memory, named by its place divided by 8, becomes uncorrectable (R403). -/
  | wordError (w : Nat)
  /-- A parity error arises in structure k of a row (R404): in register i where k is 0 or 1, in P, A or W (i 0, 1, 2)
  where k is 4, in item i of the port or of RQ where k is 2 or 5, in byte 64 i + lane of the latch where k is 3, and in a lane
  where the structure has lanes. -/
  | parityError (r : RowId) (k : Nat) (i : Reg) (lane : BitVec 6)
  /-- The next step of a returning atomic of a row is made (R240). -/
  | atomStep (r : RowId)
  /-- A row whose band is being pre-empted abandons an MPACK, MUNPK, QPACK or CARDCK that has written the bytes of its
  destinations in [lo, hi) of the window (R315). -/
  | abandon (r : RowId) (lo hi : Nat)
  deriving DecidableEq, Repr

/-- The distributor (R352, R355, R362). -/
structure Distributor where
  queues : Vector LaunchQueue 16
  rr : BitVec 2
  accepted : Nat
  deriving DecidableEq, Repr

/-- The state of the machine. notes keeps what engine commands in flight have written, newest first (R148; DEDUCED, log entry
90). tracePort is the die whose turn at the trace port comes next (R451). crossFail says that
transfers across cross links and the link die fail at present (R131; DESIGN CHOICE, log entry 59). agenda is the schedule
and the inputs from outside, not yet played; active is the agent of the current step; nextId names the next command, band,
launch or continuation (DESIGN CHOICE, log entry 16). -/
structure State where
  mem : Memory
  badLines : List Nat
  weakLines : List Nat
  badWords : List Nat
  rows : List (RowId × Row)
  bands : List Band
  launches : List Launch
  conts : List Continuation
  cmds : List Cmd
  notes : List WriteNote
  cores : Vector Core 256
  clusters : Vector Cluster 64
  dies : Vector Die 4
  hbmStacks : Vector Stack 12
  chans : Vector Channel 384
  scrub : Vector Nat 768
  tcache : List (CacheId × Translation)
  tables : List TableEntry
  freeze : FreezePhase
  heldHost : List HeldAccess
  n : Nat
  pendingN : Option Nat
  dist : Distributor
  regs : MgmtRegs
  net : Network
  treadle : Link
  tracePort : DieId
  crossFail : Bool
  mgmt : Mgmt
  agenda : List Turn
  active : Agent
  nextId : Nat
  deriving DecidableEq, Repr

/-- Why the machine stops. DESIGN CHOICE: log entry 20. -/
inductive Fault
  /-- Raised by a row, monitor or walker instruction when the active agent is not one that executes it, and by a row
  instruction whose row is not leased. Step never raises it: it is safe, no state of the hardware corresponds to it. -/
  | noActiveAgent
  /-- Raised by a core monitor in privileged mode on a word that R405 does not let it execute, or that R58 would reject, or at a PC
  outside its memory or off a multiple of 4: the manual gives firmware no behaviour there (DESIGN CHOICE, log entry 20). It is safe: nothing is said of what follows. -/
  | firmwareWord
  deriving DecidableEq, Repr

/-- Why an instruction has no meaning. -/
inductive Refusal
  /-- Raised by an arm of exec whose instruction has no meaning yet; safe. -/
  | notModelled (mnemonic : String)
  deriving DecidableEq, Repr

/-- A core at reset (R405, R445; DESIGN CHOICE, log entries 2, 5, 10). -/
def Core.reset : Core :=
  { cycle := 0
    mcycle := 0
    mon := ⟨.idle, 0, Vector.replicate 32 0, none, none, 0, none⟩
    trapQ := []
    dbg := ⟨Vector.replicate 8 0, Vector.replicate 8 0, Vector.replicate 8 0, Vector.replicate 8 0,
      Vector.replicate 4 0, Vector.replicate 4 0, 0, 0, none, 0, false⟩
    sampler := Vector.replicate 6 0
    partW := Vector.replicate 6 64
    walkQ := []
    slotUse := Vector.replicate 24 ⟨0, 0, 0⟩ }

/-- A slot at reset (R371; DESIGN CHOICE, log entry 6). -/
def Slot.reset : Slot := ⟨none, 0, 0, 0, 0, 0, 0, 0⟩

/-- A walker at reset (R186; DESIGN CHOICE, log entry 7). -/
def Walker.reset : Walker :=
  ⟨none, [], Vector.replicate 16 0, [], none, 0, 0, [], [], [], 0, false, none, []⟩

/-- The pace of a cluster before bring-up (DESIGN CHOICE, log entries 8, 9). -/
def Pace.reset : Pace :=
  ⟨13, 16, 800, 0, none, 0, false, 0, 0, 0, 0, false, [⟨13, 16, 800, 32000⟩], none⟩

/-- A cluster at reset. -/
def Cluster.reset : Cluster := ⟨Vector.replicate 64 Slot.reset, [], Walker.reset, Pace.reset⟩

/-- A die at reset (R450; DESIGN CHOICE, log entry 8). -/
def Die.reset : Die := ⟨10, none, false, false, 16, 0, 0, 0, 0, 0⟩

/-- A channel at reset (R116). -/
def Channel.reset : Channel := ⟨0, 0, 0, false, false, false, false, 0⟩

/-- A launch queue at reset (R352). -/
def LaunchQueue.reset : LaunchQueue := ⟨0, 0, 0, false, 0, 0, 0, 0, 0, 0, false, false⟩

/-- The registers of the management space at reset (R125, R129, R422, R430, R452). -/
def MgmtRegs.reset : MgmtRegs := ⟨Vector.replicate 64 0, 0, 0, none, 0, 0, 40, 0, false⟩

/-- The network at reset (R435, R441; DESIGN CHOICE, log entry 15). A device that ROUTE does not list is at its reset value, 15. -/
def Network.reset : Network :=
  ⟨0, false, false, 0, 30, [], Vector.replicate 16 0, Vector.replicate 16 0, Vector.replicate 12 ⟨false, 0⟩, [], []⟩

/-- The management processor at the first reset (R473, R476, R477; DESIGN CHOICE, log entry 13; the cap of R23). -/
def Mgmt.reset : Mgmt := ⟨1, 0, 0, 2800, 0, 0, false, false, none, [], 1, 0, 0, 0, true, 0, [], [], 0, [], 0, false⟩

/-- The machine after reset (R9, R473): every register at the reset value of its table, memory with nothing listed, and
the values the log names where the manual gives none. DESIGN CHOICE: log entry 3. DESIGN CHOICE: log entry 11.
DESIGN CHOICE: log entry 12. -/
def State.reset : State :=
  { mem := []
    badLines := []
    weakLines := []
    badWords := []
    rows := []
    bands := []
    launches := []
    conts := []
    cmds := []
    notes := []
    cores := Vector.replicate 256 Core.reset
    clusters := Vector.replicate 64 Cluster.reset
    dies := Vector.replicate 4 Die.reset
    hbmStacks := Vector.replicate 12 ⟨false, false⟩
    chans := Vector.replicate 384 Channel.reset
    scrub := Vector.replicate 768 0
    tcache := []
    tables := []
    freeze := .none
    heldHost := []
    n := 8
    pendingN := none
    dist := ⟨Vector.replicate 16 LaunchQueue.reset, 0, 0⟩
    regs := MgmtRegs.reset
    net := Network.reset
    treadle := ⟨false, 0⟩
    tracePort := 0
    crossFail := false
    mgmt := Mgmt.reset
    agenda := []
    active := .none
    nextId := 1 }

end Sys2Proof.Machine
end

