-- ==== Sys2Proof/Machine/Ops.lean ====
section
/-! DEFINITION. The named operations over the state: rows, bands and launches; taking a trap; the issue of a row
instruction with its hints, repeats and waits (R11, R48 to R54, R58, R273, R398); ports (R224 to R227); trace records. -/
namespace Sys2Proof.Machine

/-- The outcome of one step. -/
abbrev Out := Host.Outcome State Fault Refusal

/-! ### Finding and changing parts of the state -/

/-- The row of a name in a list of leased rows. -/
def findRow : List (RowId × Row) → RowId → Option Row
  | [], _ => none
  | (k, x) :: l, r => if k = r then some x else findRow l r

/-- The list with the row of a name replaced. -/
def replaceRow : List (RowId × Row) → RowId → Row → List (RowId × Row)
  | [], _, _ => []
  | (k, x) :: l, r, y => if k = r then (k, y) :: l else (k, x) :: replaceRow l r y

/-- The leased row of a name. -/
def State.row? (s : State) (r : RowId) : Option Row := findRow s.rows r
/-- The state with a leased row replaced. -/
def State.setRow (s : State) (r : RowId) (x : Row) : State := { s with rows := replaceRow s.rows r x }
/-- The state with a row changed where it is leased. -/
def State.modRow (s : State) (r : RowId) (f : Row → Row) : State :=
  match s.row? r with
  | some x => s.setRow r (f x)
  | none => s
/-- The state without a row. -/
def State.dropRow (s : State) (r : RowId) : State := { s with rows := s.rows.filter (fun p => p.1 != r) }

/-- The state with every leased row changed. -/
def State.mapRows (s : State) (f : RowId → Row → Row) : State :=
  { s with rows := s.rows.map (fun p : RowId × Row => (p.1, f p.1 p.2)) }

/-- The band of a number. -/
def State.band? (s : State) (b : Nat) : Option Band := s.bands.find? (fun x => x.id == b)
/-- The state with a band changed. -/
def State.modBand (s : State) (b : Nat) (f : Band → Band) : State :=
  { s with bands := s.bands.map (fun x => if x.id = b then f x else x) }
/-- The state with every band changed. -/
def State.mapBands (s : State) (f : Band → Band) : State := { s with bands := s.bands.map f }
/-- The launch of a number. -/
def State.launch? (s : State) (l : Nat) : Option Launch := s.launches.find? (fun x => x.id == l)
/-- The state with a launch changed. -/
def State.modLaunch (s : State) (l : Nat) (f : Launch → Launch) : State :=
  { s with launches := s.launches.map (fun x => if x.id = l then f x else x) }
/-- The command of a number. -/
def State.cmd? (s : State) (c : Nat) : Option Cmd := s.cmds.find? (fun x => x.id == c)
/-- The state with a command changed. -/
def State.modCmd (s : State) (c : Nat) (f : Cmd → Cmd) : State :=
  { s with cmds := s.cmds.map (fun x => if x.id = c then f x else x) }

/-- A core. -/
def State.core (s : State) (g : CoreId) : Core := s.cores[g.toNat]
/-- The state with a core changed. -/
def State.modCore (s : State) (g : CoreId) (f : Core → Core) : State :=
  { s with cores := s.cores.set g.toNat (f (s.core g)) }
/-- A cluster. -/
def State.cluster (s : State) (c : ClusterId) : Cluster := s.clusters[c.toNat]
/-- The state with a cluster changed. -/
def State.modCluster (s : State) (c : ClusterId) (f : Cluster → Cluster) : State :=
  { s with clusters := s.clusters.set c.toNat (f (s.cluster c)) }
/-- A die. -/
def State.die (s : State) (d : DieId) : Die := s.dies[d.toNat]
/-- The state with a die changed. -/
def State.modDie (s : State) (d : DieId) (f : Die → Die) : State :=
  { s with dies := s.dies.set d.toNat (f (s.die d)) }
/-- The state with a slot changed. -/
def State.modSlot (s : State) (c : ClusterId) (i : BitVec 6) (f : Slot → Slot) : State :=
  s.modCluster c (fun k => { k with slots := k.slots.set i.toNat (f k.slots[i.toNat]) })
/-- The state with a walker changed. -/
def State.modWalker (s : State) (c : ClusterId) (f : Walker → Walker) : State :=
  s.modCluster c (fun k => { k with walker := f k.walker })

/-- The cluster of a core (R16). -/
def clusterOf (g : CoreId) : ClusterId := g.extractLsb' 2 6
/-- The die of a core. -/
def dieOf (g : CoreId) : DieId := g.extractLsb' 6 2
/-- The die of a cluster. -/
def clusterDie (c : ClusterId) : DieId := c.extractLsb' 4 2

/-- Field [hi:lo] of a doubleword as a number. -/
def fld (x : Dword) (hi lo : Nat) : Nat := (x.toNat / 2 ^ lo) % 2 ^ (hi + 1 - lo)
/-- One bit of a doubleword. -/
def tst (x : Dword) (i : Nat) : Bool := x.getLsbD i
/-- A doubleword from a number. -/
def dw (n : Nat) : Dword := BitVec.ofNat 64 n

/-! ### The launch block (R357) -/

/-- Doubleword i of a launch block. DEDUCED: log entry 62. -/
def Launch.dw (l : Launch) (i : Nat) : Dword := l.block.getD i 0
/-- CHAIN. -/
def Launch.isChain (l : Launch) : Bool := tst (l.dw 0) 8
/-- PREEMPTIBLE. -/
def Launch.preemptible (l : Launch) : Bool := tst (l.dw 0) 10
/-- TRACE. -/
def Launch.traced (l : Launch) : Bool := tst (l.dw 0) 11
/-- GANG. -/
def Launch.gang (l : Launch) : Bool := tst (l.dw 0) 14
/-- PRIO. -/
def Launch.prio (l : Launch) : Nat := fld (l.dw 0) 50 48
/-- ASID. -/
def Launch.asid (l : Launch) : BitVec 6 := BitVec.ofNat 6 (fld (l.dw 0) 61 56)
/-- HANDLER. -/
def Launch.handler (l : Launch) : Dword := l.dw 5

/-- The launch of a band. -/
def State.bandLaunch? (s : State) (b : Band) : Option Launch := s.launch? b.launch
/-- The ASID of a band's launch. -/
def State.bandAsid (s : State) (b : Band) : BitVec 6 :=
  match s.bandLaunch? b with
  | some l => l.asid
  | none => 0

/-! ### Trace records (R451) -/

/-- Records the trace buffer holds. -/
def traceCap : Nat := 131072

/-- The 32 bytes of a trace record. -/
def traceBytes (ty : Nat) (core : CoreId) (r : Option RowId) (seq : BitVec 32) (cycle : Dword) (lo hi : Nat) : List Byte :=
  let prow := match r with
    | some k => k.prow.toNat
    | none => 0x7F
  let pane := match r with
    | some k => k.pane.toNat
    | none => 0
  let head := ty + (core.toNat % 64) * 2 ^ 8 + pane * 2 ^ 14 + prow * 2 ^ 16 + seq.toNat * 2 ^ 24
  leBytes 8 head ++ leBytes 8 cycle.toNat ++ leBytes 8 lo ++ leBytes 8 hi

/-- One record written at the ring's next place. -/
def putTrace (s : State) (core : CoreId) (r : Option RowId) (ty lo hi : Nat) : State :=
  let d := dieOf core
  let k := s.die d
  let off := 0x3C00000 + (k.trWr.toNat % traceCap) * 32
  let s := { s with mem := memWrite s.mem (dieKey d.toNat off) (traceBytes ty core r k.trSeq (s.core core).cycle lo hi) }
  s.modDie d (fun k => { k with trWr := k.trWr + 1, trSeq := k.trSeq + 1 })

/-- The ring of a die is full. -/
def traceFull (k : Die) : Bool := decide (traceCap ≤ (k.trWr - k.trRd).toNat)

/-- A record is dropped and counted; it takes a sequence number. -/
def dropTrace (s : State) (d : DieId) : State :=
  s.modDie d (fun k => { k with
    trDrop := if k.trDrop = BitVec.allOnes 64 then k.trDrop else k.trDrop + 1
    trLost := k.trLost + 1
    trSeq := k.trSeq + 1 })

/-- A trace record of a launch with TRACE (R451): written, or dropped and counted; a drop marker goes first, with the core and CYCLE
of the record that follows it (the model's choice, DEDUCED, log entry 48). DEDUCED: log entry 48. -/
def traceRecord (s : State) (launch : Nat) (core : CoreId) (r : Option RowId) (ty lo hi : Nat) : State :=
  match s.launch? launch with
  | none => s
  | some l =>
    let d := dieOf core
    if !(s.die d).trEn || !l.traced then s
    else if traceFull (s.die d) then dropTrace s d
    else if (s.die d).trLost = 0 then putTrace s core r ty lo hi
    else
      let s := (putTrace s core none 8 (s.die d).trLost 0).modDie d (fun k => { k with trLost := 0 })
      if traceFull (s.die d) then dropTrace s d else putTrace s core r ty lo hi

/-! ### Traps and waits (R11, R394, R398 to R401) -/

/-- Why an instruction does not complete now: a trap, or a wait with its stall reason and domain. -/
inductive Stop
  | trap (cause detail : Byte) (code : BitVec 14) (targ : Dword)
  | wait (reason : Nat) (dom : Dom)
  deriving DecidableEq, Repr

/-- A trap with cause, detail and TARG. -/
def trapOf (cause detail : Byte) (targ : Dword) : Stop := .trap cause detail 0 targ

/-- ILLEGAL at a step of R58. -/
def illegalAt (step : Byte) (pc : Dword) : Stop := trapOf 0x01 step pc
/-- MISALIGN. -/
def misalign (lane : Byte) (a : Dword) : Stop := trapOf 0x03 lane a
/-- SIDE_RANGE. -/
def sideRange (lane : Byte) (a : Dword) : Stop := trapOf 0x04 lane a
/-- EMPTY_READ of an operand: 0 D, 1 A, 2 B, 3 north. -/
def emptyRead (operand : Byte) : Stop := trapOf 0x05 operand 0
/-- PARITY in a structure of R400. -/
def parity (which : Byte) (targ : Dword) : Stop := trapOf 0x16 which targ
/-- BARRIER_STATE. -/
def barrierState (operand : Dword) : Stop := trapOf 0x11 0 operand
/-- PRIVILEGE. -/
def privilege : Stop := trapOf 0x0D 0 0

/-- TRAPINFO of a record (R401). -/
def TrapRec.info (t : TrapRec) : Dword := t.cause ++ t.detail ++ t.code ++ (0 : BitVec 34)

/-- PACEG of a row of a core (R389). -/
def pacegWord (s : State) (g : CoreId) : Dword :=
  let p := (s.cluster (clusterOf g)).pace
  dw (p.seq.toNat * 2 ^ 32 + (s.die (dieOf g)).h * 2 ^ 24 + s.n * 2 ^ 16 + p.v * 2 ^ 8 + p.m)

/-- The fields of PACEG that differ, as PACEEV has them (R390). -/
def paceChanges (old new : Dword) : BitVec 5 :=
  (if old.extractLsb' 0 8 = new.extractLsb' 0 8 then 0 else 1) ||| (if old.extractLsb' 8 8 = new.extractLsb' 8 8 then 0 else 2)
    ||| (if old.extractLsb' 16 8 = new.extractLsb' 16 8 then 0 else 4)
    ||| (if old.extractLsb' 24 8 = new.extractLsb' 24 8 then 0 else 8)

/-- A row that reaches a boundary point reads the grants in force; an H or N change that was undone since its last one has
set its bit too (R387, R390). DEDUCED: log entry 64. -/
def Row.seePace (s : State) (g : CoreId) (x : Row) : Row :=
  let w := pacegWord s g
  { x with
    csr := { x.csr with paceg := w, paceev := x.csr.paceev ||| paceChanges x.csr.paceg w ||| x.ctl.hnDue }
    ctl := { x.ctl with hnDue := 0 } }

/-- The scalar registers that pending producers will write. -/
def pendingScalars : List Producer → BitVec 32
  | [] => 0
  | p :: l => match p.dest with
    | .sca d _ => (1#32 <<< d.toNat) ||| pendingScalars l
    | .vec .. => pendingScalars l

/-- A row that a trap or a pre-emption takes out of its WAIT: sD, which the WAIT marked empty, is full again, since the
registers of a trapped or saved row are full and the WAIT executes again from the start (R165, R222, R411).
DEDUCED: log entry 77. -/
def Row.leaveWait (x : Row) : Row :=
  match x.ctl.wait with
  | some w => if w.reason = 8 then { x with regs := { x.regs with sfull := x.regs.sfull ||| ~~~pendingScalars x.prods } } else x
  | none => x

/-- The V-cycle of a row's core, counted from 1: what an issue is stamped with (R369). -/
def State.stampAt (s : State) (r : RowId) : Nat := (s.core r.core).cycle.toNat + 1

/-- Row q, which trapped at a CYCLE, is taken before row r, which traps at another: it trapped earlier, or in the same
V-cycle in a lower physical row, then pane (R399). -/
def trapsBefore (q r : RowId) (tq tr : Dword) : Bool :=
  tq != tr || decide (q.prow.toNat * 4 + q.pane.toNat < r.prow.toNat * 4 + r.pane.toNat)

/-- A row that traps now put in its place among the trapped rows of its core, in the order in which the monitor takes them
(R399). -/
def queueTrap (s : State) (r : RowId) (now : Dword) : List RowId → List RowId
  | [] => [r]
  | q :: l =>
    let tq := match (s.row? q).bind (fun y => y.ctl.trap) with
      | some t => t.cycle
      | none => now - 1
    if trapsBefore q r tq now then q :: queueTrap s r now l else r :: q :: l

/-- A row takes a trap (R11, R398, R399): the record is kept, the PC and hints stay, and the row joins its core's queue
of trapped rows in its place. -/
def takeTrap (s : State) (r : RowId) (x : Row) (cause detail : Byte) (code : BitVec 14) (targ : Dword) : State :=
  let now := (s.core r.core).cycle
  let t : TrapRec := ⟨cause, detail, code, targ, x.ibuf.getD 0, now⟩
  let y := x.leaveWait
  let s := s.setRow r ({ y with ctl := { y.ctl with trap := some t, wait := none, gather := (0, 0) } }.seePace s r.core)
  let s := s.modCore r.core (fun k => { k with trapQ := queueTrap s r now k.trapQ })
  match s.band? x.band with
  | some b => traceRecord s b.launch r.core (some r) 6 t.info.toNat x.pc.toNat
  | none => s

/-- A row waits (R395): the count starts at 0 when the instruction begins to wait in that domain. -/
def waitRow (x : Row) (reason : Nat) (dom : Dom) : Row :=
  let n := match x.ctl.wait with
    | some w => if w.dom = dom then w.count else 0
    | none => 0
  { x with ctl := { x.ctl with wait := some ⟨reason, dom, n⟩ } }

/-- A wait that is a boundary point: at a barrier, or in WAIT of class MX (R384). -/
def boundaryWait (reason : Nat) (dom : Dom) : Bool := reason == 9 || (reason == 8 && dom == .m)

/-- A row waits; where that is a boundary point it reads the grants in force (R387). -/
def waitAt (s : State) (r : RowId) (x : Row) (reason : Nat) (dom : Dom) : Row :=
  if boundaryWait reason dom then (waitRow x reason dom).seePace s r.core else waitRow x reason dom

/-- What the watchdog of a domain allows (R395); none when disabled. -/
def watchdogLimit (wdlim : Dword) (d : Dom) : Option Nat :=
  let e := match d with
    | .v => fld wdlim 4 0
    | .h => fld wdlim 12 8
    | .n => fld wdlim 20 16
    | .m => fld wdlim 28 24
  if e = 0 then none else some (2 ^ max e 10)

/-- The wait of a row has reached the limit of its domain: the domain and the limit (R395). -/
def watchdogDue (x : Row) : Option (Dom × Nat) :=
  match x.ctl.wait with
  | none => none
  | some w =>
    match watchdogLimit x.csr.wdlim w.dom with
    | some l => if l ≤ w.count then some (w.dom, l) else none
    | none => none

/-- The domain number of WATCHDOG's DETAIL (R400). -/
def Dom.num : Dom → Byte
  | .m => 0
  | .v => 1
  | .n => 2
  | .h => 3

/-! ### Registers -/

/-- Scalar register r; s0 reads zero (R37). -/
def Row.sget (x : Row) (r : Reg) : Dword := if r = 0 then 0 else x.regs.s[r.toNat]
/-- A scalar register is full; s0 always is (R40). -/
def Row.sFull (x : Row) (r : Reg) : Bool := r == 0 || x.regs.sfull.getLsbD r.toNat
/-- The row with a scalar register written; s0 ignores writes (R19, R39). -/
def Row.sset (x : Row) (r : Reg) (v : Dword) : Row :=
  if r = 0 then x
  else { x with regs := { x.regs with
    s := x.regs.s.set r.toNat v, sbad := x.regs.sbad &&& ~~~(1#32 <<< r.toNat) } }
/-- A vector register v0 to v27; the others are read elsewhere. -/
def Row.vget (x : Row) (r : Reg) : Lanes := x.regs.v[r.toNat]?.getD zeroLanes
/-- A vector register is full; v28 to v31 have no bit that empties (R40). -/
def Row.vFull (x : Row) (r : Reg) : Bool := decide (28 ≤ r.toNat) || x.regs.vfull.getLsbD r.toNat
/-- Lane-wise choice: new values in the lanes of a mask, old values elsewhere. -/
def mergeLanes (mk : Mask) (new old : Lanes) : Lanes :=
  Vector.ofFn (fun i : Fin 64 => if mk.getLsbD i.val then new[i.val] else old[i.val])
/-- A vector register v0 to v27 holds a parity error in some lane (R404). DEDUCED: log entry 34. -/
def Row.badV (x : Row) (r : Reg) : Bool := x.regs.vbad[r.toNat]?.getD 0 != 0
/-- A scalar register other than s0 holds a parity error (R404). -/
def Row.badS (x : Row) (r : Reg) : Bool := x.regs.sbad.getLsbD r.toNat && r != 0
/-- The row with lanes of a vector register v0 to v27 written; a lane written holds no parity error (R404). -/
def Row.vset (x : Row) (r : Reg) (mk : Mask) (val : Lanes) : Row :=
  if h : r.toNat < 28 then
    { x with regs := { x.regs with
      v := x.regs.v.set r.toNat (mergeLanes mk val (x.vget r)) h
      vbad := x.regs.vbad.set r.toNat (x.regs.vbad[r.toNat] &&& ~~~mk) h } }
  else x
/-- Mask register k; m0 is the divergence mask. -/
def Row.mget (x : Row) (k : MReg) : Mask := x.regs.m[k.toNat]
/-- The row with a mask register written. -/
def Row.mset (x : Row) (k : MReg) (v : Mask) : Row :=
  { x with regs := { x.regs with m := x.regs.m.set k.toNat v } }
/-- Full bit of a scalar register. -/
def Row.markS (x : Row) (r : Reg) (full : Bool) : Row :=
  if r = 0 then x
  else { x with regs := { x.regs with
    sfull := if full then x.regs.sfull ||| (1#32 <<< r.toNat) else x.regs.sfull &&& ~~~(1#32 <<< r.toNat) } }
/-- Full bit of a vector register. -/
def Row.markV (x : Row) (r : Reg) (full : Bool) : Row :=
  { x with regs := { x.regs with
    vfull := if full then x.regs.vfull ||| (1#32 <<< r.toNat) else x.regs.vfull &&& ~~~(1#32 <<< r.toNat) } }

/-- Lanes 0 to w - 1. -/
def laneMask (w : Nat) : Mask := BitVec.ofNat 64 (2 ^ w - 1)
/-- ActiveLanes(m) of R11. -/
def Row.active (x : Row) (lw : Nat) (k : MReg) : Mask := x.mget 0 &&& x.mget k &&& laneMask lw
/-- The lanes of a mask in ascending order. -/
def maskLanes (mk : Mask) : List Nat := (List.range 64).filter (fun i => mk.getLsbD i)

/-- Flags raised by an instance (R99): sticky, and PEND where an enabled one is raised. -/
def Row.raise (x : Row) (fl : Flags) : Row :=
  { x with fp := { x.fp with flags := x.fp.flags ||| fl, pend := x.fp.pend || (fl &&& x.fp.en) != 0 } }

/-! ### The issue of a row instruction -/

/-- Which pending hints an instruction accepts (R49). -/
structure Accept where
  imx : Bool
  rep : Bool
  modh : Bool
  schd : Bool
  deriving DecidableEq, Repr

/-- No hint: control words and hints' own row (R49). -/
def accNone : Accept := ⟨false, false, false, false⟩
/-- SCHD only: engines, barriers, system. -/
def accSchd : Accept := ⟨false, false, false, true⟩
/-- MOD and SCHD: matrix and sparsity. -/
def accMod : Accept := ⟨false, false, true, true⟩
/-- REP, MOD and SCHD. -/
def accRep : Accept := ⟨false, true, true, true⟩
/-- Every hint. -/
def accAll : Accept := ⟨true, true, true, true⟩

/-- What a D, A or B field names, for REP (R51). -/
inductive FieldKind
  | unused | vec | sca | mask | imm
  deriving DecidableEq, Repr

/-- A field of an instruction: its kind and its encoded value. -/
structure FieldUse where
  kind : FieldKind
  val : Reg
  deriving DecidableEq, Repr

/-- An unused field. -/
def fNone : FieldUse := ⟨.unused, 0⟩
/-- A vector field. -/
def fVec (r : Reg) : FieldUse := ⟨.vec, r⟩
/-- A scalar field. -/
def fSca (r : Reg) : FieldUse := ⟨.sca, r⟩
/-- A mask field. -/
def fMsk (k : MReg) : FieldUse := ⟨.mask, (0 : BitVec 2) ++ k⟩
/-- A 5-bit immediate field. -/
def fImm5 (r : Reg) : FieldUse := ⟨.imm, r⟩

/-- The step a REP step code selects (R51). -/
def stepOf (c : BitVec 2) : Nat :=
  match c.toNat with
  | 0 => 0
  | 1 => 1
  | 2 => 2
  | _ => 4

/-- A step code is legal on a field (R51). -/
def stepLegal (f : FieldUse) (c : BitVec 2) : Bool :=
  c == 0 || (match f.kind with
    | .vec => decide (f.val.toNat < 28)
    | .sca | .imm => true
    | .unused | .mask => false)

/-- The value of a field in repeat k, or none where R52 traps. -/
def stepped (f : FieldUse) (c : BitVec 2) (k : Nat) : Option Reg :=
  let v := f.val.toNat + k * stepOf c
  if c = 0 then some f.val
  else if (match f.kind with | .vec => 27 | _ => 31) < v then none
  else some (BitVec.ofNat 5 v)

/-- What an instruction sees of its row: the state, the row, its band, the stepped fields, and the hints in force. -/
structure Ctx where
  s : State
  r : RowId
  x : Row
  band : Band
  d : Reg
  a : Reg
  b : Reg
  mode : RMode
  sat : Bool
  td : Bool
  pw : Bool
  deriving DecidableEq, Repr

/-- Lane width of the row (R218). -/
def Ctx.lw (c : Ctx) : Nat := c.band.laneW
/-- ActiveLanes of the row. -/
def Ctx.act (c : Ctx) (k : MReg) : Mask := c.x.active c.band.laneW k

/-- What an instruction does: its effect in a new state, after which it retires; the same with a transfer of control;
an effect after which nothing remains to be done; a state in which it waits; or a stop. -/
inductive Act
  | done (s : State)
  | jump (s : State) (pc : Dword)
  | raw (s : State)
  | hold (s : State) (reason : Nat) (dom : Dom)
  | stop (t : Stop)

/-- The row after an instance has issued: no wait, and the V-cycle of the issue (R369). -/
def issued (x : Row) (stamp : Nat) : Row :=
  { x with ctl := { x.ctl with wait := none, stamp := stamp, exempt := false } }

/-- The row with its latest issue recorded; an instance that traps counts as an issue (R369). -/
def stamped (x : Row) (stamp : Nat) : Row := { x with ctl := { x.ctl with stamp := stamp } }

/-- The row at its next word: hints consumed, REPIX 0 (R48, R52). -/
def nextWord (x : Row) (pc : Dword) : Row :=
  { x with pc := pc, ibuf := none, hints := {}, repix := 0 }

/-- Repeats that follow the instance of index k under the pending REP (R51). -/
def moreRepeats (x : Row) : Bool :=
  match x.hints.rep with
  | some p => decide (x.repix.toNat < (p.extractLsb' 18 6).toNat)
  | none => false

/-- An instance retires: the next repeat is due, or the next word (R51, R52). -/
def retireRow (x : Row) (stamp : Nat) : Row :=
  let y := issued x stamp
  if moreRepeats x then { y with repix := x.repix + 1 } else nextWord y (x.pc + 4)

/-- The state with its next number used up. -/
def State.bump (s : State) : State := { s with nextId := s.nextId + 1 }

/-- The outcome of what an instruction does. -/
def applyAct (r : RowId) (s : State) (x : Row) : Act → Out
  | .done t => .next ((t.modRow r (fun y => retireRow y (t.stampAt r))).bump)
  | .jump t pc => .next ((t.modRow r (fun y => nextWord (issued y (t.stampAt r)) pc)).bump)
  | .raw t => .next t
  | .hold t reason dom => .next (t.modRow r (fun y => waitAt t r y reason dom))
  | .stop (.wait reason dom) => .next (s.setRow r (waitAt s r x reason dom))
  | .stop (.trap cause detail code targ) => .next (takeTrap s r (stamped x (s.stampAt r)) cause detail code targ).bump

/-- The hints pending are ones the instruction accepts (R49). -/
def hintsAccepted (h : Hints) (acc : Accept) : Bool :=
  (acc.imx || (h.imx1.isNone && h.imx2.isNone)) && (acc.rep || h.rep.isNone)
    && (acc.modh || h.modp.isNone) && (acc.schd || h.schd.isNone)

/-- The rounding mode in force (R54, R77). -/
def modeOf (h : Hints) (rmode : BitVec 2) : RMode :=
  match h.modp with
  | some p =>
    match (p.extractLsb' 21 3).toNat with
    | 1 => .rne
    | 2 => .rtz
    | 3 => .rdn
    | 4 => .rup
    | _ => RMode.ofCode rmode
  | none => RMode.ofCode rmode

/-- A bit of the pending MOD. -/
def modBit (h : Hints) (i : Nat) : Bool :=
  match h.modp with
  | some p => p.getLsbD i
  | none => false

/-- REP's step codes for D, A and B (R51); zero without a REP. -/
def repSteps (h : Hints) : BitVec 2 × BitVec 2 × BitVec 2 :=
  match h.rep with
  | some p => (p.extractLsb' 16 2, p.extractLsb' 14 2, p.extractLsb' 12 2)
  | none => (0, 0, 0)

/-- The divergence mask of the row is empty (R273). -/
def Row.skips (x : Row) (lw : Nat) : Bool := x.mget 0 &&& laneMask lw == 0

/-- The checks of R58 from step 6 on that need the row's state, and the fields of the repeat that is due. -/
def prologue (s : State) (r : RowId) (x : Row) (b : Band) (acc : Accept) (pwOk : Bool) (fd fa fb : FieldUse) :
    Except Stop Ctx :=
  let (cd, ca, cb) := repSteps x.hints
  let k := x.repix.toNat
  if modBit x.hints 18 && !pwOk then .error (illegalAt 6 x.pc)
  else if !hintsAccepted x.hints acc then .error (illegalAt 7 x.pc)
  else if !(stepLegal fd cd && stepLegal fa ca && stepLegal fb cb) then .error (illegalAt 7 x.pc)
  else
    match stepped fd cd k, stepped fa ca k, stepped fb cb k with
    | some d, some a, some bb =>
      .ok ⟨s, r, x, b, d, a, bb, modeOf x.hints x.fp.rmode, modBit x.hints 20, modBit x.hints 19, modBit x.hints 18⟩
    | _, _, _ => .error (trapOf 0x13 (BitVec.ofNat 8 k) 0)

/-- An earlier instruction of the row that can raise a flag has not completed (R99, R100): a producer, or an MSCA; the
wait's reason is register empty or matrix busy (R449). -/
def Row.flagWait (x : Row) : Option Stop :=
  if x.prods.any (fun p => p.raises) then some (.wait 1 .v)
  else if x.mx.msca.isSome then some (.wait 5 .m)
  else none

/-- The row takes a trap with a changed row state: what the trap itself consumes. -/
def Ctx.trapWith (c : Ctx) (y : Row) (cause detail : Byte) (targ : Dword) : Act :=
  .raw (takeTrap c.s c.r (stamped y (c.s.stampAt c.r)) cause detail 0 targ).bump

/-- A delivery point (R99): waits for flag-raising instructions; with PEND set the row clears it and traps with
FP_DEFERRED before the instruction takes effect. -/
def Ctx.deliver (c : Ctx) (k : Except Stop Act) : Except Stop Act :=
  match c.x.flagWait with
  | some t => .error t
  | none => if c.x.fp.pend then .ok (c.trapWith { c.x with fp := { c.x.fp with pend := false } } 0x09 0 0) else k

/-- An instruction that waits on the row's streams first takes what a stream has left for it: PORT_CLOSED (R298) or
PARITY (R404). -/
def Ctx.streamDue (c : Ctx) (k : Except Stop Act) : Except Stop Act :=
  match c.x.ctl.streamParity with
  | some (w, t) => .ok (c.trapWith { c.x with ctl := { c.x.ctl with streamParity := none } } 0x16 w t)
  | none =>
    if c.x.ctl.closedDue then .ok (c.trapWith { c.x with ctl := { c.x.ctl with closedDue := false } } 0x07 1 0) else k

/-- The result of a body that may stop. -/
def Act.ofExcept : Except Stop Act → Act
  | .ok a => a
  | .error t => .stop t

/-- A row instruction issues: skipped while the divergence mask is empty, unless it is structured (R273); otherwise the
checks of R58, then its body. -/
def issueWith (structured : Bool) (pwOk : Bool) (s : State) (acc : Accept) (fd fa fb : FieldUse)
    (body : Ctx → Except Stop Act) : Out :=
  match s.active with
  | .row r =>
    match s.row? r with
    | none => .fault .noActiveAgent
    | some x =>
      match s.band? x.band with
      | none => .fault .noActiveAgent
      | some b =>
        if !structured && x.skips b.laneW then applyAct r s x (.done s)
        else
          match prologue s r x b acc pwOk fd fa fb with
          | .error t => applyAct r s x (.stop t)
          | .ok c => applyAct r s x (Act.ofExcept (body c))
  | _ => .fault .noActiveAgent

/-- The issue of an ordinary row instruction. -/
def issue (s : State) (acc : Accept) (fd fa fb : FieldUse) (body : Ctx → Except Stop Act) : Out :=
  issueWith false false s acc fd fa fb body

/-- An event ends in a next state. DESIGN CHOICE: log entry 29. -/
def eventNext (s : State) : Out := .next s

end Sys2Proof.Machine
end

