-- ==== Sys2Proof/Machine/Operands.lean ====
section
/-! DEFINITION. Operands of row instructions: register waits (R40), ports (R42, R225 to R227, R282), immediates (R50),
side-memory access with its checks (R232 to R240, R161, R403, R447), posted writes (R239). -/
namespace Sys2Proof.Machine

/-! ### Registers as operands (R40, R58 step 8) -/

/-- A scalar source: full, or the row waits or traps with EMPTY_READ. -/
def Ctx.needS (c : Ctx) (r : Reg) (tb : Bool) (operand : Byte) : Except Stop Unit :=
  if c.x.badS r then .error (parity 1 0)
  else if c.x.sFull r then .ok ()
  else if tb then .error (emptyRead operand)
  else .error (.wait 1 .v)

/-- A scalar destination: not pending, or the row waits, or traps under TD (R40, R223). -/
def Ctx.needSDst (c : Ctx) (r : Reg) : Except Stop Unit :=
  if c.x.sFull r then .ok () else if c.td then .error (emptyRead 0) else .error (.wait 1 .v)

/-- A vector source v0 to v27 is full; v28 is checked with the port, v30 and v31 are always full. -/
def Ctx.needV (c : Ctx) (r : Reg) (tb : Bool) (operand : Byte) : Except Stop Unit :=
  if c.x.badV r then .error (parity 0 0)
  else if c.x.vFull r then .ok ()
  else if tb then .error (emptyRead operand)
  else .error (.wait 1 .v)

/-- A vector destination v0 to v27 is not pending (R40, R223). -/
def Ctx.needVDst (c : Ctx) (r : Reg) : Except Stop Unit :=
  if c.x.vFull r then .ok () else if c.td then .error (emptyRead 0) else .error (.wait 1 .v)

/-! ### Ports -/

/-- SRC of a grant is north (R287). -/
def Stream.north (t : Stream) : Bool := decide (fld t.grant 61 60 = 1)
/-- TERMINAL of a grant (R287). -/
def Stream.terminal (t : Stream) : Bool := tst t.grant 59

/-- The latch operand's type of a grant (R285). -/
def grantAf (g : Dword) : TyCode := TyCode.ofCode (BitVec.ofNat 4 (fld g 55 52))
/-- The streamed operand's or the weights' type of a grant (R285). -/
def grantBf (g : Dword) : TyCode := TyCode.ofCode (BitVec.ofNat 4 (fld g 51 48))
/-- K' of a grant: the steps of a stream (R287). -/
def grantK (g : Dword) : Nat := fld g 27 16 + 1

/-- The bits of one matrix value (R293). -/
def eltBits : TyCode → Nat
  | .q16 => 4
  | .f16 | .bf16 => 16
  | _ => 8

/-- The values of one entry in a lane: 8 of 8 bits or 4 of 16 (R293). -/
def perEntry (bf : TyCode) : Nat := 64 / eltBits bf

/-- M of a card's header (R310). -/
def cardM (hd : List Byte) : Nat := ((hd.getD 3 0).toNat / 16)
/-- N of a card's header (R310). -/
def cardN (hd : List Byte) : Nat := ((hd.getD 3 0).toNat % 16)

/-- The positions of the entry that are multiplied at a step: all of them, or the kept ones of an MMAS (R293, R324). -/
def Stream.positions (t : Stream) (step : Nat) : List Nat :=
  let n := perEntry (grantBf t.grant)
  match t.kind with
  | .mmas =>
    let m := max 1 (cardM t.cardBytes)
    (List.range n).filter (fun u =>
      let k := step * n + u
      Nat.testBit (t.masks.getD (k / m) 0) (k % m))
  | _ => List.range n

/-- The latch bytes of the next step (R293, R324). -/
def Stream.latchNeed (t : Stream) : Nat :=
  match t.kind with
  | .mwb => 0
  | _ => (t.positions t.step).length * eltBits (grantAf t.grant) / 8

/-- A running or queued stream of the row satisfies a condition. -/
def Matrix.anyStream (m : Matrix) (p : Stream → Bool) : Bool := m.running.any p || m.queued.any p

/-- K' of a stream has been reached: its last step has been made. -/
def Stream.done (t : Stream) : Bool := decide (grantK t.grant ≤ t.step)

/-- The stall reason of a wait for the row's own stream: latch empty where the stream waits for the latch bytes of its next
step, else matrix busy (R282). -/
def Matrix.busyReason (m : Matrix) : Nat :=
  match m.running with
  | some t => if !t.done && decide (m.latch.length < t.latchNeed) then 4 else 5
  | none => 5

/-- The head entry of the north port holds a parity error (R404). -/
def Row.badHead (x : Row) : Bool := x.north.bad.contains 0

/-- PARITY comes before any other trap of one instance (R399): where checks would trap with another cause, and the instance
reads a structure with a parity error, the PARITY trap p takes their place. -/
def preferParity {α : Type} (p : Option Byte) : Except Stop α → Except Stop α
  | .error (.trap cause detail code targ) =>
    if cause = 0x16 then .error (.trap cause detail code targ)
    else match p with
      | some k => .error (parity k 0)
      | none => .error (.trap cause detail code targ)
  | e => e

/-- The first parity error among scalar and vector registers that an instance reads, the head of the north port where v28 is
among them and no stream of the row reads it (R400, R404). -/
def Ctx.badSource (c : Ctx) (ss vs : List Reg) : Option Byte :=
  if vs.any c.x.badV then some 0
  else if ss.any c.x.badS then some 1
  else if vs.contains 28 && !c.x.mx.anyStream Stream.north && c.x.badHead then some 2
  else none

/-- As preferParity, of the registers that the instance reads. -/
def Ctx.parityFirst {α : Type} (c : Ctx) (ss vs : List Reg) (k : Except Stop α) : Except Stop α :=
  preferParity (c.badSource ss vs) k

/-- PortPop's conditions (R11, R225, R282): the head entry, or a stop. -/
def Ctx.needNorth (c : Ctx) (tb : Bool) : Except Stop Entry :=
  if c.x.mx.anyStream Stream.north then .error (.wait c.x.mx.busyReason .m)
  else if c.x.badHead then .error (parity 2 0)
  else if c.x.north.isOpen then .error (trapOf 0x06 0 0)
  else
    match c.x.north.fifo with
    | e :: _ => .ok e
    | [] =>
      if c.x.north.closed && c.x.north.transit.isEmpty then .error (trapOf 0x07 0 0)
      else if tb then .error (emptyRead 3)
      else .error (.wait 2 .v)

/-- Entries between a row and the consumer of its south port, in the port and in transit (R302). -/
def southHeld (s : State) (x : Row) : Nat :=
  match x.south.dest with
  | some r =>
    match s.row? r with
    | some y => y.north.fifo.length + y.north.transit.length
    | none => 0
  | none => 0

/-- The south port is full (R226, R302). -/
def southFull (s : State) (x : Row) : Bool := decide (x.south.cap ≤ southHeld s x)

/-- PortPush's conditions (R11, R226, R282). -/
def Ctx.needSouth (c : Ctx) : Except Stop Unit :=
  if c.x.mx.anyStream (fun t => !t.terminal) then .error (.wait c.x.mx.busyReason .m)
  else if c.x.south.isOpen then .error (trapOf 0x06 1 0)
  else if c.x.south.orphan then .ok ()
  else if southFull c.s c.x then (if c.td then .error (emptyRead 0) else .error (.wait 3 .v))
  else .ok ()

/-- The places of parity errors once the first n items of a queue have left it. -/
def popBad (n : Nat) (l : List Nat) : List Nat := (l.filter (fun i => decide (n ≤ i))).map (fun i => i - n)

/-- The row with the head entry of its north port removed. -/
def Row.pop (x : Row) : Row :=
  { x with north := { x.north with fifo := x.north.fifo.tail, bad := popBad 1 x.north.bad } }

/-- An entry appended to the south port of a row, on its way to the consumer; discarded when the port is ORPHAN. -/
def pushSouth (s : State) (x : Row) (e : Entry) : State :=
  if x.south.orphan then s
  else
    match x.south.dest with
    | some r => s.modRow r (fun y => { y with north := { y.north with transit := y.north.transit ++ [e] } })
    | none => s

/-- The low halves of an entry (R42). -/
def Entry.low (e : Entry) : Lanes := e.map (fun x => x.setWidth 32)
/-- The high halves of an entry (R54). -/
def Entry.high (e : Entry) : Lanes := e.map (fun x => x.extractLsb' 32 32)
/-- The entry that carries a result: zero-extended in the lanes written, 0 elsewhere (R42). -/
def entryOf (mk : Mask) (v : Lanes) : Entry :=
  Vector.ofFn (fun i : Fin 64 => if mk.getLsbD i.val then v[i.val].setWidth 64 else 0)
/-- The entry with low and high halves in the lanes of a mask. -/
def entryPair (mk : Mask) (lo hi : Lanes) : Entry :=
  Vector.ofFn (fun i : Fin 64 => if mk.getLsbD i.val then hi[i.val] ++ lo[i.val] else 0)

/-- The lane index register v30 (R37). -/
def laneIndex : Lanes := Vector.ofFn (fun i : Fin 64 => BitVec.ofNat 32 i.val)

/-- The value of a vector source, given the popped entry (R37, R42). -/
def vecValue (x : Row) (e : Option Entry) (r : Reg) : Lanes :=
  if r = 28 then (match e with | some y => Entry.low y | none => zeroLanes)
  else if r = 30 then laneIndex
  else if r = 31 then zeroLanes
  else x.vget r

/-- A vector source field: register, trap bit, operand number. -/
structure VSrc where
  reg : Reg
  tb : Bool
  operand : Byte
  deriving DecidableEq, Repr

/-- The vector sources of an instance: every register full, and one entry popped where any names v28 (R42, R225).
DEDUCED: log entry 19. -/
def Ctx.needSources (c : Ctx) (l : List VSrc) : Except Stop (Option Entry) := do
  c.parityFirst [] (l.map VSrc.reg) (l.forM (fun v => c.needV v.reg v.tb v.operand))
  if l.any (fun v => v.reg == 28) then
    let e ← c.needNorth (l.any (fun v => v.reg == 28 && v.tb))
    .ok (some e)
  else .ok none

/-- A vector destination: v29 is the south port, v0 to v27 a register (R39, R226). DEDUCED: log entry 19. -/
def Ctx.needDest (c : Ctx) (d : Reg) : Except Stop Unit :=
  if d = 29 then c.needSouth else c.needVDst d

/-- The row after the pop of an instance. -/
def afterPop (x : Row) (e : Option Entry) : Row := if e.isSome then x.pop else x

/-- A vector result written to a register in the lanes of a mask, or pushed as one entry (R42); y is the row after its
pop and flags. -/
def writeVec (s : State) (r : RowId) (y : Row) (d : Reg) (mk : Mask) (v : Lanes) : State :=
  if d = 29 then (pushSouth s y (entryOf mk v)).setRow r y else s.setRow r (y.vset d mk v)

/-! ### Immediates (R50) -/

/-- The 64-bit immediate under the pending IMX words. -/
def immOf (h : Hints) (i : BitVec 14) : Dword :=
  match h.imx1, h.imx2 with
  | some p, some q => (p ++ q ++ i).signExtend 64
  | some p, none => (p ++ i).signExtend 64
  | none, _ => i.signExtend 64

/-! ### The range scoreboard (R160, R161) -/

/-- The watchdog domain of a wait on a command's range (R394). R394 names it for shuttle and gather-scatter commands; for a
walker's and a network command's it is that of their queues. DESIGN CHOICE: log entry 84. -/
def classDom : BClass → Dom
  | .sh | .gs => .h
  | .nw => .n
  | .wk => .v
  | .mx => .m

/-- A range overlaps [lo, hi) of core g. -/
def SbRange.hits (k : SbRange) (g : CoreId) (lo hi : Nat) : Bool :=
  k.core == g && decide (lo < k.hi) && decide (k.lo < hi)

/-- The band whose window a band has: its own, or the one that parked it (R367). -/
def Band.owner (b : Band) : Nat := b.parent.getD b.id

/-- A band has been saved and not restored (R417, R427). -/
def Band.away (b : Band) : Bool := b.preempt == some .saved

/-- The window of a band is away: every band that shares it is saved (R351, R367). DEDUCED: log entry 95. -/
def Band.gone (s : State) (b : Band) : Bool := s.bands.all (fun k => k.owner != b.owner || k.away)

/-- [lo, hi) of core g lies in windows of saved bands only: it stays as it was saved until the restore, which writes it (R351,
R427). DEDUCED: log entry 95. -/
def windowAway (s : State) (g : CoreId) (lo hi : Nat) : Bool :=
  let l := s.bands.filter (fun b => b.core == g && decide (lo < b.wbase + b.wsize) && decide (b.wbase < hi))
  !l.isEmpty && l.all Band.away

/-- What holds back an access to [lo, hi) of core g, as the domain in which the wait counts: the first command with a range
there, a reading access waiting on destinations only (R161, R394), or a saved band (R351). -/
def sbBlocker (s : State) (g : CoreId) (lo hi : Nat) (write : Bool) : Option Dom :=
  match s.cmds.find? (fun c => c.sb.any (fun k => (write || k.dst) && k.hits g lo hi)) with
  | some c => some (classDom c.cls)
  | none => if windowAway s g lo hi then some .v else none

/-- The wait a scoreboard range makes (R161, R394). -/
def sbWait (s : State) (g : CoreId) (lo hi : Nat) (write : Bool) : Except Stop Unit :=
  match sbBlocker s g lo hi write with
  | some d => .error (.wait 7 d)
  | none => .ok ()

/-! ### Watchpoints (R447) -/

/-- How an access counts for a watchpoint. -/
inductive AccessKind
  | read | write | update
  deriving DecidableEq, Repr

/-- Watchpoint n of core g matches an access to [lo, hi) by a launch of an ASID. -/
def watchMatches (k : Debug) (n : Fin 4) (asid : BitVec 6) (kind : AccessKind) (lo hi : Nat) : Bool :=
  let ctl := k.wpctl[n.val]
  let base := fld k.wpaddr[n.val] 19 0
  let len := fld ctl 15 4 + 1
  let rw := match kind with
    | .read => tst ctl 0
    | .write => tst ctl 1
    | .update => tst ctl 0 || tst ctl 1
  rw && decide (fld ctl 25 20 = asid.toNat) && decide (lo < base + len) && decide (base < hi)

/-- The lowest watchpoint that an access matches, and the lowest matching lane's TARG. lanes gives each lane's core
offset range and its TARG. DEDUCED: log entry 66. -/
def watchHit (s : State) (g : CoreId) (asid : BitVec 6) (kind : AccessKind) (lanes : List (Nat × Nat × Dword)) :
    Except Stop Unit :=
  let k := (s.core g).dbg
  let hit (n : Fin 4) := lanes.find? (fun l => watchMatches k n asid kind l.1 l.2.1)
  match [0, 1, 2, 3].findSome? (fun n : Fin 4 => (hit n).map (fun l => (n, l.2.2))) with
  | some (n, t) => .error (trapOf 0x0F (BitVec.ofNat 8 n.val) t)
  | none => .ok ()

/-! ### Row access to the window (R11, R139, R232, R403) -/

/-- A word of a scratch memory is uncorrectable. -/
def State.badWord (s : State) (key : Nat) : Bool := s.badWords.contains (key / 8)

/-- A 4-byte write at a key by a row: a bad word keeps its state (R403). DEDUCED: log entry 22. -/
def rowStore4 (s : State) (key : Nat) (v : Word) : State := { s with mem := memWrite s.mem key (leBytes 4 v.toNat) }

/-- An 8-byte write at a key replaces a bad word (R403). DEDUCED: log entry 22. -/
def rowStore8 (s : State) (key : Nat) (v : Dword) : State :=
  { s with mem := memWrite s.mem key (leBytes 8 v.toNat), badWords := s.badWords.filter (fun w => w != key / 8) }

/-- One lane of a posted write or update performed at its target (R238, R240); true when the word is bad and nothing is
written. -/
def performLane (s : State) (g : CoreId) (l : RemoteLane) : State × Bool :=
  let key := sideKey g.toNat l.off
  if s.badWord key then (s, true)
  else
    match l.op with
    | none => (rowStore4 s key l.b, false)
    | some p => (rowStore4 s key (atomNew p (memWord s.mem key) l.b l.c), false)

/-- The lanes of a posted write performed in order; the TARG of the first bad word. -/
def performLanes (s : State) (g : CoreId) : List RemoteLane → State × Option Dword
  | [] => (s, none)
  | l :: ls =>
    let (s, bad) := performLane s g l
    let (s, t) := performLanes s g ls
    (s, if bad then some l.targ else t)

/-- A PARITY condition recorded for the row's next boundary (R403). DEDUCED: log entry 34. -/
def Row.dueParity (x : Row) (t : Option Dword) : Row :=
  match t, x.ctl.parityDue with
  | some a, none => { x with ctl := { x.ctl with parityDue := some (6, a) } }
  | _, _ => x

/-- The step of a returning atomic made: the word, and the value that the lane returns; a bad word is not written and its TARG
is reported (R240, R403). -/
def stepAtom (s : State) (p : Producer) (t : AtomStep) : State × Producer × Option Dword :=
  let key := sideKey t.core.toNat t.what.off
  if s.badWord key then (s, p, some t.what.targ)
  else
    let q := match p.dest with
      | .vec d mk v => { p with dest := .vec d mk (if h : t.lane < 64 then v.set t.lane (memWord s.mem key) h else v) }
      | .sca .. => p
    ((performLane s t.core t.what).1, q, none)

/-- The first of two reports. -/
def firstOf (a b : Option Dword) : Option Dword :=
  match a with
  | some x => some x
  | none => b

/-- Steps of a returning atomic made in order (R240). -/
def stepAtoms (s : State) (p : Producer) : List AtomStep → State × Producer × Option Dword
  | [] => (s, { p with todo := [] }, none)
  | t :: l =>
    let (s, q, a) := stepAtom s p t
    let (s, q, b) := stepAtoms s q l
    (s, q, firstOf a b)

/-- The steps of the atomics of some producers made, oldest first, with the first failure. -/
def finishAtoms (s : State) : List Producer → State × List Producer × Option Dword
  | [] => (s, [], none)
  | p :: ps =>
    let (s, q, a) := stepAtoms s p p.todo
    let (s, qs, b) := finishAtoms s ps
    (s, q :: qs, firstOf a b)

/-- A word at which a remote operation of a row acts: its target band, core and core offset. -/
structure FarWord where
  band : Nat
  core : CoreId
  off : Nat
  deriving DecidableEq, Repr

/-- The word of a step. -/
def AtomStep.word (t : AtomStep) : FarWord := ⟨t.band, t.core, t.what.off⟩

/-- The words of a posted write. -/
def Posted.words (p : Posted) : List FarWord := p.lanes.map (fun l => ⟨p.band, p.core, l.off⟩)

/-- The words of the steps of a row's atomics still to be made (R240). -/
def Row.stepWords (x : Row) : List FarWord := x.prods.flatMap (fun p => p.todo.map AtomStep.word)

/-- What holds back a write of a word: a range (R161), or that the window of its band is away (R351). -/
def wordHold (s : State) (w : FarWord) : Option Dom :=
  match sbBlocker s w.core w.off (w.off + 4) true with
  | some d => some d
  | none => if (s.band? w.band).any (Band.gone s) then some .v else none

/-- What holds back the first of some words that are held back. -/
def wordsHold (s : State) (l : List FarWord) : Option Dom := l.findSome? (wordHold s)

/-- What holds back a posted write of a row, or a step of its atomics, that is still to be performed (R161).
DEDUCED: log entry 85. -/
def postedHold (s : State) (x : Row) : Option Dom := wordsHold s (x.posted.flatMap Posted.words ++ x.stepWords)

/-- Posted writes and steps that a range holds back make what needs them performed wait (R161). DEDUCED: log entry 85. -/
def Ctx.needPosted (c : Ctx) : Except Stop Unit :=
  match postedHold c.s c.x with
  | some d => .error (.wait 7 d)
  | none => .ok ()

/-- Posted writes performed at their targets, oldest first (R239). -/
def performPosted (s : State) : List Posted → State × Option Dword
  | [] => (s, none)
  | p :: ps =>
    let (s, t) := performLanes s p.core p.lanes
    let (s, u) := performPosted s ps
    (s, match t with | some a => some a | none => u)

/-- A row's posted writes performed and then the steps of its atomics: the state before the row follows, and the row, with a
PARITY that one of them has reported (R239, R240, R403). -/
def performOwed (s : State) (x : Row) : State × Row :=
  let (t, bad) := performPosted s x.posted
  let (t, ps, sick) := finishAtoms t x.prods
  (t, { x with posted := [], prods := ps }.dueParity (firstOf bad sick))

/-- The steps of a row's atomics made: the state before the row follows, and the row, with a PARITY that one has reported
(R240, R403). -/
def performSteps (s : State) (x : Row) : State × Row :=
  let (t, ps, bad) := finishAtoms s x.prods
  (t, { x with prods := ps }.dueParity bad)

/-- Every posted write of a row is performed, in order, and then the steps of its atomics (R239, R240).
DEDUCED: log entry 25. -/
def flushPosted (s : State) (r : RowId) : State :=
  match s.row? r with
  | none => s
  | some x => let (t, y) := performOwed s x; t.setRow r y

/-- The steps of a row's atomics made, so that a later write of the row to one of their words follows them (R235, R240).
DESIGN CHOICE: log entry 86. -/
def settleAtoms (s : State) (r : RowId) : State :=
  match s.row? r with
  | none => s
  | some x => let (t, y) := performSteps s x; t.setRow r y

/-- An instruction goes on in a state in which earlier accesses of its row have been performed; a PARITY that one of them
reports is taken before it takes effect (R403). -/
def Ctx.performed (c : Ctx) (s : State) : Except Stop Ctx :=
  match s.row? c.r with
  | none => .ok c
  | some y =>
    match y.ctl.parityDue with
    | some (w, t) => .error (parity w t)
    | none => .ok { c with s := s, x := y }

/-- A release at skein scope or wider: the row's posted writes are performed; it waits for a range that holds one of them
(R161, R239). DEDUCED: log entry 25. -/
def Ctx.release (c : Ctx) : Except Stop Ctx := do
  c.needPosted
  c.performed (flushPosted c.s c.r)

/-- A FENCE of a scope below skein: the row's atomics are performed at their banks, posted ones apart (R340); it waits for a
range that holds a step of one (R161). -/
def Ctx.settle (c : Ctx) : Except Stop Ctx := do
  match wordsHold c.s c.x.stepWords with
  | some d => .error (.wait 7 d)
  | none => c.performed (settleAtoms c.s c.r)

/-- One lane's access: the lane, its window offset as formed, its core offset. -/
structure LaneAddr where
  lane : Nat
  off : Int
  core : Nat
  deriving DecidableEq, Repr

/-- A formed address as TARG (R400). -/
def targOf (a : Int) : Dword := BitVec.ofInt 64 a

/-- The checks of R232 on the addresses of the active lanes: MISALIGN on the lowest failing lane, then SIDE_RANGE. -/
def checkWindow (wsize align size : Nat) (l : List (Nat × Int)) : Except Stop Unit :=
  match l.find? (fun p => p.2 % (align : Int) ≠ 0) with
  | some p => .error (misalign (BitVec.ofNat 8 p.1) (targOf p.2))
  | none =>
    match l.find? (fun p => p.2 < 0 || (wsize : Int) < p.2 + size) with
    | some p => .error (sideRange (BitVec.ofNat 8 p.1) (targOf p.2))
    | none => .ok ()

/-- Core offset of a window offset. -/
def Ctx.coreOff (c : Ctx) (off : Int) : Nat := c.band.wbase + off.toNat

/-- Watchpoints, then scoreboard waits, of an access of this row to its own window, and of its posted writes (R161, R235,
R447). -/
def Ctx.guard (c : Ctx) (kind : AccessKind) (size : Nat) (l : List (Nat × Int)) : Except Stop Unit := do
  let g := c.band.core
  watchHit c.s g (c.s.bandAsid c.band) kind
    (l.map (fun p => (c.coreOff p.2, c.coreOff p.2 + size, targOf p.2)))
  l.forM (fun p => sbWait c.s g (c.coreOff p.2) (c.coreOff p.2 + size) (kind != .read))
  if l.isEmpty then .ok () else c.needPosted

/-- The stores of the row's own streams: a store that overlaps a side stream's range waits (R292). -/
def Stream.sideRange (t : Stream) (lw : Nat) : Option (Nat × Nat) :=
  if fld t.grant 61 60 = 2 then some (t.base, t.base + fld t.grant 27 16 * t.stride + 8 * lw) else none

/-- The side range of a stream overlaps [lo, hi) of the window. -/
def Stream.overlaps (t : Stream) (lw : Nat) (lo hi : Int) : Bool :=
  match t.sideRange lw with
  | some (a, b) => decide (lo < (b : Int)) && decide ((a : Int) < hi)
  | none => false

/-- A store to [lo, hi) of the window is held back by a side stream of the same row (R292). -/
def Ctx.sideStreamHold (c : Ctx) (lo hi : Int) : Bool := c.x.mx.anyStream (fun t => t.overlaps c.lw lo hi)

/-- The first lane, in the order given, whose word is bad. -/
def firstBad (s : State) (g : CoreId) (l : List LaneAddr) : Option LaneAddr :=
  l.find? (fun p => s.badWord (sideKey g.toNat p.core))

/-- The words read by a vector load, 0 where a word is bad (R403). -/
def loadLanes (s : State) (g : CoreId) (l : List LaneAddr) : Lanes :=
  l.foldl (fun v p =>
    if h : p.lane < 64 then
      v.set p.lane (if s.badWord (sideKey g.toNat p.core) then 0 else memWord s.mem (sideKey g.toNat p.core)) h
    else v) zeroLanes

/-- Lane stores made in ascending order: the highest lane's value remains (R233). -/
def storeLanes (s : State) (g : CoreId) (v : Lanes) (l : List LaneAddr) : State :=
  l.foldl (fun s p => if h : p.lane < 64 then rowStore4 s (sideKey g.toNat p.core) v[p.lane] else s) s

/-- SideRead of n bytes, once its checks have passed. -/
def Ctx.bytes (c : Ctx) (off n : Nat) : List Byte := memRead c.s.mem (sideKey c.band.core.toNat (c.band.wbase + off)) n

/-- The bytes [off, off + n) of the window hold an uncorrectable word. -/
def Ctx.badBytes (c : Ctx) (off n : Nat) : Bool :=
  let k := sideKey c.band.core.toNat (c.band.wbase + off)
  c.s.badWords.any (fun w => decide (k < 8 * w + 8) && decide (8 * w < k + n))

/-! ### Remote addresses (R237) -/

/-- The band of the same skein and launch with a given index (R237). DEDUCED: log entry 33. -/
def skeinBand (s : State) (b : Band) (ix : Nat) : Option Band :=
  s.bands.find? (fun x => x.launch == b.launch && x.skein == b.skein && x.bandIx == ix && x.parent.isNone)

/-- The checks of R237 on the remote addresses of the active lanes: MISALIGN first, then REMOTE_RANGE.
DEDUCED: log entry 33. -/
def checkRemote (c : Ctx) (l : List (Nat × Int × Nat)) : Except Stop Unit :=
  match l.find? (fun p => p.2.1 % 4 ≠ 0) with
  | some p => .error (misalign (BitVec.ofNat 8 p.1) (targOf ((p.2.2 * 2 ^ 20 : Nat) + p.2.1)))
  | none =>
    match l.find? (fun p =>
        match (if p.2.2 ≤ c.band.nb then skeinBand c.s c.band p.2.2 else none) with
        | some t => (t.wsize : Int) < p.2.1 + 4
        | none => true) with
    | some p => .error (trapOf 0x0C (BitVec.ofNat 8 p.1) (targOf ((p.2.2 * 2 ^ 20 : Nat) + p.2.1)))
    | none => .ok ()

end Sys2Proof.Machine
end

