-- ==== Sys2Proof/Machine/Flags.lean ====
section
/-! DEFINITION. Flags of lane instructions (R96 to R100): the flags of the active lanes, and the lane-wise engine that the
vector families share (R250). -/
namespace Sys2Proof.Machine

/-- The flags of the lanes of a mask, ORed (R97, R250). -/
def laneFlags (mk : Mask) (f : Fin 64 → Flags) : Flags :=
  (List.finRange 64).foldl (fun a i => if mk.getLsbD i.val then a ||| f i else a) 0

/-- What a lane function sees beside its operands: the mode, SAT and FTZ in force, and the selector bit of VSEL. -/
structure LaneEnv where
  mode : RMode
  sat : Bool
  ftz : Bool
  deriving DecidableEq, Repr

/-- The environment of an instance (R54, R100). -/
def Ctx.env (c : Ctx) : LaneEnv := ⟨c.mode, c.sat, c.x.fp.ftz⟩

/-- A function of one lane: environment, lane number, A, B and old D, giving the result and its flags. -/
abbrev LaneFn := LaneEnv → Nat → Word → Word → Word → Word × Flags

/-- Where the B operand of a lane instruction comes from. -/
inductive BSrc
  | vec (tb : Bool)
  | imm
  | absent
  deriving DecidableEq, Repr

/-- The sources of a lane instruction that are vector registers. -/
def laneSources (c : Ctx) (ta : Bool) (bs : BSrc) (dread : Bool) : List VSrc :=
  [⟨c.a, ta, 1⟩] ++ (match bs with | .vec tb => [⟨c.b, tb, 2⟩] | _ => []) ++ (if dread then [⟨c.d, c.td, 0⟩] else [])

/-- The B operand of lane i. -/
def laneB (c : Ctx) (e : Option Entry) (bs : BSrc) : Lanes :=
  match bs with
  | .vec _ => vecValue c.x e c.b
  | .imm => Vector.replicate 64 (c.b.setWidth 32)
  | .absent => zeroLanes

/-- The results of a lane instruction in every lane. -/
def laneResults (c : Ctx) (e : Option Entry) (bs : BSrc) (f : LaneFn) : Vector (Word × Flags) 64 :=
  let va := vecValue c.x e c.a
  let vb := laneB c e bs
  let vd := c.x.vget c.d
  Vector.ofFn (fun i : Fin 64 => f c.env i.val va[i.val] vb[i.val] vd[i.val])

/-- The effect of a lane instruction: waits and traps of its operands, the lane results, the flags of the active lanes,
the write or push (R42, R250). -/
def laneBody (ta : Bool) (bs : BSrc) (dread : Bool) (m : MReg) (f : LaneFn) (c : Ctx) : Except Stop Act := do
  let e ← c.needSources (laneSources c ta bs dread)
  c.needDest c.d
  let res := laneResults c e bs f
  let mk := c.act m
  let y := (afterPop c.x e).raise (laneFlags mk (fun i => res[i.val].2))
  .ok (.done (writeVec c.s c.r y c.d mk (res.map (fun p => p.1))))

/-- A lane instruction with A a vector and B a vector, an immediate or absent. -/
def laneOp (s : State) (d a b : Reg) (m : MReg) (ta : Bool) (bs : BSrc) (dread : Bool) (f : LaneFn) : Out :=
  issue s accRep (fVec d) (fVec a)
    (match bs with | .vec _ => fVec b | .imm => fImm5 b | .absent => fNone)
    (laneBody ta bs dread m f)

/-- The mask written by a comparison: the result in the lanes of L, 0 elsewhere (R250). -/
def maskOf (mk : Mask) (f : Fin 64 → Bool) : Mask :=
  (List.finRange 64).foldl (fun a i => if mk.getLsbD i.val && f i then a ||| (1#64 <<< i.val) else a) 0

/-- A comparison of lanes into a mask register (R250, R257, R262). -/
def maskOp (s : State) (d : MReg) (a b : Reg) (m : MReg) (ta : Bool) (bs : BSrc)
    (f : LaneEnv → Word → Word → Bool) : Out :=
  issue s accRep (fMsk d) (fVec a)
    (match bs with | .vec _ => fVec b | .imm => fImm5 b | .absent => fNone)
    (fun c => do
      let e ← c.needSources ([⟨c.a, ta, 1⟩] ++ (match bs with | .vec tb => [⟨c.b, tb, 2⟩] | _ => []))
      let va := vecValue c.x e c.a
      let vb := laneB c e bs
      let r := maskOf (c.act m) (fun i => f c.env va[i.val] vb[i.val])
      .ok (.done (c.s.setRow c.r ((afterPop c.x e).mset d r))))

end Sys2Proof.Machine
end

