-- ==== Sys2Proof/Machine/Batches.lean ====
section
/-! DEFINITION. Batches: the open commands of a class, sealing, completing in order, the fault summary and the batch record
(R162 to R166). -/
namespace Sys2Proof.Machine

/-- The number of a class (R47). -/
def clsIx : BClass → Fin 5
  | .mx => 0
  | .sh => 1
  | .gs => 2
  | .wk => 3
  | .nw => 4

/-- The batches of a class of a row. -/
def Row.clsOf (x : Row) (c : BClass) : ClassState := x.cls[(clsIx c).val]
/-- The row with the batches of a class changed. -/
def Row.modCls (x : Row) (c : BClass) (f : ClassState → ClassState) : Row :=
  { x with cls := x.cls.set (clsIx c).val (f (x.clsOf c)) }

/-- Sealed batches of a class that are not complete (R162). -/
def ClassState.outstanding (k : ClassState) : Nat := (k.batches.filter (fun b => !b.complete)).length

/-- Batches complete in order: a batch is complete when its commands have retired and its predecessor is (R162). -/
def completeRun : Bool → List BatchRec → List BatchRec
  | _, [] => []
  | prev, b :: bs =>
    let c := b.complete || (prev && b.pending == 0)
    { b with complete := c } :: completeRun c bs

/-- The highest complete batch number. -/
def lastComplete (l : List BatchRec) : Nat := l.foldl (fun a b => if b.complete then max a b.num else a) 0

/-- Batch n has expired: the row has completed its 17th later batch (R162). -/
def batchExpired (l : List BatchRec) (n : Nat) : Bool := decide (n + 17 ≤ lastComplete l)

/-- Completion in order; expired batches that a WAIT has covered are dropped. -/
def ClassState.advance (k : ClassState) : ClassState :=
  let l := completeRun true k.batches
  { k with batches := l.filter (fun b => !(batchExpired l b.num && decide (b.num < k.covered))) }

/-- SEAL: the open commands become the batch of the next number (R164). -/
def ClassState.sealNow (k : ClassState) : ClassState :=
  ClassState.advance
    { k with
      counter := k.counter + 1
      openB := emptyBatch 0 false
      batches := k.batches ++ [{ k.openB with num := k.counter + 1, complete := false }] }

/-- A command is issued into the open commands. -/
def ClassState.enter (k : ClassState) : ClassState :=
  { k with openB := { k.openB with ncmd := k.openB.ncmd + 1, pending := k.openB.pending + 1 } }

/-- The summary bit of a status 0x40 + i (R165). -/
def sumBit (st : Byte) : Byte := if st.toNat ≤ 0x40 then 0 else 1#8 <<< (st.toNat - 0x40)

/-- A command of a batch retires at its position with a status and its first failing address (R147, R166). -/
def BatchRec.retire (b : BatchRec) (pos : Nat) (st : Byte) (addr : Dword) : BatchRec :=
  if st = 0 then { b with pending := b.pending - 1 }
  else
    { b with
      pending := b.pending - 1
      nfail := b.nfail + 1
      sum := b.sum ||| sumBit st
      first := match b.first with
        | some (p, t, a) => if pos < p then some (pos, st, addr) else some (p, t, a)
        | none => some (pos, st, addr) }

/-- A command of a class retires; none names the open commands. -/
def ClassState.retire (k : ClassState) (batch : Option Nat) (pos : Nat) (st : Byte) (addr : Dword) : ClassState :=
  match batch with
  | none => { k with openB := k.openB.retire pos st addr }
  | some n => ClassState.advance
      { k with batches := k.batches.map (fun b => if b.num = n then b.retire pos st addr else b) }

/-- A stream retires: streams of a row complete in issue order, so it is the oldest pending one (R280). -/
def ClassState.retireOldest (k : ClassState) : ClassState :=
  match k.batches.find? (fun b => decide (0 < b.pending)) with
  | some b => k.retire (some b.num) 0 0 0
  | none => k.retire none 0 0 0

/-- The fault summary of the batches that have completed since the last WAIT (R165). -/
def ClassState.summary (k : ClassState) : Byte :=
  k.batches.foldl (fun a b => if b.complete && decide (k.covered ≤ b.num) then a ||| b.sum else a) 0

/-- The batches with the complete ones covered. -/
def ClassState.cover (k : ClassState) : ClassState :=
  ClassState.advance { k with covered := max k.covered (lastComplete k.batches + 1) }

/-- The fields of a batch record other than ST (R166). -/
def BatchRec.fields (b : BatchRec) : Nat :=
  let (fidx, first) := match b.first with
    | some (p, t, _) => (min p 255, t.toNat)
    | none => (0, 0)
  first * 2 ^ 48 + min b.nfail 255 * 2 ^ 40 + fidx * 2 ^ 32 + min b.ncmd 0xFFFF * 2 ^ 16 + b.sum.toNat

/-- The first failing address of a batch, or 0 (R166). -/
def BatchRec.addr (b : BatchRec) : Dword :=
  match b.first with
  | some (_, _, a) => a
  | none => 0

/-- What WSTAT returns for a batch number (R166). -/
def ClassState.wstat (k : ClassState) (n : Nat) (addr : Bool) : Dword :=
  if k.counter + 1 < n then 0
  else if n = k.counter + 1 then (if addr then k.openB.addr else dw k.openB.fields)
  else
    match (if batchExpired k.batches n then none else k.batches.find? (fun b => b.num == n)) with
    | none => if addr then 0 else dw (3 * 2 ^ 62)
    | some b => if addr then b.addr else dw ((if b.complete then 2 else 1) * 2 ^ 62 + b.fields)

/-- The row's open commands of a class become its next batch, and the commands in flight learn their batch (R163, R164). -/
def sealClass (s : State) (r : RowId) (c : BClass) : State :=
  match s.row? r with
  | none => s
  | some x =>
    let n := (x.clsOf c).counter + 1
    let s := s.setRow r (x.modCls c ClassState.sealNow)
    { s with cmds := s.cmds.map (fun k =>
        if k.src = .row r ∧ k.band = x.band ∧ k.cls = c ∧ k.batch = none then { k with batch := some n } else k) }

/-- The five classes in the order of their codes. -/
def allClasses : List BClass := [.mx, .sh, .gs, .wk, .nw]

/-- EXIT seals the classes in which the row has open commands (R163). -/
def sealOpen (s : State) (r : RowId) : State :=
  match s.row? r with
  | none => s
  | some x => (allClasses.filter (fun c => decide (0 < (x.clsOf c).openB.ncmd))).foldl (fun s c => sealClass s r c) s

/-- EXIT waits while a class in which it must seal has 8 sealed batches outstanding (R163). -/
def exitHeld (x : Row) : Bool :=
  allClasses.any (fun c => decide (0 < (x.clsOf c).openB.ncmd) && decide (8 ≤ (x.clsOf c).outstanding))

end Sys2Proof.Machine
end

