-- ==== Sys2Proof/Machine/Lifecycle.lean ====
section
/-! DEFINITION. The end of rows, bands and launches: EXIT's effect, KKIL's effect, the default action on a trap, the
completion of a GBAR, the management log (R224, R269, R301, R356, R360, R377, R406, R413, R484). -/
namespace Sys2Proof.Machine

/-! ### Who is where -/

/-- The rows of a band. -/
def State.rowsOf (s : State) (b : Nat) : List (RowId × Row) := s.rows.filter (fun p => p.2.band == b)
/-- The bands of a launch. -/
def State.bandsOf (s : State) (l : Nat) : List Band := s.bands.filter (fun b => b.launch == l)
/-- A row has a stream running or queued. -/
def Row.streaming (x : Row) : Bool := x.mx.running.isSome || x.mx.queued.isSome
/-- A row has not exited. -/
def Row.live (x : Row) : Bool := x.status != .exited

/-- ROWID of a row (R216). -/
def rowWord (r : RowId) : Dword :=
  dw (r.core.toNat * 2 ^ 10 + r.pane.toNat * 2 ^ 8 + r.prow.toNat)

/-- The row of a core in its die, from the north (R16). -/
def coreRow (g : CoreId) : Nat := g.toNat % 64 / 16 * 2 + g.toNat % 4 / 2
/-- The core column of a core (R16). -/
def coreCol (g : CoreId) : Nat := g.toNat / 4 % 4 * 2 + g.toNat % 2
/-- The core at a row and column of a die (R16). -/
def coreAt (d row col : Nat) : CoreId := BitVec.ofNat 8 (d * 64 + row / 2 * 16 + col / 2 * 4 + row % 2 * 2 + col % 2)

/-! ### The management log (R484) -/

/-- A record appended to the management log: its doubleword 0, WID, TRAPINFO, TARG, PC, extra and place. -/
def logRecord (s : State) (head : Nat) (wid info targ pc extra : Dword) (place : Nat) : State :=
  let r : LogRec := [dw head, dw s.mgmt.refclk, wid, info, targ, pc, extra, dw (place + s.mgmt.resets * 2 ^ 32)]
  { s with mgmt := { s.mgmt with log := s.mgmt.log ++ [r] } }

/-- Queue and ring index of a launch, as a log record holds them. -/
def Launch.logName (l : Launch) : Nat := l.queue.toNat * 2 ^ 16 + l.entry * 2 ^ 20

/-! ### Rows -/

/-- CLOSED on the south port and ORPHAN on the north port of a row whose last stream has completed (R224, R301). -/
def closePorts (s : State) (r : RowId) : State :=
  match s.row? r with
  | none => s
  | some x =>
    let s := match (if x.south.orphan then none else x.south.dest) with
      | some q => s.modRow q (fun y => { y with north := { y.north with closed := true } })
      | none => s
    let s := s.mapRows (fun _ y =>
      if y.south.dest = some r ∧ y.south.orphan = false then { y with south := { y.south with orphan := true } } else y)
    s.modRow r (fun y => { y with north := { y.north with fifo := [], transit := [], bad := [] } })

/-- The lease entry of an exited row frees when its streams and producers have completed (R360); a trap recorded for it
keeps the row until it is handled (R403). DEDUCED: log entry 78. -/
def dropIfDone (s : State) (r : RowId) : State :=
  match s.row? r with
  | some x =>
    if x.status = .exited ∧ x.streaming = false ∧ x.prods = [] ∧ x.ctl.trap = none
    then (s.dropRow r).modBand x.band (fun b => { b with freed := b.freed ++ [(r, x)] }) else s
  | none => s

/-- A row has a remote operation aimed at a band that has not been performed (R239, R240). -/
def Row.aimsAt (x : Row) (b : Nat) : Bool :=
  x.posted.any (fun q => q.band == b) || x.prods.any (fun p => p.todo.any (fun t => t.band == b))

/-- A band's window is still needed: rows, commands, continuations or remote operations (R137, R239, R367), or a save. -/
def Band.busy (s : State) (b : Band) : Bool :=
  s.rows.any (fun p => p.2.band == b.id) || s.cmds.any (fun c => c.band == b.id)
    || s.conts.any (fun k => k.band == b.id) || s.bands.any (fun k => k.parent == some b.id)
    || s.rows.any (fun p => p.2.aimsAt b.id) || b.saveArea.isSome

/-- Windows of bands that have ended are released (R137). -/
def sweepBands (s : State) : State := { s with bands := s.bands.filter (fun b => b.busy s) }

/-- Remaining effect of the end of a row: its ports when no stream is left, its lease entry, its band's window. -/
def settleRow (s : State) (r : RowId) : State :=
  match s.row? r with
  | none => sweepBands s
  | some x => sweepBands (dropIfDone (if x.streaming then s else closePorts s r) r)

/-! ### GBAR (R377, R378) -/

/-- A row waits in GBAR for the current completion. -/
def Row.atGbar (x : Row) : Bool :=
  match x.ctl.barrier with
  | some w => w.gbar && w.result.isNone
  | none => false

/-- Every row of the launch, its continuations included, has arrived or exited, and some row waits (R377). -/
def gbarComplete (s : State) (l : Launch) : Bool :=
  let bs := s.bandsOf l.id
  let live := s.rows.filter (fun p => p.2.live && bs.any (fun b => b.id == p.2.band))
  let held := (bs.flatMap (fun b => b.held)).filter (fun p => p.2.live)
  (live.any (fun p => p.2.atGbar) || held.any (fun h => h.2.atGbar))
    && live.all (fun p => p.2.atGbar) && held.all (fun h => h.2.atGbar)
    && s.conts.all (fun k => k.launch != l.id)

/-- A result word (R372). -/
def resultWord (st : Byte) (slot : BitVec 6) (phase : BitVec 32) : Dword :=
  phase ++ (0 : BitVec 18) ++ slot ++ st

/-- A waiting GBAR receives its result. -/
def gbarResult (seq : BitVec 32) (w : BarWait) : BarWait :=
  if w.gbar && w.result.isNone then { w with result := some (resultWord 0 0 seq) } else w

/-- The clusters of die d that hold a row of the launch, in the order in which the slew limiter visits them (R378). -/
def slewOrder (s : State) (l : Launch) (d : DieId) (seq : BitVec 32) : List (DieId × Nat) :=
  let bs := s.bandsOf l.id
  let holds (c : Nat) := s.rows.any (fun p =>
    p.2.live && dieOf p.1.core == d && decide ((clusterOf p.1.core).toNat % 16 = c) && bs.any (fun b => b.id == p.2.band))
  ((List.range 16).map (fun i => (seq.toNat + i) % 16)).filter holds |>.map (fun c => (d, c))

/-- The launch's GBAR completes where its condition holds: every waiting row has its result, and each die's slew limiter
will release its clusters in groups. -/
def gbarTry (s : State) (l : Nat) : State :=
  match s.launch? l with
  | none => s
  | some k =>
    if gbarComplete s k then
      let bs := s.bandsOf l
      let put (x : Row) : Row :=
        { x with ctl := { x.ctl with barrier := x.ctl.barrier.map (gbarResult k.gbarSeq) } }
      let s1 := s.mapRows (fun _ x => if bs.any (fun b => b.id == x.band) then put x else x)
      let s1 := s1.mapBands (fun b =>
        if b.launch = l then { b with held := b.held.map (fun p : RowId × Row => (p.1, put p.2)) } else b)
      s1.modLaunch l (fun k => { k with
        gbarSeq := k.gbarSeq + 1
        gbarOut := ([0, 1, 2, 3] : List DieId).flatMap (fun d => slewOrder s k d k.gbarSeq) })
    else s

/-! ### EXIT, KKIL and the end of a launch -/

/-- The row's thread ends: its open commands are sealed, its mask stack and hints are discarded (R269). -/
def endThread (s : State) (r : RowId) : State :=
  (sealOpen s r).modRow r (fun x => { x with
    status := .exited, stack := [], hints := {}, repix := 0, ibuf := none
    ctl := RowCtl.start })

/-- EXIT, once R99 has been applied and R163 allows it (R269). DEDUCED: log entry 78. -/
def exitRow (s : State) (r : RowId) (launch : Nat) : State :=
  gbarTry (settleRow (endThread s r) r) launch

/-- A row ended by KKIL: posted operations are performed, streams stop at once, latch and RQ are discarded, the row ends
as by EXIT without R99 (R300, R413). DEDUCED: log entry 78. -/
def killRow (s : State) (r : RowId) : State :=
  let s := flushPosted s r
  let s := s.modRow r (fun x => { x with mx := { x.mx with
    running := none, queued := none, msca := none, mwl := [], latch := [], fly := [], rq := [], latchBad := [], rqBad := [] } })
  let s := s.modCore r.core (fun k => { k with trapQ := k.trapQ.filter (fun q => q != r) })
  settleRow (endThread s r) r

/-- A band ended as by KKIL: every row of it; a pre-emption of it ends and a save is discarded (R413, R419). -/
def killBand (s : State) (b : Nat) : State :=
  let launch := match s.band? b with
    | some k => k.launch
    | none => 0
  let s := s.modBand b (fun k => { k with
    killed := true, preempt := none, saveArea := none, saveLen := 0, savedAt := 0, held := [], heldCmds := [] })
  let s := (s.rowsOf b).foldl (fun s p => killRow s p.1) s
  gbarTry (sweepBands s) launch

/-- The unit of a band for pre-emption: the band, or its whole chain (R366, R416). -/
def unitOf (s : State) (b : Band) : List Band :=
  match b.chain with
  | none => [b]
  | some c => s.bands.filter (fun k => k.launch == b.launch && k.chain == some c)

/-- A band ended by KKIL; in the steps of a pre-emption its whole unit ends with it (R413, R419). -/
def killUnit (s : State) (b : Band) : State :=
  (if b.preempt.isSome then unitOf s b else [b]).foldl (fun s k => killBand s k.id) s

/-- A launch ends: every band as by KKIL, parked continuations included; no further skein is placed and it does not
signal (R144, R356, R406, R479). DEDUCED: log entry 63. -/
def endLaunch (s : State) (l : Nat) : State :=
  let s := { s with conts := s.conts.filter (fun k => k.launch != l) }
  let s := s.modLaunch l (fun k => { k with ended := true, reserved := [] })
  (s.bandsOf l).foldl (fun s b => killBand s b.id) s

/-- The default action on a trapped row: it is recorded in the management log and its launch ends (R406). -/
def defaultAction (s : State) (r : RowId) : State :=
  match s.row? r with
  | none => s
  | some x =>
    match x.ctl.trap, s.band? x.band with
    | some t, some b =>
      match s.launch? b.launch with
      | some l =>
        let head := t.cause.toNat + t.detail.toNat * 2 ^ 8 + l.logName
        endLaunch (logRecord s head x.csr.wid t.info t.targ x.pc 0 (rowWord r).toNat) b.launch
      | none => s
    | _, _ => s

/-- PARITY that arises in a row during the steps of a pre-emption: the row traps and its unit is ended by the default action
(R404, R406, R419). DEDUCED: log entry 34. -/
def endByParity (s : State) (r : RowId) (x : Row) (which : Byte) (targ : Dword) : State :=
  defaultAction (takeTrap s r x 0x16 which 0 targ) r

/-- A trapped row leaves its trap: it is no longer in its core's queue. -/
def untrap (s : State) (r : RowId) : State :=
  (s.modRow r (fun x => { x with ctl := { x.ctl with trap := none } })).modCore r.core
    (fun k => { k with trapQ := k.trapQ.filter (fun q => q != r) })

/-- The monitor is idle: its handler or activation has ended. -/
def monIdle (s : State) (g : CoreId) : State :=
  s.modCore g (fun k => { k with mon := { k.mon with mode := .idle, imx1 := none, imx2 := none, count := 0, row := none } })

/-- KRET: in handler mode the handler ends and the default action is taken; in privileged mode the activation ends (R414). -/
def monRet (s : State) (g : CoreId) : State :=
  let m := (s.core g).mon
  let s := monIdle s g
  match m.mode, m.row with
  | .handler, some r => defaultAction s r
  | _, _ => s

end Sys2Proof.Machine
end

