-- ==== Sys2Proof/Machine/Hint.lean ====
section
/-! DEFINITION. The hint words IMX, REP, MOD and SCHD (R48 to R55), and the words that the core monitor shares with rows:
how it takes a word and how it rejects one (R405, R408). -/
namespace Sys2Proof.Machine

/-! ### The monitor's own step -/

/-- A monitor register; s0 reads zero. -/
def Monitor.sget (m : Monitor) (r : Reg) : Dword := if r = 0 then 0 else m.s[r.toNat]
/-- A monitor register written; s0 ignores writes. -/
def Monitor.sset (m : Monitor) (r : Reg) (v : Dword) : Monitor :=
  if r = 0 then m else { m with s := m.s.set r.toNat v }
/-- The monitor at its next word. -/
def Monitor.advance (m : Monitor) (pc : Dword) : Monitor :=
  { m with pc := pc, imx1 := none, imx2 := none, count := m.count + 1 }
/-- The hints pending in the monitor. -/
def Monitor.hints (m : Monitor) : Hints := { imx1 := m.imx1, imx2 := m.imx2 }
/-- The state with the monitor of a core changed. -/
def State.modMon (s : State) (g : CoreId) (f : Monitor → Monitor) : State :=
  s.modCore g (fun k => { k with mon := f k.mon })

/-- A word the monitor may not execute: a handler fault, which has the effect of KRET (R408); in privileged mode a stop.
DESIGN CHOICE: log entry 20. -/
def monReject (s : State) (g : CoreId) : Out :=
  match (s.core g).mon.mode with
  | .handler => .next (monRet s g)
  | _ => .fault .firmwareWord

/-- A word of the monitor: rejected where an IMX is pending that it does not accept (R49), otherwise its effect. -/
def monWord (s : State) (g : CoreId) (imxOk : Bool) (f : Monitor → Monitor) : Out :=
  if !imxOk && ((s.core g).mon.imx1.isSome || (s.core g).mon.imx2.isSome) then monReject s g
  else .next (s.modMon g f)

/-! ### Hints -/

/-- A hint word of a row: skipped while the divergence mask is empty (R273); ILLEGAL at step 1 where its kind is already
pending (R49); otherwise it sets pending hint state (R48). -/
def hintWord (s : State) (f : Hints → Option Hints) : Out :=
  match s.active with
  | .row r =>
    match s.row? r with
    | none => .fault .noActiveAgent
    | some x =>
      match s.band? x.band with
      | none => .fault .noActiveAgent
      | some b =>
        if x.skips b.laneW then applyAct r s x (.done s)
        else
          match f x.hints with
          | none => applyAct r s x (.stop (illegalAt 1 x.pc))
          | some h => .next ((s.setRow r { issued x (s.stampAt r) with pc := x.pc + 4, ibuf := none, hints := h }).bump)
  | .monitor g => monReject s g
  | _ => .fault .noActiveAgent

/-- A payload added where its kind is not yet pending. -/
def addIfNone (o : Option (BitVec 24)) (p : BitVec 24) (put : Option (BitVec 24) → Hints) : Option Hints :=
  match o with
  | none => some (put (some p))
  | some _ => none

/-- IMX pending: the first, the second, and never a third (R49, R50). -/
def addImx (p : BitVec 24) (h : Hints) : Option Hints :=
  match h.imx1, h.imx2 with
  | none, _ => some { h with imx1 := some p }
  | some _, none => some { h with imx2 := some p }
  | some _, some _ => none

/-- IMX (R50), in a row or in the monitor (R405). -/
def execImx (p : BitVec 24) (s : State) : Out :=
  match s.active with
  | .monitor g =>
    match addImx p (s.core g).mon.hints with
    | none => monReject s g
    | some h => .next (s.modMon g (fun m => { m with
        pc := m.pc + 4, imx1 := h.imx1, imx2 := h.imx2, count := m.count + 1 }))
  | _ => hintWord s (addImx p)

/-- REP (R51). -/
def execRep (c : BitVec 6) (d a b : BitVec 2) (s : State) : Out :=
  hintWord s (fun h => addIfNone h.rep (c ++ d ++ a ++ b ++ (0 : BitVec 12)) (fun o => { h with rep := o }))

/-- MOD (R54). -/
def execMod (r : BitVec 3) (st t w : Bool) (s : State) : Out :=
  hintWord s (fun h => addIfNone h.modp (r ++ bit st ++ bit t ++ bit w ++ (0 : BitVec 18)) (fun o => { h with modp := o }))

/-- SCHD (R55). -/
def execSchd (l : Bool) (y : BitVec 2) (s : State) : Out :=
  hintWord s (fun h => addIfNone h.schd (bit l ++ y ++ (0 : BitVec 21)) (fun o => { h with schd := o }))

end Sys2Proof.Machine
end

