-- ==== Sys2Proof/Machine/Scalar.lean ====
section
/-! DEFINITION. The scalar integer instructions (R91, R253, R254), executed by rows and by the core monitor (R405). -/
namespace Sys2Proof.Machine

/-! ### The operations -/

/-- Quotient (R91). -/
def divOp (u : Bool) (a b : Dword) : Dword :=
  if b = 0 then BitVec.allOnes 64 else if u then a / b else a.sdiv b
/-- Remainder (R91). -/
def remOp (u : Bool) (a b : Dword) : Dword :=
  if b = 0 then a else if u then a % b else a.srem b
/-- High 64 bits of the exact product (R253). -/
def mulhOp (u : Bool) (a b : Dword) : Dword :=
  if u then BitVec.ofNat 64 (a.toNat * b.toNat / 2 ^ 64) else BitVec.ofInt 64 (a.toInt * b.toInt / 2 ^ 64)
/-- Left shift; a count of 64 or more gives 0 (R253). -/
def shlOp (a b : Dword) : Dword := if b.toNat < 64 then a <<< b.toNat else 0
/-- Right shift, arithmetic or logical; a count of 64 or more gives all sign bits or 0 (R253). -/
def shrOp (u : Bool) (a b : Dword) : Dword :=
  if u then (if b.toNat < 64 then a >>> b.toNat else 0) else a.sshiftRight (min b.toNat 63)
/-- Minimum. -/
def minOp (u : Bool) (a b : Dword) : Dword := if (if u then a.ult b else a.slt b) then a else b
/-- Maximum. -/
def maxOp (u : Bool) (a b : Dword) : Dword := if (if u then a.ult b else a.slt b) then b else a
/-- A condition on two words, signed or unsigned (R45). -/
def condOp {n : Nat} (c : Cond) (u : Bool) (a b : BitVec n) : Bool :=
  let lt (x y : BitVec n) := if u then x.ult y else x.slt y
  match c with
  | .eq => a == b
  | .ne => a != b
  | .lt => lt a b
  | .le => !lt b a
  | .gt => lt b a
  | .ge => !lt a b
/-- Set bits among the n low bits. -/
def countBits (a : Nat) : Nat → Nat
  | 0 => 0
  | n + 1 => countBits a n + (a / 2 ^ n) % 2
/-- Leading zeros of an n-bit value. -/
def leadZeros (n a : Nat) : Nat := n - bitLen a

/-! ### The forms -/

/-- A scalar instruction of a row: its sources are full, its destination is not pending, its value is written.
DEDUCED: log entry 19. -/
def scalarRow (ua ub ta tb : Bool) (f : Ctx → Dword) (c : Ctx) : Except Stop Act := do
  if ua then c.parityFirst (if ub then [c.b] else []) [] (c.needS c.a ta 1)
  if ub then c.needS c.b tb 2
  c.needSDst c.d
  .ok (.done (c.s.setRow c.r (c.x.sset c.d (f c))))

/-- A register form of one or two sources. -/
def scalarReg (s : State) (d a b : Reg) (ub ta tb : Bool) (f : Dword → Dword → Dword) : Out :=
  match s.active with
  | .monitor g => monWord s g false (fun m => (m.sset d (f (m.sget a) (m.sget b))).advance (m.pc + 4))
  | _ => issue s accRep (fSca d) (fSca a) (if ub then fSca b else fNone)
      (scalarRow true ub ta tb (fun c => f (c.x.sget c.a) (c.x.sget c.b)))

/-- An immediate form: of the I format with IMX where the entry accepts it, or with an immediate of its own. -/
def scalarImm (s : State) (d a : Reg) (ua imx : Bool) (i : BitVec 14) (f : Dword → Dword → Dword) : Out :=
  match s.active with
  | .monitor g => monWord s g imx (fun m => (m.sset d (f (m.sget a) (immOf m.hints i))).advance (m.pc + 4))
  | _ => issue s (if imx then accAll else accRep) (fSca d) (if ua then fSca a else fNone) fNone
      (scalarRow ua false false false (fun c => f (c.x.sget c.a) (immOf c.x.hints i)))

/-- SADD (R253). -/
def execSadd (d a b : Reg) (ta tb : Bool) (s : State) : Out :=
  scalarReg s d a b true ta tb (fun x y => x + y)

/-- SSUB (R253). -/
def execSsub (d a b : Reg) (ta tb : Bool) (s : State) : Out :=
  scalarReg s d a b true ta tb (fun x y => x - y)

/-- SMUL (R253). -/
def execSmul (d a b : Reg) (ta tb : Bool) (s : State) : Out :=
  scalarReg s d a b true ta tb (fun x y => x * y)

/-- SAND (R253). -/
def execSand (d a b : Reg) (ta tb : Bool) (s : State) : Out :=
  scalarReg s d a b true ta tb (fun x y => x &&& y)

/-- SOR (R253). -/
def execSor (d a b : Reg) (ta tb : Bool) (s : State) : Out :=
  scalarReg s d a b true ta tb (fun x y => x ||| y)

/-- SXOR (R253). -/
def execSxor (d a b : Reg) (ta tb : Bool) (s : State) : Out :=
  scalarReg s d a b true ta tb (fun x y => x ^^^ y)

/-- SSHL (R253). -/
def execSshl (d a b : Reg) (ta tb : Bool) (s : State) : Out :=
  scalarReg s d a b true ta tb shlOp

/-- SMULH (R253). -/
def execSmulh (d a b : Reg) (ta tb u : Bool) (s : State) : Out :=
  scalarReg s d a b true ta tb (mulhOp u)

/-- SDIV (R253). -/
def execSdiv (d a b : Reg) (ta tb u : Bool) (s : State) : Out :=
  scalarReg s d a b true ta tb (divOp u)

/-- SREM (R253). -/
def execSrem (d a b : Reg) (ta tb u : Bool) (s : State) : Out :=
  scalarReg s d a b true ta tb (remOp u)

/-- SSHR (R253). -/
def execSshr (d a b : Reg) (ta tb u : Bool) (s : State) : Out :=
  scalarReg s d a b true ta tb (shrOp u)

/-- SMIN (R253). -/
def execSmin (d a b : Reg) (ta tb u : Bool) (s : State) : Out :=
  scalarReg s d a b true ta tb (minOp u)

/-- SMAX (R253). -/
def execSmax (d a b : Reg) (ta tb u : Bool) (s : State) : Out :=
  scalarReg s d a b true ta tb (maxOp u)

/-- SCMP (R253). -/
def execScmp (d a b : Reg) (ta tb u : Bool) (c : Cond) (s : State) : Out :=
  scalarReg s d a b true ta tb (fun x y => if condOp c u x y then 1 else 0)

/-- SSEL (R253): the selector is s0 to s15, has no trap bit and does not step. -/
def execSsel (d a b : Reg) (ta tb : Bool) (c : BitVec 4) (s : State) : Out :=
  match s.active with
  | .monitor g => monWord s g false (fun m =>
      (m.sset d (if m.sget (c.setWidth 5) ≠ 0 then m.sget a else m.sget b)).advance (m.pc + 4))
  | _ => issue s accRep (fSca d) (fSca a) (fSca b) (fun k => do
      k.parityFirst [k.b, c.setWidth 5] [] (k.needS k.a ta 1)
      k.parityFirst [c.setWidth 5] [] (k.needS k.b tb 2)
      k.needS (c.setWidth 5) false 0
      k.needSDst k.d
      .ok (.done (k.s.setRow k.r (k.x.sset k.d
        (if k.x.sget (c.setWidth 5) ≠ 0 then k.x.sget k.a else k.x.sget k.b)))))

/-- SADDI (R254). -/
def execSaddi (d a : Reg) (i : BitVec 14) (s : State) : Out :=
  scalarImm s d a true true i (fun x y => x + y)

/-- SANDI (R254). -/
def execSandi (d a : Reg) (i : BitVec 14) (s : State) : Out :=
  scalarImm s d a true true i (fun x y => x &&& y)

/-- SORI (R254). -/
def execSori (d a : Reg) (i : BitVec 14) (s : State) : Out :=
  scalarImm s d a true true i (fun x y => x ||| y)

/-- SXORI (R254). -/
def execSxori (d a : Reg) (i : BitVec 14) (s : State) : Out :=
  scalarImm s d a true true i (fun x y => x ^^^ y)

/-- SSHLI (R254). -/
def execSshli (d a : Reg) (n : BitVec 6) (s : State) : Out :=
  scalarImm s d a true false 0 (fun x _ => x <<< n.toNat)

/-- SSHRI (R254): k set is arithmetic. -/
def execSshri (d a : Reg) (k : Bool) (n : BitVec 6) (s : State) : Out :=
  scalarImm s d a true false 0 (fun x _ => if k then x.sshiftRight n.toNat else x >>> n.toNat)

/-- SLI (R254). -/
def execSli (d : Reg) (i : BitVec 14) (s : State) : Out :=
  scalarImm s d 0 false true i (fun _ y => y)

/-- SPOPC (R253). -/
def execSpopc (d a : Reg) (ta : Bool) (s : State) : Out :=
  scalarReg s d a 0 false ta false (fun x _ => dw (countBits x.toNat 64))

/-- SCLZ (R253). -/
def execSclz (d a : Reg) (ta : Bool) (s : State) : Out :=
  scalarReg s d a 0 false ta false (fun x _ => dw (leadZeros 64 x.toNat))

/-- SMOV (R253). -/
def execSmov (d a : Reg) (ta : Bool) (s : State) : Out :=
  scalarReg s d a 0 false ta false (fun x _ => x)

end Sys2Proof.Machine
end

