-- ==== Sys2Proof/Machine/VectorInt.lean ====
section
/-! DEFINITION. The vector integer instructions (R255 to R259). -/
namespace Sys2Proof.Machine

/-- A lane as an integer, unsigned where u is set. -/
def laneInt (u : Bool) (x : Word) : Int := if u then (x.toNat : Int) else x.toInt
/-- An exact result in a lane: clamped to the type under SAT, modulo 2^32 otherwise (R255). -/
def laneSat (u sat : Bool) (v : Int) : Word := BitVec.ofInt 32 (if sat then clampInt (32, !u) v else v)
/-- A lane function that raises no flag and ignores the environment. -/
def pureLane (f : Word → Word → Word) : LaneFn := fun _ _ x y _ => (f x y, 0)
/-- A lane function with an exact integer result, saturating under MOD.SAT (R252). -/
def exactLane (u : Bool) (f : Int → Int → Int → Int) : LaneFn :=
  fun e _ x y z => (laneSat u e.sat (f (laneInt u x) (laneInt u y) (laneInt u z)), 0)
/-- Left shift of a lane; 32 or more gives 0. -/
def laneShl (x y : Word) : Word := if y.toNat < 32 then x <<< y.toNat else 0
/-- Right shift of a lane; 32 or more gives all sign bits or 0. -/
def laneShr (u : Bool) (x y : Word) : Word :=
  if u then (if y.toNat < 32 then x >>> y.toNat else 0) else x.sshiftRight (min y.toNat 31)
/-- Minimum of two lanes. -/
def laneMin (u : Bool) (x y : Word) : Word := if (if u then y.ult x else y.slt x) then y else x
/-- Maximum of two lanes. -/
def laneMax (u : Bool) (x y : Word) : Word := if (if u then x.ult y else x.slt y) then y else x
/-- High 32 bits of the exact product. -/
def laneMulh (u : Bool) (x y : Word) : Word := BitVec.ofInt 32 (laneInt u x * laneInt u y / 2 ^ 32)
/-- Byte j of a lane as an integer. -/
def laneByte (u : Bool) (x : Word) (j : Nat) : Int :=
  let b := x.extractLsb' (8 * j) 8
  if u then (b.toNat : Int) else b.toInt
/-- The four-byte dot product of two lanes. -/
def dot4 (u : Bool) (x y : Word) : Int :=
  laneByte u x 0 * laneByte u y 0 + laneByte u x 1 * laneByte u y 1 + laneByte u x 2 * laneByte u y 2
    + laneByte u x 3 * laneByte u y 3
/-- The 5-bit immediate of VCMPI: sign-extended for signed comparisons (R257). -/
def cmpImm (u : Bool) (y : Word) : Word := if u then y else (y.setWidth 5).signExtend 32

/-- VLI, VADDI and VMOVS: one value per lane without a vector source. -/
def vecFill (c : Ctx) (m : MReg) (v : Word) : Except Stop Act := do
  c.needDest c.d
  .ok (.done (writeVec c.s c.r c.x c.d (c.act m) (Vector.replicate 64 v)))

/-- VMOV under MOD.PW is legal on these fields (R54): a register pair within v0 to v27, reading north or writing south. -/
def pwFields (d a : Reg) : Bool :=
  (a == 28 && (d == 29 || decide (d.toNat ≤ 26))) || (d == 29 && decide (a.toNat ≤ 26))

/-- VMOV under MOD.PW (R54): 64-bit port access. A pair that a repeat would put above v27 is refused as R52 refuses a
field (DEDUCED, log entry 23). -/
def vmovWide (m : MReg) (ta : Bool) (c : Ctx) : Except Stop Act := do
  let mk := c.act m
  if c.a = 28 ∧ c.d = 29 then
    let e ← c.needNorth ta
    c.needSouth
    let y := c.x.pop
    .ok (.done ((pushSouth c.s y (entryPair mk (Entry.low e) (Entry.high e))).setRow c.r y))
  else if c.a = 28 then
    if 26 < c.d.toNat then .error (trapOf 0x13 (c.x.repix.setWidth 8) 0)
    else
      let e ← c.needNorth ta
      c.needVDst c.d
      c.needVDst (c.d + 1)
      let y := ((c.x.pop.vset c.d mk (Entry.low e)).vset (c.d + 1) mk (Entry.high e))
      .ok (.done (c.s.setRow c.r ((y.markV c.d true).markV (c.d + 1) true)))
  else
    if 26 < c.a.toNat then .error (trapOf 0x13 (c.x.repix.setWidth 8) 0)
    else
      c.parityFirst [] [c.a + 1] (c.needV c.a ta 1)
      c.needV (c.a + 1) ta 1
      c.needSouth
      .ok (.done ((pushSouth c.s c.x (entryPair mk (c.x.vget c.a) (c.x.vget (c.a + 1)))).setRow c.r c.x))

/-- VADD (R255). -/
def execVadd (d a b : Reg) (m : MReg) (ta tb u : Bool) (s : State) : Out :=
  laneOp s d a b m ta (.vec tb) false (exactLane u (fun x y _ => x + y))

/-- VSUB (R255). -/
def execVsub (d a b : Reg) (m : MReg) (ta tb u : Bool) (s : State) : Out :=
  laneOp s d a b m ta (.vec tb) false (exactLane u (fun x y _ => x - y))

/-- VMUL (R255). -/
def execVmul (d a b : Reg) (m : MReg) (ta tb u : Bool) (s : State) : Out :=
  laneOp s d a b m ta (.vec tb) false (exactLane u (fun x y _ => x * y))

/-- VMULH (R255). -/
def execVmulh (d a b : Reg) (m : MReg) (ta tb u : Bool) (s : State) : Out :=
  laneOp s d a b m ta (.vec tb) false (pureLane (laneMulh u))

/-- VMAD (R255): D is read. -/
def execVmad (d a b : Reg) (m : MReg) (ta tb u : Bool) (s : State) : Out :=
  laneOp s d a b m ta (.vec tb) true (exactLane u (fun x y z => x * y + z))

/-- VABS (R255). -/
def execVabs (d a : Reg) (m : MReg) (ta : Bool) (s : State) : Out :=
  laneOp s d a 0 m ta .absent false (exactLane false (fun x _ _ => (x.natAbs : Int)))

/-- VMIN (R255). -/
def execVmin (d a b : Reg) (m : MReg) (ta tb u : Bool) (s : State) : Out :=
  laneOp s d a b m ta (.vec tb) false (pureLane (laneMin u))

/-- VMAX (R255). -/
def execVmax (d a b : Reg) (m : MReg) (ta tb u : Bool) (s : State) : Out :=
  laneOp s d a b m ta (.vec tb) false (pureLane (laneMax u))

/-- VAND (R255). -/
def execVand (d a b : Reg) (m : MReg) (ta tb : Bool) (s : State) : Out :=
  laneOp s d a b m ta (.vec tb) false (pureLane (fun x y => x &&& y))

/-- VOR (R255). -/
def execVor (d a b : Reg) (m : MReg) (ta tb : Bool) (s : State) : Out :=
  laneOp s d a b m ta (.vec tb) false (pureLane (fun x y => x ||| y))

/-- VXOR (R255). -/
def execVxor (d a b : Reg) (m : MReg) (ta tb : Bool) (s : State) : Out :=
  laneOp s d a b m ta (.vec tb) false (pureLane (fun x y => x ^^^ y))

/-- VANDN (R255). -/
def execVandn (d a b : Reg) (m : MReg) (ta tb : Bool) (s : State) : Out :=
  laneOp s d a b m ta (.vec tb) false (pureLane (fun x y => x &&& ~~~y))

/-- VSHL (R255). -/
def execVshl (d a b : Reg) (m : MReg) (ta tb : Bool) (s : State) : Out :=
  laneOp s d a b m ta (.vec tb) false (pureLane laneShl)

/-- VSHR (R255). -/
def execVshr (d a b : Reg) (m : MReg) (ta tb u : Bool) (s : State) : Out :=
  laneOp s d a b m ta (.vec tb) false (pureLane (laneShr u))

/-- VSHLI (R255). -/
def execVshli (d a n : Reg) (m : MReg) (ta : Bool) (s : State) : Out :=
  laneOp s d a n m ta .imm false (pureLane laneShl)

/-- VSHRI (R255). -/
def execVshri (d a n : Reg) (m : MReg) (ta u : Bool) (s : State) : Out :=
  laneOp s d a n m ta .imm false (pureLane (laneShr u))

/-- VADDI (R256). -/
def execVaddi (d a : Reg) (i : BitVec 14) (s : State) : Out :=
  issue s accAll (fVec d) (fVec a) fNone
    (fun c => laneBody false .absent false 0 (pureLane (fun x _ => x + (immOf c.x.hints i).setWidth 32)) c)

/-- VCMP (R257). -/
def execVcmp (d : MReg) (a b : Reg) (m : MReg) (ta tb u : Bool) (k : Cond) (s : State) : Out :=
  maskOp s d a b m ta (.vec tb) (fun _ x y => condOp k u x y)

/-- VCMPI (R257). -/
def execVcmpi (d : MReg) (a n : Reg) (m : MReg) (ta u : Bool) (k : Cond) (s : State) : Out :=
  maskOp s d a n m ta .imm (fun _ x y => condOp k u x (cmpImm u y))

/-- VSEL (R258). -/
def execVsel (d a b : Reg) (m : MReg) (ta tb : Bool) (k : MReg) (s : State) : Out :=
  issue s accRep (fVec d) (fVec a) (fVec b)
    (fun c => laneBody ta (.vec tb) false m (fun _ i x y _ => (if (c.x.mget k).getLsbD i then x else y, 0)) c)

/-- VPOPC (R255). -/
def execVpopc (d a : Reg) (m : MReg) (ta : Bool) (s : State) : Out :=
  laneOp s d a 0 m ta .absent false (pureLane (fun x _ => BitVec.ofNat 32 (countBits x.toNat 32)))

/-- VCLZ (R255). -/
def execVclz (d a : Reg) (m : MReg) (ta : Bool) (s : State) : Out :=
  laneOp s d a 0 m ta .absent false (pureLane (fun x _ => BitVec.ofNat 32 (leadZeros 32 x.toNat)))

/-- VMOV (R255, R54). DEDUCED: log entry 23. -/
def execVmov (d a : Reg) (m : MReg) (ta : Bool) (s : State) : Out :=
  issueWith false (pwFields d a) s accRep (fVec d) (fVec a) fNone
    (fun c => if c.pw then vmovWide m ta c else laneBody ta .absent false m (pureLane (fun x _ => x)) c)

/-- VMOVS (R255). -/
def execVmovs (d a : Reg) (m : MReg) (ta : Bool) (s : State) : Out :=
  issue s accRep (fVec d) (fSca a) fNone (fun c => do
    c.needS c.a ta 1
    vecFill c m ((c.x.sget c.a).setWidth 32))

/-- VLI (R256). -/
def execVli (d : Reg) (i : BitVec 14) (s : State) : Out :=
  issue s accAll (fVec d) fNone fNone (fun c => vecFill c 0 ((immOf c.x.hints i).setWidth 32))

/-- VSATN (R259). -/
def execVsatn (d a : Reg) (m : MReg) (ta : Bool) (f : TyCode) (s : State) : Out :=
  laneOp s d a 0 m ta .absent false (pureLane (fun x _ => placeInt (clampInt (tyInt f) x.toInt) (tyInt f)))

/-- VDOT4 (R255): D is read. -/
def execVdot4 (d a b : Reg) (m : MReg) (ta tb u : Bool) (s : State) : Out :=
  laneOp s d a b m ta (.vec tb) true (fun e _ x y z => (laneSat u e.sat (dot4 u x y + laneInt u z), 0))

end Sys2Proof.Machine
end

