-- ==== Sys2Proof/Machine/VectorFloat.lean ====
section
/-! DEFINITION. The vector floating-point, packed-half and conversion instructions (R260 to R266). -/
namespace Sys2Proof.Machine

/-- An FP32 lane function of one operand, with FTZ on input and result (R76). -/
def fp1 (f : RMode → FVal → Rounded) : LaneFn := fun e _ x _ _ => ftzOut e.ftz (f e.mode (ftzIn e.ftz x))
/-- An FP32 lane function of two operands. -/
def fp2 (f : RMode → FVal → FVal → Rounded) : LaneFn :=
  fun e _ x y _ => ftzOut e.ftz (f e.mode (ftzIn e.ftz x) (ftzIn e.ftz y))
/-- VFSGN of one lane (R260). No sign of a NaN is propagated (R74): a NaN vB counts as the canonical NaN, whose sign is 0.
DEDUCED: log entry 82. -/
def signLane (f : SgnOp) : LaneFn := fun e _ x y _ =>
  let a := ftzWord e.ftz x
  let b := if (unpack .f32 y.toNat).isNan then (0x7FC00000 : Word) else ftzWord e.ftz y
  let sg := match f with
    | .cpy => b.msb
    | .neg => !b.msb
    | .xor => xor a.msb b.msb
  if (unpack .f32 a.toNat).isNan then (0x7FC00000, 0)
  else (bit sg ++ a.extractLsb' 0 31, 0)
/-- The half format of a packed instruction. -/
def halfFmt (bf : Bool) : Fmt := if bf then .bf16 else .f16
/-- A packed lane function (R263). -/
def packedLane (bf : Bool) (g : Fmt → RMode → FVal → FVal → FVal → Rounded) : LaneFn := fun e _ x y z =>
  let f := halfFmt bf
  halves (fun a b d => g f e.mode (unpack f a) (unpack f b) (unpack f d)) x y z

/-- VFADD (R260, R261). -/
def execVfadd (d a b : Reg) (m : MReg) (ta tb : Bool) (s : State) : Out :=
  laneOp s d a b m ta (.vec tb) false (fp2 (fun r x y => fAdd .f32 r x y))

/-- VFSUB (R260, R261). -/
def execVfsub (d a b : Reg) (m : MReg) (ta tb : Bool) (s : State) : Out :=
  laneOp s d a b m ta (.vec tb) false (fp2 (fun r x y => fAdd .f32 r x y.negate))

/-- VFMUL (R260, R261). -/
def execVfmul (d a b : Reg) (m : MReg) (ta tb : Bool) (s : State) : Out :=
  laneOp s d a b m ta (.vec tb) false (fp2 (fun r x y => fMul .f32 r x y))

/-- VFMA (R260, R261): D is read. -/
def execVfma (d a b : Reg) (m : MReg) (ta tb : Bool) (s : State) : Out :=
  laneOp s d a b m ta (.vec tb) true (fun e _ x y z =>
    ftzOut e.ftz (fFma .f32 e.mode (ftzIn e.ftz x) (ftzIn e.ftz y) (ftzIn e.ftz z)))

/-- VFMIN (R95, R260). -/
def execVfmin (d a b : Reg) (m : MReg) (ta tb : Bool) (s : State) : Out :=
  laneOp s d a b m ta (.vec tb) false (fun e _ x y _ =>
    (BitVec.ofNat 32 (fMin .f32 (ftzWord e.ftz x).toNat (ftzWord e.ftz y).toNat), 0))

/-- VFMAX (R95, R260). -/
def execVfmax (d a b : Reg) (m : MReg) (ta tb : Bool) (s : State) : Out :=
  laneOp s d a b m ta (.vec tb) false (fun e _ x y _ =>
    (BitVec.ofNat 32 (fMax .f32 (ftzWord e.ftz x).toNat (ftzWord e.ftz y).toNat), 0))

/-- VFSGN (R260). -/
def execVfsgn (d a b : Reg) (m : MReg) (ta tb : Bool) (f : SgnOp) (s : State) : Out :=
  laneOp s d a b m ta (.vec tb) false (signLane f)

/-- VFRCP (R260, R261). -/
def execVfrcp (d a : Reg) (m : MReg) (ta : Bool) (s : State) : Out :=
  laneOp s d a 0 m ta .absent false (fp1 (fRcp .f32))

/-- VFRSQ (R260, R261). -/
def execVfrsq (d a : Reg) (m : MReg) (ta : Bool) (s : State) : Out :=
  laneOp s d a 0 m ta .absent false (fp1 (fRsqrt .f32))

/-- VFSQRT (R260, R261). -/
def execVfsqrt (d a : Reg) (m : MReg) (ta : Bool) (s : State) : Out :=
  laneOp s d a 0 m ta .absent false (fp1 (fSqrt .f32))

/-- VFDIV (R260, R261). -/
def execVfdiv (d a b : Reg) (m : MReg) (ta tb : Bool) (s : State) : Out :=
  laneOp s d a b m ta (.vec tb) false (fp2 (fDiv .f32))

/-- VFEXP2 (R260, R261). -/
def execVfexp2 (d a : Reg) (m : MReg) (ta : Bool) (s : State) : Out :=
  laneOp s d a 0 m ta .absent false (fp1 (fExp2 .f32))

/-- VFLOG2 (R260, R261). -/
def execVflog2 (d a : Reg) (m : MReg) (ta : Bool) (s : State) : Out :=
  laneOp s d a 0 m ta .absent false (fp1 (fLog2 .f32))

/-- VFCMP (R262). -/
def execVfcmp (d : MReg) (a b : Reg) (m : MReg) (ta tb : Bool) (k : Cond) (s : State) : Out :=
  maskOp s d a b m ta (.vec tb) (fun e x y => fCmp k (ftzIn e.ftz x) (ftzIn e.ftz y))

/-- VFCLASS (R262): FTZ does not apply. DEDUCED: log entry 26. -/
def execVfclass (d a : Reg) (m : MReg) (ta : Bool) (s : State) : Out :=
  laneOp s d a 0 m ta .absent false (pureLane (fun x _ => fClass x))

/-- VFRND (R260, R261). -/
def execVfrnd (d a : Reg) (m : MReg) (ta : Bool) (s : State) : Out :=
  laneOp s d a 0 m ta .absent false (fp1 (fRnd .f32))

/-- VFSCL (R260, R261). -/
def execVfscl (d a b : Reg) (m : MReg) (ta tb : Bool) (s : State) : Out :=
  laneOp s d a b m ta (.vec tb) false (fun e _ x y _ => ftzOut e.ftz (fScl .f32 e.mode (ftzIn e.ftz x) y.toInt))

/-- VHADD (R263). -/
def execVhadd (d a b : Reg) (m : MReg) (ta tb bf : Bool) (s : State) : Out :=
  laneOp s d a b m ta (.vec tb) false (packedLane bf (fun f r x y _ => fAdd f r x y))

/-- VHMUL (R263). -/
def execVhmul (d a b : Reg) (m : MReg) (ta tb bf : Bool) (s : State) : Out :=
  laneOp s d a b m ta (.vec tb) false (packedLane bf (fun f r x y _ => fMul f r x y))

/-- VHFMA (R263): D is read. -/
def execVhfma (d a b : Reg) (m : MReg) (ta tb bf : Bool) (s : State) : Out :=
  laneOp s d a b m ta (.vec tb) true (packedLane bf (fun f r x y z => fFma f r x y z))

/-- VCVT (R264, R265): D is read where it is packed. -/
def execVcvt (d a : Reg) (h : Bool) (sr : TyCode) (m : MReg) (ta : Bool) (f : TyCode) (s : State) : Out :=
  laneOp s d a 0 m ta .absent f.packed (fun e _ x _ z =>
    let (v, iv) := cvtSource sr h e.ftz x
    cvtTo f h e.mode e.sat e.ftz v iv z)

/-- VCVTS (R266). -/
def execVcvts (d a b : Reg) (m : MReg) (ta tb : Bool) (f : TyCode) (s : State) : Out :=
  issue s accRep (fVec d) (fVec a) (fSca b) (fun c => do
    c.parityFirst [c.b] [] (c.needV c.a ta 1)
    c.needS c.b tb 2
    laneBody ta .absent false m
      (fun e _ x _ _ => cvtScaled f e.mode e.sat e.ftz x ((c.x.sget c.b).setWidth 32)) c)

end Sys2Proof.Machine
end

