-- ==== Sys2Proof/Machine/Lane.lean ====
section
/-! DEFINITION. Cross-lane and mask instructions (R92 to R94, R242 to R249). -/
namespace Sys2Proof.Machine

/-! ### Moves between lanes -/

/-- A lane of a register by number; lanes of no row read 0. -/
def laneAt (v : Lanes) (i : Nat) : Word := v[i]?.getD 0

/-- A move between lanes: the sources, then the destination, then the values of the lanes of a mask (R242 to R247). -/
def moveLanes (c : Ctx) (l : List VSrc) (sc : Option (Bool)) (mk : Mask) (f : Option Entry → Fin 64 → Word) :
    Except Stop Act := do
  c.parityFirst [] (l.map VSrc.reg) (match sc with
    | some tb => c.needS c.b tb 2
    | none => .ok ())
  let e ← c.needSources l
  c.needDest c.d
  .ok (.done (writeVec c.s c.r (afterPop c.x e) c.d mk (Vector.ofFn (f e))))

/-- The source lane of VSHFL (R242). -/
def shuffleLane (f : BitVec 2) (w i b : Nat) : Nat :=
  match f.toNat with
  | 0 => b % w
  | 1 => i ^^^ (b % w)
  | 2 => if i < b then i else i - b
  | _ => if w ≤ i + b then i else i + b

/-- VSHFL (R242). -/
def execVshfl (d a b : Reg) (m : MReg) (ta tb : Bool) (f : BitVec 2) (s : State) : Out :=
  issue s accRep (fVec d) (fVec a) (fVec b) (fun c =>
    moveLanes c [⟨c.a, ta, 1⟩, ⟨c.b, tb, 2⟩] none (c.act m) (fun e i =>
      laneAt (vecValue c.x e c.a) (shuffleLane f c.lw i.val (laneAt (vecValue c.x e c.b) i.val).toNat)))

/-- VBCST (R242). -/
def execVbcst (d a b : Reg) (m : MReg) (ta tb : Bool) (s : State) : Out :=
  issue s accRep (fVec d) (fVec a) (fSca b) (fun c =>
    moveLanes c [⟨c.a, ta, 1⟩] (some tb) (c.act m) (fun e _ =>
      laneAt (vecValue c.x e c.a) ((c.x.sget c.b).toNat % c.lw)))

/-- The number of lanes of a mask below lane i. -/
def rankOf (mk : Mask) (i : Nat) : Nat := countBits mk.toNat i

/-- VCPRS (R244): lanes 0 to k - 1 receive the lanes of L in ascending order. -/
def execVcprs (d a : Reg) (m : MReg) (ta : Bool) (s : State) : Out :=
  issue s accRep (fVec d) (fVec a) fNone (fun c =>
    let ls := maskLanes (c.act m)
    moveLanes c [⟨c.a, ta, 1⟩] none (laneMask ls.length) (fun e i =>
      laneAt (vecValue c.x e c.a) (ls.getD i.val 64)))

/-- VEXPD (R245): the j-th lane of L receives lane j. -/
def execVexpd (d a : Reg) (m : MReg) (ta : Bool) (s : State) : Out :=
  issue s accRep (fVec d) (fVec a) fNone (fun c =>
    moveLanes c [⟨c.a, ta, 1⟩] none (c.act m) (fun e i =>
      laneAt (vecValue c.x e c.a) (rankOf (c.act m) i.val)))

/-- STOV (R247). -/
def execStov (d a b : Reg) (m : MReg) (ta tb : Bool) (s : State) : Out :=
  issue s accRep (fVec d) (fSca a) (fSca b) (fun c => do
    c.parityFirst [c.b] [] (c.needS c.a ta 1)
    c.needS c.b tb 2
    c.needDest c.d
    let k := (c.x.sget c.b).toNat % c.lw
    .ok (.done (writeVec c.s c.r c.x c.d (c.act m &&& (1#64 <<< k))
      (Vector.replicate 64 ((c.x.sget c.a).setWidth 32)))))

/-- VTOS (R247). -/
def execVtos (d a b : Reg) (ta tb sx : Bool) (s : State) : Out :=
  issue s accRep (fSca d) (fVec a) (fSca b) (fun c => do
    c.parityFirst [] [c.a] (c.needS c.b tb 2)
    let e ← c.needSources [⟨c.a, ta, 1⟩]
    c.needSDst c.d
    let v := laneAt (vecValue c.x e c.a) ((c.x.sget c.b).toNat % c.lw)
    .ok (.done (c.s.setRow c.r ((afterPop c.x e).sset c.d (if sx then v.signExtend 64 else v.setWidth 64)))))

/-! ### Reductions and scans -/

/-- A word of a reduction's type with its NaNs canonical: no payload and no sign of a NaN is delivered (R74, R94). -/
def redCanon (y : RedTy) (v : Word) : Word :=
  let canon (f : Fmt) (x : Nat) : Nat := if (unpack f x).isNan then f.nan else x
  match y with
  | .i32 | .n32 => v
  | .f32 => BitVec.ofNat 32 (canon .f32 v.toNat)
  | .bf16x2 => BitVec.ofNat 32 (canon .bf16 (v.toNat % 2 ^ 16) + canon .bf16 (v.toNat / 2 ^ 16) * 2 ^ 16)

/-- The leaves of a tree: FTZ applies to FP32 inputs, an inactive lane gives the identity (R74, R94, R243). -/
def redLeaves (p : RedOp) (y : RedTy) (ftz : Bool) (mk : Mask) (v : Lanes) (w : Nat) : List Word :=
  (List.range w).map (fun i =>
    if mk.getLsbD i then redCanon y (if y = .f32 then ftzWord ftz (laneAt v i) else laneAt v i) else redIdentity p y)

/-- One level of the tree of R92. -/
def redLevel (f : Word → Word → Word × Flags) : List Word → List Word × Flags
  | a :: b :: l =>
    let (z, fl) := f a b
    let (zs, fs) := redLevel f l
    (z :: zs, fl ||| fs)
  | l => (l, 0)

/-- The levels of the tree until one value remains (R92). -/
def redTree (f : Word → Word → Word × Flags) : Nat → List Word → List Word × Flags
  | 0, l => (l, 0)
  | n + 1, l =>
    let (l1, fl) := redLevel f l
    let (l2, fs) := redTree f n l1
    (l2, fl ||| fs)

/-- The reduction of the lanes of a mask, at lane width w (R92, R243). -/
def reduceLanes (p : RedOp) (y : RedTy) (ftz : Bool) (mk : Mask) (v : Lanes) (w : Nat) : Word × Flags :=
  let (l, fl) := redTree (redOp p y) 6 (redLeaves p y ftz mk v w)
  (l.headD 0, fl)

/-- One step of the Hillis-Steele scan at distance d (R93); the flags are those of the nodes of active lanes (R97, R243). -/
def scanStep (f : Word → Word → Word × Flags) (mk : Mask) (d : Nat) (l : List Word) : List Word × Flags :=
  let r := (List.range l.length).map (fun i =>
    if i < d then (l.getD i 0, (0 : Flags))
    else
      let n := f (l.getD i 0) (l.getD (i - d) 0)
      (n.1, if mk.getLsbD i then n.2 else 0))
  (r.map (fun p => p.1), r.foldl (fun a p => a ||| p.2) 0)

/-- The scan of the lanes of a mask, at lane width w (R93, R243). -/
def scanLanes (p : RedOp) (y : RedTy) (ftz : Bool) (mk : Mask) (v : Lanes) (w : Nat) : List Word × Flags :=
  ([1, 2, 4, 8, 16, 32].filter (fun d => decide (d < w))).foldl
    (fun acc d => let (l, fl) := scanStep (redOp p y) mk d acc.1; (l, acc.2 ||| fl))
    (redLeaves p y ftz mk v w, 0)

/-- The row with a long-latency producer pending (R221, R222): its destination is empty until it completes. -/
def Row.produce (x : Row) (p : Producer) : Row :=
  let x := match p.dest with
    | .vec d _ _ => x.markV d false
    | .sca d _ => x.markS d false
  { x with prods := x.prods ++ [p] }

/-- A reduction of this type can raise a flag. -/
def redRaises : RedTy → Bool
  | .i32 | .n32 => false
  | .f32 | .bf16x2 => true

/-- VRED (R243): a producer of a scalar. DEDUCED: log entry 28. -/
def execVred (d a : Reg) (m : MReg) (ta : Bool) (p : RedOp) (y : RedTy) (s : State) : Out :=
  issue s accRep (fSca d) (fVec a) fNone (fun c => do
    let e ← c.needSources [⟨c.a, ta, 1⟩]
    c.needSDst c.d
    let (v, fl) := reduceLanes p y c.x.fp.ftz (c.act m) (vecValue c.x e c.a) c.lw
    let w := if y = .i32 then v.signExtend 64 else v.setWidth 64
    .ok (.done (c.s.setRow c.r ((afterPop c.x e).produce { dest := .sca c.d w, raises := redRaises y, fl := fl }))))

/-- VSCAN (R243): a producer of a vector. DEDUCED: log entry 28. -/
def execVscan (d a : Reg) (m : MReg) (ta : Bool) (p : RedOp) (y : RedTy) (s : State) : Out :=
  issue s accRep (fVec d) (fVec a) fNone (fun c => do
    let e ← c.needSources [⟨c.a, ta, 1⟩]
    c.needVDst c.d
    let (l, fl) := scanLanes p y c.x.fp.ftz (c.act m) (vecValue c.x e c.a) c.lw
    let v : Lanes := Vector.ofFn (fun i : Fin 64 => l.getD i.val 0)
    .ok (.done (c.s.setRow c.r ((afterPop c.x e).produce { dest := .vec c.d (c.act m) v, raises := redRaises y, fl := fl }))))

/-! ### Masks -/

/-- The value of MPOPC over a set of lanes (R246). -/
def popValue (f : PopFn) (mk : Mask) (w : Nat) : Nat :=
  match f with
  | .count => (maskLanes mk).length
  | .lowest => (maskLanes mk).headD w
  | .highest => (maskLanes mk).getLastD w

/-- MPOPC (R246). -/
def execMpopc (d : Reg) (a m : MReg) (f : PopFn) (s : State) : Out :=
  issue s accRep (fSca d) (fMsk a) fNone (fun c => do
    c.needSDst c.d
    .ok (.done (c.s.setRow c.r (c.x.sset c.d (dw (popValue f (c.x.mget a &&& c.act m) c.lw))))))

/-- The operation of MLOG (R248). -/
def maskLogic (f : MaskOp) (a b : Mask) : Mask :=
  match f with
  | .and => a &&& b
  | .or => a ||| b
  | .xor => a ^^^ b
  | .andn => a &&& ~~~b
  | .not => ~~~a
  | .set => BitVec.allOnes 64
  | .clear => 0

/-- MLOG (R248). -/
def execMlog (d a b : MReg) (f : MaskOp) (s : State) : Out :=
  issue s accRep (fMsk d) (fMsk a) (fMsk b) (fun c =>
    .ok (.done (c.s.setRow c.r (c.x.mset d (maskLogic f (c.x.mget a) (c.x.mget b) &&& laneMask c.lw)))))

/-- MMOVS, mask to scalar (R248). -/
def execMmovsMS (d : Reg) (a : MReg) (s : State) : Out :=
  issue s accRep (fSca d) (fMsk a) fNone (fun c => do
    c.needSDst c.d
    .ok (.done (c.s.setRow c.r (c.x.sset c.d (c.x.mget a &&& laneMask c.lw)))))

/-- MMOVS, scalar to mask (R248). -/
def execMmovsSM (d : MReg) (a : Reg) (ta : Bool) (s : State) : Out :=
  issue s accRep (fMsk d) (fSca a) fNone (fun c => do
    c.needS c.a ta 1
    .ok (.done (c.s.setRow c.r (c.x.mset d (c.x.sget c.a &&& laneMask c.lw)))))

end Sys2Proof.Machine
end

