-- ==== Sys2Proof/Machine/Mem.lean ====
section
/-! DEFINITION. Loads, stores, remote accesses and atomics of rows, and the port instructions (R229 to R241). -/
namespace Sys2Proof.Machine

/-! ### Local vector accesses (R232 to R235) -/

/-- The lanes of L with the addresses a function gives them. -/
def laneAddrs (mk : Mask) (f : Nat → Int) : List (Nat × Int) := (maskLanes mk).map (fun i => (i, f i))

/-- Lane addresses as accesses of the window. -/
def Ctx.places (c : Ctx) (l : List (Nat × Int)) : List LaneAddr := l.map (fun p => ⟨p.1, p.2, c.coreOff p.2⟩)

/-- The checks and waits of a local access of n bytes per lane: the window (R232), watchpoints (R447), the scoreboard
(R161), and for a store the row's own side streams (R292). -/
def Ctx.localGuard (c : Ctx) (kind : AccessKind) (align n : Nat) (l : List (Nat × Int)) : Except Stop Unit := do
  checkWindow c.band.wsize align n l
  c.guard kind n l
  if kind != .read && l.any (fun p => c.sideStreamHold p.2 (p.2 + n)) then .error (.wait c.x.mx.busyReason .m)
  else .ok ()

/-- The effect of a vector load: the row's posted writes to the words it reads have been performed, the values are bound,
and the register is empty until the producer completes; a load with no active lane has no effect and causes no wait
(R221, R232, R235; DESIGN CHOICE, log entry 21). -/
def vecLoad (c : Ctx) (x : Row) (mk : Mask) (l : List (Nat × Int)) : Act :=
  if l.isEmpty then .done (c.s.setRow c.r x) else
  let s := flushPosted (c.s.setRow c.r x) c.r
  let ps := c.places l
  let v := loadLanes s c.band.core ps
  let bad := (firstBad s c.band.core ps).map (fun p => targOf p.off)
  .done (s.modRow c.r (fun y => y.produce { dest := .vec c.d mk v, parity := bad }))

/-- The effect of a vector store, none where no lane is active; a bad word is not written and the row traps (R232, R233,
R403; DEDUCED, log entry 22). -/
def vecStore (c : Ctx) (x : Row) (v : Lanes) (l : List (Nat × Int)) : Act :=
  if l.isEmpty then .done (c.s.setRow c.r x) else
  let s := flushPosted (c.s.setRow c.r x) c.r
  let ps := c.places l
  match firstBad s c.band.core ps with
  | some p => .stop (parity 6 (targOf p.off))
  | none => .done (storeLanes s c.band.core v ps)

/-- A vector load: its scalar sources, the index entry where X names v28, its destination, then the access. -/
def loadBody (m : MReg) (xs : List Reg) (xv : List VSrc) (addr : Ctx → Option Entry → Nat → Int) (c : Ctx) :
    Except Stop Act := do
  xs.forM (fun r => c.needS r false 1)
  let e ← c.needSources xv
  c.needVDst c.d
  let l := laneAddrs (c.act m) (addr c e)
  c.localGuard .read 4 4 l
  .ok (vecLoad c (afterPop c.x e) (c.act m) l)

/-- A vector store: D is read, and may name v28, v30 or v31 (R234). -/
def storeBody (m : MReg) (xs : List Reg) (xv : List VSrc) (addr : Ctx → Option Entry → Nat → Int) (c : Ctx) :
    Except Stop Act := do
  xs.forM (fun r => c.needS r false 1)
  let e ← c.needSources (xv ++ [⟨c.d, c.td, 0⟩])
  let l := laneAddrs (c.act m) (addr c e)
  c.localGuard .write 4 4 l
  .ok (vecStore c (afterPop c.x e) (vecValue c.x e c.d) l)

/-- Address of lane i of LDV and STV. -/
def addrUnit (o : BitVec 6) (c : Ctx) (_ : Option Entry) (i : Nat) : Int :=
  ((c.x.sget c.a).toNat + 4 * o.toNat + 4 * i : Nat)
/-- Address of lane i of LDVS and STVS: a signed stride. -/
def addrStride (o : BitVec 6) (c : Ctx) (_ : Option Entry) (i : Nat) : Int :=
  ((c.x.sget c.a).toNat + 4 * o.toNat : Nat) + (c.x.sget c.b).toInt * i
/-- Address of lane i of LDVX and STVX: an unsigned index, scaled. -/
def addrIndex (k : BitVec 2) (o : BitVec 4) (c : Ctx) (e : Option Entry) (i : Nat) : Int :=
  ((c.x.sget c.a).toNat + 4 * o.toNat + 2 ^ k.toNat * (laneAt (vecValue c.x e c.b) i).toNat : Nat)

/-- LDV (R232). -/
def execLdv (d b : Reg) (m : MReg) (o : BitVec 6) (s : State) : Out :=
  issue s accRep (fVec d) (fSca b) fNone (fun c => loadBody m [c.a] [] (addrUnit o) c)
/-- STV (R232). DEDUCED: log entry 22. -/
def execStv (d b : Reg) (m : MReg) (o : BitVec 6) (s : State) : Out :=
  issue s accRep (fVec d) (fSca b) fNone (fun c => storeBody m [c.a] [] (addrUnit o) c)
/-- LDVS (R232). -/
def execLdvs (d b x : Reg) (m : MReg) (o : BitVec 6) (s : State) : Out :=
  issue s accRep (fVec d) (fSca b) (fSca x) (fun c => loadBody m [c.a, c.b] [] (addrStride o) c)
/-- STVS (R232). -/
def execStvs (d b x : Reg) (m : MReg) (o : BitVec 6) (s : State) : Out :=
  issue s accRep (fVec d) (fSca b) (fSca x) (fun c => storeBody m [c.a, c.b] [] (addrStride o) c)
/-- LDVX (R232). -/
def execLdvx (d b x : Reg) (m : MReg) (k : BitVec 2) (o : BitVec 4) (s : State) : Out :=
  issue s accRep (fVec d) (fSca b) (fVec x) (fun c => loadBody m [c.a] [⟨c.b, false, 2⟩] (addrIndex k o) c)
/-- STVX (R232). -/
def execStvx (d b x : Reg) (m : MReg) (k : BitVec 2) (o : BitVec 4) (s : State) : Out :=
  issue s accRep (fVec d) (fSca b) (fVec x) (fun c => storeBody m [c.a] [⟨c.b, false, 2⟩] (addrIndex k o) c)

/-! ### Scalar accesses (R236) -/

/-- The window offset of LDS and STS. -/
def addrScalar (o : BitVec 6) (c : Ctx) : Int := ((c.x.sget c.a).toNat + 8 * o.toNat : Nat)

/-- LDS (R236): a producer of a scalar. -/
def execLds (d b : Reg) (o : BitVec 6) (s : State) : Out :=
  issue s accRep (fSca d) (fSca b) fNone (fun c => do
    c.needS c.a false 1
    c.needSDst c.d
    let off := addrScalar o c
    c.localGuard .read 8 8 [(0, off)]
    let s := flushPosted c.s c.r
    let key := sideKey c.band.core.toNat (c.coreOff off)
    let bad := s.badWord key
    .ok (.done (s.modRow c.r (fun y => y.produce
      { dest := .sca c.d (if bad then 0 else memDword s.mem key), parity := if bad then some (targOf off) else none }))))

/-- STS (R236): a whole word, which replaces a bad one (R403). -/
def execSts (d b : Reg) (o : BitVec 6) (s : State) : Out :=
  issue s accRep (fSca d) (fSca b) fNone (fun c => do
    c.needS c.a false 1
    c.needS c.d c.td 0
    let off := addrScalar o c
    c.localGuard .write 8 8 [(0, off)]
    let s := flushPosted c.s c.r
    .ok (.done (rowStore8 s (sideKey c.band.core.toNat (c.coreOff off)) (c.x.sget c.d))))

/-! ### Remote accesses (R237 to R239) -/

/-- One lane of a remote access: the lane, its offset as formed, and the address bits above it. -/
structure RemoteAddr where
  lane : Nat
  off : Int
  up : Nat
  deriving DecidableEq, Repr

/-- TARG of a remote address (R400). -/
def RemoteAddr.targ (p : RemoteAddr) : Dword := targOf ((p.up * 2 ^ 20 : Nat) + p.off)
/-- The target band of a remote address. -/
def remoteBand (c : Ctx) (p : RemoteAddr) : Option Band :=
  if p.up ≤ c.band.nb then skeinBand c.s c.band p.up else none
/-- The number of the target band of a remote address that has passed its checks. -/
def remoteBandId (c : Ctx) (p : RemoteAddr) : Nat := (remoteBand c p).elim c.band.id Band.id
/-- The window of a target band is away: an access to it waits until it is restored (R351). DEDUCED: log entry 95. -/
def remoteSaved (c : Ctx) (l : List RemoteAddr) : Bool :=
  l.any (fun p => (remoteBand c p).any (Band.gone c.s))
/-- Core and core offset of a remote address that has passed its checks. -/
def remotePlace (c : Ctx) (p : RemoteAddr) : CoreId × Nat :=
  match remoteBand c p with
  | some t => (t.core, t.wbase + p.off.toNat)
  | none => (c.band.core, 0)

/-- Watchpoints of the target cores: the lowest watchpoint that a lane matches, and its lowest lane (R447). -/
def remoteWatch (c : Ctx) (kind : AccessKind) (l : List RemoteAddr) : Except Stop Unit :=
  let hit (n : Fin 4) := l.find? (fun p =>
    let (g, k) := remotePlace c p
    watchMatches (c.s.core g).dbg n (c.s.bandAsid c.band) kind k (k + 4))
  match [0, 1, 2, 3].findSome? (fun n : Fin 4 => (hit n).map (fun p => (n, p))) with
  | some (n, p) => .error (trapOf 0x0F (BitVec.ofNat 8 n.val) (targOf p.off))
  | none => .ok ()

/-- The checks and waits of a remote access: MISALIGN, REMOTE_RANGE, watchpoints, a target that is saved, the scoreboard of
the target core, the row's own side streams where it writes its own window (R161, R237, R292, R351, R447). -/
def Ctx.remoteGuard (c : Ctx) (kind : AccessKind) (l : List RemoteAddr) : Except Stop Unit := do
  checkRemote c (l.map (fun p => (p.lane, p.off, p.up)))
  remoteWatch c kind l
  if remoteSaved c l then .error (.wait 7 .v)
  l.forM (fun p =>
    let (g, k) := remotePlace c p
    sbWait c.s g k (k + 4) (kind != .read))
  if kind != .read && l.any (fun p => p.up == c.band.bandIx && c.sideStreamHold p.off (p.off + 4))
  then .error (.wait c.x.mx.busyReason .m) else .ok ()

/-- The remote addresses of RLDV and RSTV (R238). -/
def remoteUnit (o : BitVec 6) (mk : Mask) (c : Ctx) : List RemoteAddr :=
  let a := (c.x.sget c.a).toNat
  (maskLanes mk).map (fun i => ⟨i, (a % 2 ^ 20 + 4 * o.toNat + 4 * i : Nat), a / 2 ^ 20⟩)

/-- The words that a remote load reads, 0 where a word is bad. -/
def remoteLoad (s : State) (c : Ctx) (l : List RemoteAddr) : Lanes :=
  l.foldl (fun v p =>
    if h : p.lane < 64 then
      let (g, k) := remotePlace c p
      let key := sideKey g.toNat k
      v.set p.lane (if s.badWord key then 0 else memWord s.mem key) h
    else v) zeroLanes

/-- The first lane of a remote access whose word is bad. -/
def remoteBad (s : State) (c : Ctx) (l : List RemoteAddr) : Option RemoteAddr :=
  l.find? (fun p => let (g, k) := remotePlace c p; s.badWord (sideKey g.toNat k))

/-- RLDV (R238): a producer, under R232 where no lane is active. -/
def execRldv (d b : Reg) (m : MReg) (o : BitVec 6) (s : State) : Out :=
  issue s accRep (fVec d) (fSca b) fNone (fun c => do
    c.needS c.a false 1
    c.needVDst c.d
    let l := remoteUnit o (c.act m) c
    c.remoteGuard .read l
    if l.isEmpty then .ok (.done c.s) else
    c.needPosted
    let s := flushPosted c.s c.r
    .ok (.done (s.modRow c.r (fun y => y.produce
      { dest := .vec c.d (c.act m) (remoteLoad s c l), parity := (remoteBad s c l).map RemoteAddr.targ }))))

/-- Writes posted by lanes that name one band (R239). -/
def postLanes (c : Ctx) (l : List RemoteAddr) (op : Option AtomOp) (b d : Lanes) : Posted :=
  ⟨(match l with
    | p :: _ => (remotePlace c p).1
    | [] => c.band.core),
   (match l with
    | p :: _ => remoteBandId c p
    | [] => c.band.id),
   l.map (fun p => ⟨(remotePlace c p).2, p.targ, op, laneAt b p.lane, laneAt d p.lane⟩)⟩

/-- A posted write to some words comes after the steps of the row's atomics: they are made first, and while a range holds one
back, a write to a word of theirs waits (R161, R235, R240). DESIGN CHOICE: log entry 86. -/
def afterSteps (s : State) (r : RowId) (x : Row) (p : Posted) : Except Stop State :=
  match wordsHold s x.stepWords with
  | none => .ok (settleAtoms s r)
  | some d => if p.words.any (fun w => x.stepWords.contains w) then .error (.wait 7 d) else .ok s

/-- RSTV (R238): posted, unless no lane is active. All its lanes name one band. -/
def execRstv (d b : Reg) (m : MReg) (o : BitVec 6) (s : State) : Out :=
  issue s accRep (fVec d) (fSca b) fNone (fun c => do
    c.needS c.a false 1
    let e ← c.needSources [⟨c.d, c.td, 0⟩]
    let l := remoteUnit o (c.act m) c
    c.remoteGuard .write l
    let v := vecValue c.x e c.d
    let s := c.s.setRow c.r (afterPop c.x e)
    if l.isEmpty then .ok (.done s) else
    let p := postLanes c l none v v
    let t ← afterSteps s c.r c.x p
    .ok (.done (t.modRow c.r (fun y => { y with posted := y.posted ++ [p] }))))

/-! ### Atomics (R240, R241) -/

/-- The steps of a returning atomic in ascending order of its lanes (R240). Each lane gives its lane number, core, band, core
offset and TARG. -/
def atomSteps (p : AtomOp) (b d : Lanes) (l : List (Nat × CoreId × Nat × Nat × Dword)) : List AtomStep :=
  l.map (fun (i, g, t, k, a) => ⟨i, g, t, ⟨k, a, some p, laneAt b i, laneAt d i⟩⟩)

/-- A returning atomic's producer: its lanes' steps are still to be made. -/
def atomProducer (d : Reg) (mk : Mask) (l : List AtomStep) : Producer := { dest := .vec d mk zeroLanes, todo := l }

/-- An atomic with release ordering takes a PARITY that a posted write of the row reports before it takes effect (R239, R240,
R403). -/
def Ctx.releases (c : Ctx) (ord : BitVec 2) : Except Stop Unit :=
  if ord.getLsbD 1 then (c.performed (flushPosted c.s c.r)).map (fun _ => ()) else .ok ()

/-- The compare values of a compare-and-swap are a source, read at issue (R240). -/
def casSource (p : AtomOp) (d : Reg) (td : Bool) : List VSrc := if p = .cas then [⟨d, td, 0⟩] else []

/-- ATOM (R240): a producer whose steps are made one by one, each indivisible, by the turns of its row, at the latest before
it completes or the row's next access; the row's posted writes are performed first (R239). DESIGN CHOICE: log entry 86. -/
def execAtom (d a b : Reg) (m : MReg) (ord : BitVec 2) (_sc : Bool) (p : AtomOp) (s : State) : Out :=
  issue s accRep (fVec d) (fVec a) (fVec b) (fun c => do
    let e ← c.needSources ([⟨c.a, false, 1⟩, ⟨c.b, false, 2⟩] ++ casSource p c.d c.td)
    c.needVDst c.d
    let va := vecValue c.x e c.a
    let l := laneAddrs (c.act m) (fun i => ((laneAt va i).toNat : Int))
    c.localGuard .update 4 4 l
    if l.isEmpty then .ok (.done (c.s.setRow c.r (afterPop c.x e))) else
    c.releases ord
    let s := flushPosted (c.s.setRow c.r (afterPop c.x e)) c.r
    let ps := (c.places l).map (fun q => (q.lane, c.band.core, c.band.id, q.core, targOf q.off))
    match (firstBad s c.band.core (c.places l)) with
    | some q => .ok (.stop (parity 6 (targOf q.off)))
    | none => .ok (.done (s.modRow c.r (fun y => y.produce
        (atomProducer c.d (c.act m) (atomSteps p (vecValue c.x e c.b) (c.x.vget c.d) ps))))))

/-- RATOM (R240, R241): with RET a producer as ATOM is, otherwise posted; only a compare-and-swap reads D there.
DESIGN CHOICE: log entry 86. -/
def execRatom (d a b : Reg) (m : MReg) (ord : BitVec 2) (rt : Bool) (p : AtomOp) (s : State) : Out :=
  issue s accRep (if !rt && p != .cas then fNone else fVec d) (fVec a) (fVec b) (fun c => do
    let e ← c.needSources ([⟨c.a, false, 1⟩, ⟨c.b, false, 2⟩] ++ casSource p c.d c.td)
    if rt then c.needVDst c.d
    let va := vecValue c.x e c.a
    let l : List RemoteAddr := (maskLanes (c.act m)).map (fun i =>
      let w := (laneAt va i).toNat
      ⟨i, (w % 2 ^ 20 : Nat), w / 2 ^ 20⟩)
    c.remoteGuard .update l
    if l.isEmpty then .ok (.done (c.s.setRow c.r (afterPop c.x e))) else
    c.needPosted
    c.releases ord
    let s := flushPosted (c.s.setRow c.r (afterPop c.x e)) c.r
    let vb := vecValue c.x e c.b
    let vd := vecValue c.x e c.d
    if rt then
      let ps := l.map (fun q => (q.lane, (remotePlace c q).1, remoteBandId c q, (remotePlace c q).2, q.targ))
      .ok (.done (s.modRow c.r (fun y => y.produce (atomProducer c.d (c.act m) (atomSteps p vb vd ps)))))
    else
      .ok (.done (s.modRow c.r (fun y => { y with
        posted := y.posted ++ l.map (fun q => postLanes c [q] (some p) vb vd) }))))

/-! ### Ports (R229 to R231) -/

/-- TAK2 (R229). A pair that a repeat would put above v27 is refused as R52 refuses a field (DEDUCED, log entry 23). -/
def execTak2 (d : Reg) (m : MReg) (ta w : Bool) (s : State) : Out :=
  issue s accRep (fVec d) (fVec 28) fNone (fun c => do
    if w && decide (26 < c.d.toNat) then .error (trapOf 0x13 (c.x.repix.setWidth 8) 0)
    let e ← c.needNorth ta
    c.needVDst c.d
    if w then c.needVDst (c.d + 1)
    c.needSouth
    let mk := c.act m
    let y := c.x.pop.vset c.d mk (Entry.low e)
    let y := if w then y.vset (c.d + 1) mk (Entry.high e) else y
    .ok (.done ((pushSouth c.s y e).setRow c.r y)))

/-- PUT2 (R230). -/
def execPut2 (a b : Reg) (m : MReg) (ta tb : Bool) (s : State) : Out :=
  issue s accRep (fVec 29) (fVec a) (fVec b) (fun c => do
    let e ← c.needSources [⟨c.a, ta, 1⟩, ⟨c.b, tb, 2⟩]
    c.needSouth
    let y := afterPop c.x e
    .ok (.done ((pushSouth c.s y (entryPair (c.act m) (vecValue c.x e c.a) (vecValue c.x e c.b))).setRow c.r y)))

/-- The word of PQRY (R231, R302). -/
def portWord (s : State) (x : Row) : Dword :=
  let b (v : Bool) (i : Nat) : Nat := if v then 2 ^ i else 0
  dw (min 8 x.north.fifo.length + b x.north.isOpen 5 + b x.north.closed 6
    + (if x.south.orphan || x.south.isOpen then 0 else min 8 (southHeld s x)) * 2 ^ 8
    + b x.south.isOpen 13 + b x.south.orphan 15)

/-- PQRY (R231). -/
def execPqry (d : Reg) (s : State) : Out :=
  issue s accRep (fSca d) fNone fNone (fun c => do
    c.needSDst c.d
    .ok (.done (c.s.setRow c.r (c.x.sset c.d (portWord c.s c.x)))))

end Sys2Proof.Machine
end

