-- ==== Sys2Proof/Machine/Matrix.lean ====
section
/-! DEFINITION. The matrix unit: SHAPE, the operand latch, the dense streams and their steps, the accumulators out
(R84 to R90, R279 to R309). -/
namespace Sys2Proof.Machine

/-! ### The arithmetic of a cell (R84 to R86) -/

/-- A sum rounded once into FP32, with what it records: INVALID and OVERFLOW (R84, R85). bad marks a product of infinity
and zero among finite or infinite operands. -/
def recSum (bad : Bool) (ts : List FVal) : Word × Bool × Bool :=
  if bad then (BitVec.ofNat 32 Fmt.f32.nan, true, false)
  else
    match sumVals .rne ts with
    | .nan fl => (BitVec.ofNat 32 Fmt.f32.nan, fl == flInvalid, false)
    | .inf n => (BitVec.ofNat 32 (Fmt.f32.signed n Fmt.f32.infCode), false, false)
    | .fin x =>
      let r := roundTo .f32 .rne false x
      (BitVec.ofNat 32 r.bits, false, r.fl &&& flOverflow != 0)

/-- The product of the factors of a term, and whether it is infinity times zero. -/
def mulAll : List FVal → FVal × Bool
  | [] => (.fin false 1 0, false)
  | a :: l =>
    let (p, bad) := mulAll l
    let (q, b) := mulVal a p
    (q, bad || b)

/-- A dot step of P and products of factors (R85): a NaN operand decides first. -/
def dotStep (p : FVal) (prods : List (List FVal)) : Word × Bool × Bool :=
  if p.isNan || prods.any (fun l => l.any FVal.isNan) then (BitVec.ofNat 32 Fmt.f32.nan, false, false)
  else
    let infZero (l : List FVal) := l.any FVal.isInf && l.any FVal.isZero
    recSum (prods.any infZero) (p :: prods.map (fun l => (mulAll l).1))

/-- Value j of a packed chunk or entry (R293). -/
def eltAt (ty : TyCode) (x j : Nat) : Nat := x / 2 ^ (eltBits ty * j) % 2 ^ eltBits ty

/-- A floating-point or Q16 matrix operand (R73, R293). -/
def eltVal (ty : TyCode) (x : Nat) : FVal :=
  match ty with
  | .q16 => q16Val x
  | t =>
    match tyFmt t with
    | some f => unpack f x
    | none => .fin false 0 0

/-- An INT8 operand. -/
def eltInt (x : Nat) : Int := (BitVec.ofNat 8 x).toInt

/-- One step of one cell: P and the pairs of a latch value and an entry value (R84, R86). -/
def cellStep (af bf : TyCode) (p : Word) (ab : List (Nat × Nat)) : Word × Bool × Bool :=
  if af = .i8 then
    (p + BitVec.ofInt 32 (ab.foldl (fun z q => z + eltInt q.1 * eltInt q.2) 0), false, false)
  else dotStep (unpack .f32 p.toNat) (ab.map (fun q => [eltVal af q.1, eltVal bf q.2]))

/-! ### SHAPE (R284 to R287) -/

/-- An 8-bit floating-point matrix type. -/
def isFp8 (t : TyCode) : Bool := t == .e4m3 || t == .e5m2

/-- The combination table (R293). -/
def pairGranted (mode : Nat) (af bf : TyCode) : Bool :=
  (isFp8 af && isFp8 bf) || (af == bf && (af == .i8 || af == .f16 || af == .bf16))
    || (mode == 0 && af == .q16 && (isFp8 bf || bf == .bf16))

/-- A request is refused: the grant is 0 (R286). -/
def shapeRefused (v : Dword) : Bool :=
  let mode := fld v 63 62
  fld v 57 56 != 0 || fld v 31 28 != 0 || tst v 15 || tst v 7 || mode == 3 || fld v 59 58 == 3
    || (fld v 61 60 == 3 && mode != 1) || fld v 47 32 % 8 != 0 || !pairGranted mode (grantAf v) (grantBf v)

/-- SRC of the grant (R286). -/
def grantSrc (mode src : Nat) (northOpen : Bool) : Nat :=
  if src = 0 ∨ src = 1 then (if !northOpen then 1 else if mode = 1 then 3 else 2) else src

/-- TERMINAL of the grant (R286). -/
def grantTerminal (term row m height : Nat) (southOpen : Bool) : Bool :=
  southOpen || term == 2 || (term == 0 && row == m - 1 && decide (row + 1 < height))

/-- The grant of a request (R286, R287). -/
def shapeGrant (v : Dword) (row height lw : Nat) (northOpen southOpen : Bool) : Dword :=
  if shapeRefused v then 0
  else
    let mode := fld v 63 62
    let m := min (fld v 14 8 + 1) height
    let n := min (fld v 6 0 + 1) lw
    dw (mode * 2 ^ 62 + grantSrc mode (fld v 61 60) northOpen * 2 ^ 60
      + (if grantTerminal (fld v 59 58) row m height southOpen then 2 ^ 59 else 0) + 2 ^ 58
      + (if row < m then 2 ^ 57 else 0) + fld v 55 32 * 2 ^ 32 + fld v 27 16 * 2 ^ 16 + (m - 1) * 2 ^ 8 + (n - 1))

/-- The matrix unit is idle (R281). -/
def Matrix.idle (m : Matrix) : Bool := m.running.isNone && m.queued.isNone && m.msca.isNone

/-- An instruction that needs the unit idle waits (R282). -/
def Ctx.needIdle (c : Ctx) : Except Stop Unit :=
  if c.x.mx.idle then .ok () else .error (.wait c.x.mx.busyReason .m)

/-- SHAPE (R284). -/
def execShape (d a : Reg) (ta : Bool) (s : State) : Out :=
  issue s accMod fNone fNone fNone (fun c => c.streamDue (do
    c.needS a ta 1
    c.needSDst d
    c.needIdle
    let g := shapeGrant (c.x.sget a) c.x.inBand.toNat c.band.height c.lw c.x.north.isOpen c.x.south.isOpen
    .ok (.done (c.s.setRow c.r ({ c.x with mx := { c.x.mx with shape := g } }.sset d g)))))

/-- SHAPE trap: detail 0, or the failing step of R323 (R400). -/
def shapeTrap (detail : Byte) : Stop := trapOf 0x0B detail 0

/-- VALID of a grant. -/
def grantValid (g : Dword) : Bool := tst g 58
/-- PART of a grant. -/
def grantPart (g : Dword) : Bool := tst g 57

/-- The check of R287 on the grant in force; a mode of none is any mode. -/
def Ctx.needShape (c : Ctx) (mode : Option Nat) : Except Stop Unit :=
  let g := c.x.mx.shape
  if grantValid g && grantPart g && (match mode with | some m => fld g 63 62 == m | none => true) then .ok ()
  else .error (shapeTrap 0)

/-- The active lanes of a stream, MSCA or MDRN: those of MSK below N' (R299). -/
def Ctx.gridLanes (c : Ctx) (m : MReg) : Mask := c.act m &&& laneMask (fld c.x.mx.shape 6 0 + 1)

/-! ### The operand latch (R288 to R290) and MWL (R295) -/

/-- Latch bytes taken, those in flight included (R288). -/
def Matrix.occupancy (m : Matrix) : Nat := m.latch.length + (m.fly.map List.length).sum

/-- The checks of an access of 8 bytes a lane, which reads the row's window (R161, R289, R403, R447). -/
def Ctx.read8 (c : Ctx) (l : List (Nat × Int)) : Except Stop Unit := do
  c.guard .read 8 l
  match l.find? (fun p => c.s.badWord (sideKey c.band.core.toNat (c.coreOff p.2))) with
  | some p => .error (parity 6 (targOf p.2))
  | none => .ok ()

/-- An MLAT or MGAT on the addresses of its lanes: the range checks, the wait for room, the read (R289). -/
def latchLoad (c : Ctx) (x : Row) (l : List (Nat × Int)) : Except Stop Act := do
  checkWindow c.band.wsize 8 8 l
  if !l.isEmpty && decide (8 * c.lw < c.x.mx.occupancy + 8 * l.length) then .error (.wait c.x.mx.busyReason .m)
  c.read8 l
  if l.isEmpty then .ok (.done (c.s.setRow c.r x)) else
  let s := flushPosted (c.s.setRow c.r x) c.r
  let bs := l.flatMap (fun p => memRead s.mem (sideKey c.band.core.toNat (c.coreOff p.2)) 8)
  .ok (.done (s.modRow c.r (fun y => { y with mx := { y.mx with fly := y.mx.fly ++ [bs] } })))

/-- The address of lane i of MLAT, MGAT and MWL without an index. -/
def addrLatch (o : BitVec 6) (c : Ctx) (b : Reg) (i : Nat) : Int := ((c.x.sget b).toNat + 8 * o.toNat + 8 * i : Nat)

/-- MGAT (R289): needs a valid grant for its stride (R287). Its D is read, under MOD.TD as R40 and R54 say.
DEDUCED: log entry 83. -/
def execMgat (d b : Reg) (m : MReg) (o : BitVec 6) (s : State) : Out :=
  issue s accMod fNone fNone fNone (fun c => do
    c.needS b false 1
    let e ← c.needSources [⟨d, c.td, 0⟩]
    if !grantValid c.x.mx.shape then .error (shapeTrap 0)
    let v := vecValue c.x e d
    latchLoad c (afterPop c.x e) (laneAddrs (c.act m) (fun i =>
      addrLatch o c b i + (fld c.x.mx.shape 47 32 * (laneAt v i).toNat : Nat))))

/-- MLAT (R289). -/
def execMlat (b : Reg) (m : MReg) (o : BitVec 6) (s : State) : Out :=
  issue s accMod fNone fNone fNone (fun c => do
    c.needS b false 1
    latchLoad c c.x (laneAddrs (c.act m) (addrLatch o c b)))

/-- MWL (R295): the words are bound at issue and reach W on their arrival. -/
def execMwl (b : Reg) (m : MReg) (o : BitVec 6) (s : State) : Out :=
  issue s accMod fNone fNone fNone (fun c => c.streamDue (do
    c.needS b false 1
    c.needIdle
    let l := laneAddrs (c.act m) (addrLatch o c b)
    checkWindow c.band.wsize 8 8 l
    c.read8 l
    if l.isEmpty then .ok (.done c.s) else
    let s := flushPosted c.s c.r
    let v : Entry := l.foldl (fun v p =>
      if h : p.1 < 64 then v.set p.1 (memDword s.mem (sideKey c.band.core.toNat (c.coreOff p.2))) h else v) zeroEntry
    .ok (.done (s.modRow c.r (fun y => { y with mx := { y.mx with mwl := y.mx.mwl ++ [(c.act m, v)] } })))))

/-- LATCH_FILL (R290): the oldest bytes in flight enter the latch. -/
def execLatchFill (r : RowId) (s : State) : Out :=
  eventNext (s.modRow r (fun x =>
    match x.mx.fly with
    | bs :: l => { x with mx := { x.mx with latch := x.mx.latch ++ bs, fly := l } }
    | [] => x))

/-- MWL_ARRIVE (R295): the oldest MWL in flight reaches W. -/
def execMwlArrive (r : RowId) (s : State) : Out :=
  eventNext (s.modRow r (fun x =>
    match x.mx.mwl with
    | (mk, v) :: l =>
      let w : Entry := Vector.ofFn (fun i : Fin 64 => if mk.getLsbD i.val then v[i.val] else x.mx.w[i.val])
      { x with mx := { x.mx with w := w, mwl := l, wbad := x.mx.wbad &&& ~~~mk } }
    | [] => x))

/-! ### The issue of streams (R280, R281, R291) -/

/-- The mode a stream needs (R287). -/
def StreamKind.mode : StreamKind → Nat
  | .mma | .mmas => 0
  | .mwf => 1
  | .mwb => 2

/-- The M-cycles of a step of a dense stream (R293). -/
def denseCost (g : Dword) : Nat := if grantAf g = .q16 then 1 else 2

/-- c_e of a stream: the M-cycles of a step at the source row (R293, R325). -/
def Stream.stepCost (t : Stream) : Nat :=
  match t.kind with
  | .mmas => (2 * cardN t.cardBytes + cardM t.cardBytes - 1) / max 1 (cardM t.cardBytes)
  | _ => denseCost t.grant

/-- The source row makes step i of a stream: the remaining cost falls by c_e, once for each step (R326). -/
def Stream.pay (t : Stream) (i : Nat) : Stream :=
  let c := t.stepCost
  if grantK t.grant * c ≤ t.remaining + i * c then { t with remaining := t.remaining - c } else t

/-- The unit once the source row has made the step whose entry stands behind i others at the port: the stream that will take
that entry, the running one or the queued one, pays for it; with whether it goes on to the south (R326).
DEDUCED: log entry 104. -/
def Matrix.payEntry (mx : Matrix) (i : Nat) : Matrix × Bool :=
  let left (t : Option Stream) : Nat := match t with
    | some t => if t.north then grantK t.grant - t.step else 0
    | none => 0
  let n := left mx.running
  let q := left mx.queued
  let on (t : Option Stream) : Bool := match t with
    | some t => !t.terminal
    | none => true
  if i < n then ({ mx with running := mx.running.map (fun t => t.pay (t.step + i)) }, on mx.running)
  else if i < n + q then ({ mx with queued := mx.queued.map (fun t => t.pay (t.step + (i - n))) }, on mx.queued)
  else (mx, true)

/-- The rows below a source row, of at most n hops, once it has made a step: its entry comes to each behind the entries on the
way there, i of them above (R302, R326). -/
def payBelow : Nat → State → RowId → Nat → State
  | 0, s, _, _ => s
  | n + 1, s, r, i =>
    match s.row? r with
    | none => s
    | some x =>
      match (if x.south.orphan then none else x.south.dest) with
      | none => s
      | some q =>
        match s.row? q with
        | none => s
        | some y =>
          let k := i + y.north.fifo.length + y.north.transit.length
          let (mx, on) := y.mx.payEntry k
          let s := s.setRow q { y with mx := mx }
          if on then payBelow n s q k else s

/-- A row is the source row of its stream: it reads no port, or the row above it has no stream (R326). DEDUCED: log entry 104. -/
def sourceRow (s : State) (r : RowId) (t : Stream) : Bool :=
  !t.north || !s.rows.any (fun p => p.2.streaming && p.2.south.dest == some r && !p.2.south.orphan)

/-- The side-stream operands of R291: base and stride, checked; a watchpoint on the range is met at issue (R447). -/
def Ctx.sideOperands (c : Ctx) (g : Dword) (a b : Reg) : Except Stop (Nat × Nat) := do
  if fld g 61 60 ≠ 2 then .ok (0, 0)
  else
    let base := (c.x.sget a).toNat
    let str := if c.x.sget b = 0 then 8 * c.lw else (c.x.sget b).toNat
    if base % 8 ≠ 0 ∨ str % 8 ≠ 0 then .error (misalign 0 (dw base))
    if c.band.wsize < base + (grantK g - 1) * str + 8 * c.lw then .error (sideRange 0 (dw base))
    let lanes := (List.range c.lw).flatMap (fun n => (List.range (grantK g)).map (fun t => base + t * str + 8 * n))
    watchHit c.s c.band.core (c.s.bandAsid c.band) .read
      (lanes.map (fun o => (c.band.wbase + o, c.band.wbase + o + 8, dw o)))
    .ok (base, str)

/-- The scalar operands a stream reads: those of a side stream (R291), and the descriptor of an MMAS. -/
def Ctx.streamScalars (c : Ctx) (a b : Reg) (ta tb : Bool) (desc : Option Reg) : Except Stop Unit := do
  if fld c.x.mx.shape 61 60 = 2 then
    c.parityFirst ([b] ++ desc.toList) [] (c.needS a ta 1)
    c.parityFirst desc.toList [] (c.needS b tb 2)
  match desc with
  | some d => c.needS d false 0
  | none => .ok ()

/-- A place for a stream is free (R281). -/
def Ctx.needPlace (c : Ctx) : Except Stop Unit :=
  if c.x.mx.running.isSome && c.x.mx.queued.isSome then .error (.wait c.x.mx.busyReason .m) else .ok ()

/-- The row with a stream in its unit, and a command of class MX issued (R280, R281). -/
def Row.startStream (x : Row) (t : Stream) : Row :=
  let mx := if x.mx.running.isNone then { x.mx with running := some t } else { x.mx with queued := some t }
  { x with mx := mx }.modCls .mx ClassState.enter

/-- The payload of the pending MOD, as a saved context holds it. -/
def modPayload (h : Hints) : BitVec 24 := h.modp.getD 0

/-- The word a row is executing. -/
def Row.word (x : Row) : Word := x.ibuf.getD 0

/-- A dense stream issues (R291): the row's earlier stores are performed, the operands are captured. -/
def denseStream (kind : StreamKind) (a b : Reg) (m : MReg) (ta tb zp : Bool) (i : Instr) (c : Ctx) : Except Stop Act :=
  c.streamDue (do
    c.streamScalars a b ta tb none
    c.needPlace
    c.needShape (some kind.mode)
    let g := c.x.mx.shape
    let (base, str) ← c.sideOperands g a b
    c.needPosted
    let s := flushPosted c.s c.r
    let t : Stream :=
      { kind := kind
        word := (encode i).getD 0
        modp := modPayload c.x.hints
        zp := zp
        grant := g
        base := base
        stride := str
        lanes := c.gridLanes m
        card := 0
        masks := []
        cardBytes := []
        step := 0
        remaining := grantK g * denseCost g
        part := []
        starved := false }
    .ok (.done (s.modRow c.r (fun y => y.startStream t))))

/-- MMA (R294). -/
def execMma (a b : Reg) (m : MReg) (ta tb zp : Bool) (s : State) : Out :=
  issue s accMod fNone fNone fNone (denseStream .mma a b m ta tb zp (.mma a b m ta tb zp))
/-- MWF (R296). DEDUCED: log entry 44. -/
def execMwf (a b : Reg) (m : MReg) (ta tb : Bool) (s : State) : Out :=
  issue s accMod fNone fNone fNone (denseStream .mwf a b m ta tb false (.mwf a b m ta tb))
/-- MWB (R297). -/
def execMwb (a b : Reg) (m : MReg) (ta tb : Bool) (s : State) : Out :=
  issue s accMod fNone fNone fNone (denseStream .mwb a b m ta tb false (.mwb a b m ta tb))

/-! ### A step of a stream (R291 to R299, R324) -/

/-- A vector of words by lane. -/
def lanesOf (f : Nat → Word) : Lanes := Vector.ofFn (fun i : Fin 64 => f i.val)

/-- What a step leaves: the row's P and RQ, the words begun, the entry forwarded, and what the cells record. -/
structure StepOut where
  p : Lanes
  rq : List Lanes
  part : List Word
  fwd : Entry
  mi : Bool
  mo : Bool

/-- The results of the cells of the lanes of a mask: the new accumulators and the record (R85, R87). -/
def cellsOf (mk : Mask) (f : Nat → Word × Bool × Bool) (old : Lanes) : Lanes × Bool × Bool :=
  let v : Vector (Word × Bool × Bool) 64 :=
    Vector.ofFn (fun i : Fin 64 => if mk.getLsbD i.val then f i.val else (old[i.val], false, false))
  (v.map (fun p => p.1), v.toList.any (fun p => p.2.1), v.toList.any (fun p => p.2.2))

/-- A lane of an entry as a number. -/
def entryAt (e : Entry) (i : Nat) : Nat := (e[i]?.getD 0).toNat

/-- A result-stationary step (R294, R324). -/
def rsStep (t : Stream) (mx : Matrix) (bytes : List Byte) (e : Entry) : StepOut :=
  let af := grantAf t.grant
  let bf := grantBf t.grant
  let pos := t.positions t.step
  let a := leNat bytes
  let old := if t.zp && t.step == 0 then mergeLanes t.lanes zeroLanes mx.p else mx.p
  let (p, mi, mo) := cellsOf t.lanes
    (fun n => cellStep af bf (laneAt old n) (pos.zipIdx.map (fun q => (eltAt af a q.2, eltAt bf (entryAt e n) q.1)))) old
  ⟨p, mx.rq, t.part, e, mi, mo⟩

/-- A weight-stationary forward step: the chunk has type AF, the weights BF (R285, R296). -/
def wfStep (t : Stream) (mx : Matrix) (bytes : List Byte) (e : Entry) (lw : Nat) : StepOut :=
  let af := grantAf t.grant
  let bf := grantBf t.grant
  let a := leNat bytes
  let pin := e.low
  let (q, mi, mo) := cellsOf t.lanes
    (fun n => cellStep af bf (laneAt pin n)
      ((List.range (perEntry bf)).map (fun j => (eltAt af a j, eltAt bf (entryAt mx.w n) j)))) pin
  ⟨mergeLanes t.lanes q mx.p, if t.terminal then mx.rq ++ [mergeLanes (laneMask lw) q zeroLanes] else mx.rq, t.part,
    entryOf (BitVec.allOnes 64) q, mi, mo⟩

/-- The tree of R92 over the leaves of MWB, each node rounded and recorded (R297). -/
def recLevel : List Word → List Word × Bool × Bool
  | a :: b :: l =>
    let (z, i, o) := recSum false [unpack .f32 a.toNat, unpack .f32 b.toNat]
    let (zs, i2, o2) := recLevel l
    (z :: zs, i || i2, o || o2)
  | l => (l, false, false)

/-- The levels of the tree. -/
def recTree : Nat → List Word → List Word × Bool × Bool
  | 0, l => (l, false, false)
  | n + 1, l =>
    let (l1, i, o) := recLevel l
    let (l2, i2, o2) := recTree n l1
    (l2, i || i2, o || o2)

/-- Word j of a backward step: dy, of type AF, by W, of type BF, summed over the lanes (R285, R297). -/
def wbWord (t : Stream) (mx : Matrix) (e : Entry) (lw j : Nat) : Word × Bool × Bool :=
  let af := grantAf t.grant
  let bf := grantBf t.grant
  let dy (n : Nat) := eltAt af (entryAt e n) 0
  let w (n : Nat) := eltAt bf (entryAt mx.w n) j
  if af = .i8 then
    ((List.range lw).foldl (fun z n => if t.lanes.getLsbD n then z + BitVec.ofInt 32 (eltInt (dy n) * eltInt (w n)) else z)
      (0 : Word), false, false)
  else
    let leaves := (List.range lw).map (fun n =>
      if t.lanes.getLsbD n then
        let x := eltVal af (dy n)
        let y := eltVal bf (w n)
        if x.isNan || y.isNan then (BitVec.ofNat 32 Fmt.f32.nan, false, false)
        else recSum (mulVal x y).2 [(mulVal x y).1]
      else ((0x80000000 : Word), false, false))
    let (l, i, o) := recTree 6 (leaves.map (fun p => p.1))
    (l.headD 0, i || leaves.any (fun p => p.2.1), o || leaves.any (fun p => p.2.2))

/-- A backward step (R297): kv words fill the vectors of RQ. -/
def wbStep (t : Stream) (mx : Matrix) (e : Entry) (lw : Nat) : StepOut :=
  let ws := (List.range (perEntry (grantBf t.grant))).map (wbWord t mx e lw)
  let part := t.part ++ ws.map (fun p => p.1)
  let full := decide (lw ≤ part.length)
  ⟨mx.p, if full then mx.rq ++ [lanesOf (fun i => if i < lw then part.getD i 0 else 0)] else mx.rq,
    if full then part.drop lw else part, e, ws.any (fun p => p.2.1), ws.any (fun p => p.2.2)⟩

/-- The entry of a side stream at a step: bad words read 0 (R291, R403). -/
def sideEntry (s : State) (b : Band) (t : Stream) : Entry :=
  Vector.ofFn (fun i : Fin 64 =>
    let k := sideKey b.core.toNat (b.wbase + t.base + t.step * t.stride + 8 * i.val)
    if i.val < b.laneW ∧ s.badWord k = false then memDword s.mem k else 0)

/-- The window offset of the lowest bad word that a side entry reads (R403). -/
def sideBad (s : State) (b : Band) (t : Stream) : Option Dword :=
  ((List.range b.laneW).find? (fun i =>
    s.badWord (sideKey b.core.toNat (b.wbase + t.base + t.step * t.stride + 8 * i)))).map
    (fun i => dw (t.base + t.step * t.stride + 8 * i))

/-- Room for what a step leaves in RQ (R296, R297). -/
def Stream.rqRoom (t : Stream) (mx : Matrix) : Bool :=
  match t.kind with
  | .mwf => !t.terminal || decide (mx.rq.length < 4)
  | .mwb => decide (mx.rq.length < 4)
  | _ => true

/-- What a stream has left for the next instruction that waits on it; an exited row takes no trap (R298, R301, R404). -/
def Row.streamFault (x : Row) (closed : Bool) (par : Option (Byte × Dword)) : Row :=
  if x.status = .exited then x
  else { x with ctl := { x.ctl with
    closedDue := x.ctl.closedDue || closed
    streamParity := match x.ctl.streamParity with | some p => some p | none => par } }

/-- The lanes of P that a step of a stream reads: a result-stationary one, unless it starts from zero (R294). -/
def Stream.readsP (t : Stream) : Mask :=
  match t.kind with
  | .mma | .mmas => if t.zp && t.step == 0 then 0 else t.lanes
  | .mwf | .mwb => 0
/-- The lanes of P that a step of a stream writes. -/
def Stream.writesP (t : Stream) : Mask :=
  match t.kind with
  | .mma | .mmas | .mwf => t.lanes
  | .mwb => 0
/-- The lanes of W that a step of a stream reads (R296, R297). -/
def Stream.readsW (t : Stream) : Mask :=
  match t.kind with
  | .mma | .mmas => 0
  | .mwf | .mwb => t.lanes

/-- The parity errors that a step meets (R404), and the bad word of a side stream (R403). -/
def stepParity (s : State) (x : Row) (b : Band) (t : Stream) : Option (Byte × Dword) :=
  if t.north && x.badHead then some (2, 0)
  else if x.mx.latchBad.any (fun i => decide (i < t.latchNeed)) then some (3, 0)
  else if x.mx.pbad &&& t.readsP != 0 || x.mx.wbad &&& t.readsW != 0 then some (4, 0)
  else if fld t.grant 61 60 = 2 then (sideBad s b t).map (fun a => (6, a)) else none

/-- A pre-emption of the band has been requested (R416). -/
def Band.preempting (b : Band) : Bool := b.preempt.isSome

/-- The running stream of a row completes: its command retires, the queued stream starts unless the band is being
pre-empted, a partly filled vector is closed (R281, R297, R301, R326). -/
def completeStream (s : State) (r : RowId) (x : Row) (b : Band) (t : Stream) : State :=
  let rq := if t.part.isEmpty then x.mx.rq else x.mx.rq ++ [lanesOf (fun i => t.part.getD i 0)]
  let hold := b.preempting
  let mx := { x.mx with
    rq := rq
    running := if hold then none else x.mx.queued
    queued := if hold then x.mx.queued else none }
  let y := { x with mx := mx }.modCls .mx ClassState.retireOldest
  let s := s.setRow r y
  if x.status = .exited ∧ y.streaming = false then settleRow s r else s

/-- A stream may make a step: it has one to make, a pre-emption has not stopped it, and no MSCA holds the unit (R291,
R307). -/
def stepDue (x : Row) (t : Stream) : Bool := !t.done && !t.starved && x.mx.msca.isNone

/-- Every condition of a step but its entry and its room to the south holds (R290, R291, R295 to R297, R161). -/
def stepReady (s : State) (x : Row) (b : Band) (t : Stream) : Bool :=
  stepDue x t && x.mx.mwl.isEmpty
    && decide (t.latchNeed ≤ x.mx.latch.length) && t.rqRoom x.mx
    && (fld t.grant 61 60 != 2 ||
        (sbBlocker s b.core (b.wbase + t.base + t.step * t.stride)
          (b.wbase + t.base + t.step * t.stride + 8 * b.laneW) false).isNone)

/-- The step is made: the entry is popped, the cells compute, the forwarded entry is pushed (R291); at a source row the streams
below pay for it too (R326). -/
def makeStep (s : State) (r : RowId) (x : Row) (b : Band) (t : Stream) (e : Entry) : State :=
  let bytes := x.mx.latch.take t.latchNeed
  let o := match t.kind with
    | .mma | .mmas => rsStep t x.mx bytes e
    | .mwf => wfStep t x.mx bytes e b.laneW
    | .mwb => wbStep t x.mx e b.laneW
  let t' := { t.pay t.step with step := t.step + 1, part := o.part }
  let y := (if t.north then x.pop else x).streamFault false (stepParity s x b t)
  let y := { y with
    mx := { y.mx with
      p := o.p
      rq := o.rq
      latch := y.mx.latch.drop t.latchNeed
      latchBad := popBad t.latchNeed y.mx.latchBad
      running := some t'
      pbad := y.mx.pbad &&& ~~~t.writesP }
    fp := { y.fp with mi := y.fp.mi || o.mi, mo := y.fp.mo || o.mo } }
  if t.terminal then s.setRow r y
  else (pushSouth (if sourceRow s r t then payBelow s.rows.length s r 0 else s) y o.fwd).setRow r y

/-- The north port of a row is empty and stays so: its producer has ended (R224). -/
def Row.northOver (x : Row) : Bool := x.north.closed && x.north.fifo.isEmpty && x.north.transit.isEmpty

/-- A step made; PARITY that it finds in a pre-emption ends the unit (R419). -/
def takeStep (s : State) (r : RowId) (x : Row) (b : Band) (t : Stream) (e : Entry) : State :=
  match (if b.preempting && x.status != .exited then stepParity s x b t else none) with
  | some (w, a) => endByParity s r x w a
  | none => makeStep s r x b t e

/-- STREAM_STEP (R291): a stream that finds its port empty and closed completes at once (R298); otherwise the running stream
makes one step where it can. DEDUCED: log entry 47. -/
def execStreamStep (r : RowId) (s : State) : Out :=
  match s.row? r with
  | none => eventNext s
  | some x =>
    match x.mx.running, s.band? x.band with
    | some t, some b =>
      if t.north && stepDue x t && x.northOver then .next (completeStream s r (x.streamFault true none) b t)
      else if !stepReady s x b t then eventNext s
      else if t.north then
        match x.north.fifo with
        | e :: _ =>
          if !t.terminal && !x.south.orphan && southFull s x then eventNext s else .next (takeStep s r x b t e)
        | [] => eventNext s
      else if !t.terminal && !x.south.orphan && southFull s x then eventNext s
      else .next (takeStep s r x b t (if fld t.grant 61 60 = 2 then sideEntry s b t else zeroEntry))
    | _, _ => eventNext s

/-- STREAM_COMPLETE (R304): a stream whose last step has been made completes. -/
def execStreamComplete (r : RowId) (s : State) : Out :=
  match s.row? r with
  | none => eventNext s
  | some x =>
    match x.mx.running, s.band? x.band with
    | some t, some b => if t.done then .next (completeStream s r x b t) else eventNext s
    | _, _ => eventNext s

/-! ### The accumulators out (R305 to R309) -/

/-- A parity error in lanes of P or A traps the instruction that reads them (R404). -/
def needClean (bad : Mask) : Except Stop Unit := if bad = 0 then .ok () else .error (parity 4 0)
/-- A parity error in the head of RQ traps the instruction that reads it (R404). -/
def Ctx.needCleanRq (c : Ctx) : Except Stop Unit :=
  if c.x.mx.rqBad.contains 0 then .error (parity 5 0) else .ok ()

/-- A parity error of lanes of P or A that an instruction reads once the unit is idle (R399, R404). -/
def Ctx.badCells (c : Ctx) (bad : Mask) : Option Byte := if c.x.mx.idle && bad != 0 then some 4 else none

/-- The lanes of P and A with a parity error among those that an MSCA reads (R299, R307). -/
def Ctx.badPa (c : Ctx) (m : MReg) : Mask := (c.x.mx.pbad ||| c.x.mx.abad) &&& c.gridLanes m

/-- MCLR (R305): FN's bits are P, A, RQ, LAT. -/
def execMclr (m : MReg) (f : BitVec 4) (s : State) : Out :=
  issue s accMod fNone fNone fNone (fun c => c.streamDue (do
    c.needIdle
    if f.getLsbD 3 && !c.x.mx.fly.isEmpty then .error (.wait c.x.mx.busyReason .m)
    let mk := c.act m
    let mx := c.x.mx
    .ok (.done (c.s.setRow c.r { c.x with mx := { mx with
      p := if f.getLsbD 0 then mergeLanes mk zeroLanes mx.p else mx.p
      pbad := if f.getLsbD 0 then mx.pbad &&& ~~~mk else mx.pbad
      a := if f.getLsbD 1 then mergeLanes mk zeroLanes mx.a else mx.a
      abad := if f.getLsbD 1 then mx.abad &&& ~~~mk else mx.abad
      rq := if f.getLsbD 2 then [] else mx.rq
      rqBad := if f.getLsbD 2 then [] else mx.rqBad
      latch := if f.getLsbD 3 then [] else mx.latch
      latchBad := if f.getLsbD 3 then [] else mx.latchBad } }))))

/-- MSCA (R307): the operands are captured; the sums are formed at completion. A parity error in P or A comes before any
other trap (R399). -/
def execMsca (a b : Reg) (m : MReg) (ta tb : Bool) (s : State) : Out :=
  issue s accMod fNone fNone fNone (fun c => c.streamDue (preferParity (c.badCells (c.badPa m)) do
    c.parityFirst [] [b] (c.needS a ta 1)
    let e ← c.needSources [⟨b, tb, 2⟩]
    c.needIdle
    needClean (c.badPa m)
    c.needShape (some 0)
    let y := afterPop c.x e
    .ok (.done (c.s.setRow c.r { y with mx := { y.mx with
      msca := some ⟨c.gridLanes m, (c.x.sget a).setWidth 32, vecValue c.x e b⟩ } }))))

/-- One lane of MSCA (R88): A + P rs ls, rounded once. -/
def mscaLane (a p rs ls : Word) : Word × Bool × Bool :=
  dotStep (unpack .f32 a.toNat) [[unpack .f32 p.toNat, unpack .f32 rs.toNat, unpack .f32 ls.toNat]]

/-- The flags that INVALID and OVERFLOW records give (R87). -/
def recFlags (mi mo : Bool) : Flags := (if mi then flInvalid else 0) ||| (if mo then flOverflow else 0)

/-- The row with flags raised and its matrix exception record folded in and cleared (R87, R100). -/
def Row.fold (x : Row) (fl : Flags) : Row :=
  let y := x.raise (fl ||| recFlags x.fp.mi x.fp.mo)
  { y with fp := { y.fp with mi := false, mo := false } }

/-- MSCA_COMPLETE (R307): A is written, P is cleared, flags are raised and the record folded (R88, R100); a parity error
that has come into a lane since is due at the row's next boundary (R404), or ends the unit in a pre-emption (R419).
DEDUCED: log entry 34. -/
def execMscaComplete (r : RowId) (s : State) : Out :=
  match s.row? r with
  | none => eventNext s
  | some x =>
    match x.mx.msca with
    | none => eventNext s
    | some o =>
      let (a, mi, mo) := cellsOf o.lanes (fun n => mscaLane (laneAt x.mx.a n) (laneAt x.mx.p n) o.rs (laneAt o.ls n)) x.mx.a
      let bad := (x.mx.pbad ||| x.mx.abad) &&& o.lanes != 0
      let y := { x with
        mx := { x.mx with
          a := a
          p := mergeLanes o.lanes zeroLanes x.mx.p
          msca := none
          pbad := x.mx.pbad &&& ~~~o.lanes
          abad := x.mx.abad &&& ~~~o.lanes }
        ctl := { x.ctl with parityDue := if bad && x.ctl.parityDue.isNone then some (4, 0) else x.ctl.parityDue } }
      let z := y.fold (recFlags mi mo)
      .next (if bad && (s.band? x.band).any Band.preempting then endByParity s r z 4 0 else s.setRow r z)

/-- The clip of R89: min of max, by value; a NaN bound does not clip, and an operand equal to a bound stays. -/
def clipVal (y lo hi : FVal) : FVal :=
  let z := if !lo.isNan && fLt false y lo then lo else y
  if !hi.isNan && fLt false hi z then hi else z

/-- One lane of MDRN (R89, R90). -/
def mdrnLane (f : TyCode) (sat : Bool) (a sc lo hi : Word) : Word × Flags :=
  let (y, bad) := mulVal (unpack .f32 a.toNat) (unpack .f32 sc.toNat)
  let z := if y.isNan then y else clipVal y (unpack .f32 lo.toNat) (unpack .f32 hi.toNat)
  let (w, fl) := cvtTo f false .rne sat false z none 0
  (w, if bad then fl ||| flInvalid else fl)

/-- MDRN reads A, under a result-stationary grant; otherwise it takes the head of RQ (R308). -/
def Ctx.drainsA (c : Ctx) : Bool := decide (fld c.x.mx.shape 63 62 = 0)

/-- The parity error of what an MDRN would now read (R399, R404). -/
def Ctx.badDrain (c : Ctx) (m : MReg) : Option Byte :=
  if c.drainsA then c.badCells (c.x.mx.abad &&& c.gridLanes m)
  else if c.x.mx.rqBad.contains 0 then some 5 else none

/-- MDRN (R308): a producer that raises its flags and folds the record at completion; a parity error in what it would now
read comes before any other trap (R399). DEDUCED: log entry 44. -/
def execMdrn (d a b : Reg) (m : MReg) (ta tb : Bool) (f : TyCode) (s : State) : Out :=
  issue s accMod fNone fNone fNone (fun c => c.streamDue (preferParity (c.badDrain m) do
    c.parityFirst [b] [] (c.needS a ta 1)
    c.needS b tb 2
    c.needVDst d
    let rs := c.drainsA
    c.needShape none
    if rs then c.needIdle
    else if c.x.mx.rq.isEmpty then .error (.wait c.x.mx.busyReason .m)
    if rs then needClean (c.x.mx.abad &&& c.gridLanes m) else c.needCleanRq
    let src := if rs then c.x.mx.a else c.x.mx.rq.headD zeroLanes
    let sc := (c.x.sget a).setWidth 32
    let bd := c.x.sget b
    let mk := c.gridLanes m
    let res : Vector (Word × Flags) 64 :=
      src.map (fun v => mdrnLane f c.sat v sc (bd.setWidth 32) (bd.extractLsb' 32 32))
    let y := if rs then c.x else { c.x with mx := { c.x.mx with rq := c.x.mx.rq.tail, rqBad := popBad 1 c.x.mx.rqBad } }
    .ok (.done (c.s.setRow c.r (y.produce
      { dest := .vec d mk (res.map (fun p => p.1))
        raises := true
        fl := laneFlags mk (fun i => res[i.val].2)
        fold := true })))))

/-- MMOVP out of an accumulator (R306), under MOD.TD as R40, R54 and R226 say. DEDUCED: log entry 83. -/
def moveOut (d : Reg) (m : MReg) (s : State) (src : Matrix → Lanes) (bad : Matrix → Mask) : Out :=
  issue s accMod fNone fNone fNone (fun c => c.streamDue (preferParity (c.badCells (bad c.x.mx &&& c.act m)) do
    c.needDest d
    c.needIdle
    needClean (bad c.x.mx &&& c.act m)
    .ok (.done (writeVec c.s c.r c.x d (c.act m) (src c.x.mx)))))

/-- MMOVP_GP (R306). -/
def execMmovpGP (d : Reg) (m : MReg) (s : State) : Out := moveOut d m s (fun x => x.p) (fun x => x.pbad)
/-- MMOVP_GA (R306). -/
def execMmovpGA (d : Reg) (m : MReg) (s : State) : Out := moveOut d m s (fun x => x.a) (fun x => x.abad)

/-- MMOVP into an accumulator (R306). -/
def moveIn (a : Reg) (m : MReg) (ta : Bool) (s : State) (put : Matrix → Lanes → Mask → Matrix) (old : Matrix → Lanes) : Out :=
  issue s accMod fNone fNone fNone (fun c => c.streamDue (do
    let e ← c.needSources [⟨a, ta, 1⟩]
    c.needIdle
    let y := afterPop c.x e
    .ok (.done (c.s.setRow c.r { y with mx := put y.mx (mergeLanes (c.act m) (vecValue c.x e a) (old y.mx)) (c.act m) }))))

/-- MMOVP_SP (R306). -/
def execMmovpSP (a : Reg) (m : MReg) (ta : Bool) (s : State) : Out :=
  moveIn a m ta s (fun x v mk => { x with p := v, pbad := x.pbad &&& ~~~mk }) (fun x => x.p)
/-- MMOVP_SA (R306). -/
def execMmovpSA (a : Reg) (m : MReg) (ta : Bool) (s : State) : Out :=
  moveIn a m ta s (fun x v mk => { x with a := v, abad := x.abad &&& ~~~mk }) (fun x => x.a)

end Sys2Proof.Machine
end

