-- ==== Sys2Proof/Machine/Card.lean ====
section
/-! DEFINITION. The pattern card: its header, its checks, its metadata and values, pruning, packing, expansion and
transposition (R310 to R313, R318 to R320, R327, R328). -/
namespace Sys2Proof.Machine

/-! ### The header (R310, R311) -/

/-- Field [hi:lo] of a number. -/
def nfld (x hi lo : Nat) : Nat := x / 2 ^ lo % 2 ^ (hi + 1 - lo)

/-- A card's header, as its fields stand. -/
structure Card where
  magic : Nat
  version : Nat
  n : Nat
  m : Nat
  orient : Bool
  tflag : Bool
  vfmt : Nat
  tr : Nat
  tk : Nat
  menc : Nat
  voff : Nat
  moff : Nat
  deriving DecidableEq, Repr

/-- The header held in 32 bytes (R310). -/
def cardOf (hd : List Byte) : Card :=
  let h := leNat hd
  { magic := nfld h 15 0
    version := nfld h 23 16
    n := nfld h 27 24
    m := nfld h 31 28
    orient := nfld h 32 32 == 1
    tflag := nfld h 33 33 == 1
    vfmt := nfld h 43 40
    tr := nfld h 63 48 + 1
    tk := nfld h 79 64 + 1
    menc := nfld h 87 80
    voff := nfld h 127 96
    moff := nfld h 159 128 }

/-- Rows of the card's operand (R311). -/
def Card.rop (c : Card) : Nat := if c.orient then c.tk else c.tr
/-- Extent of the operand along k (R311). -/
def Card.kop (c : Card) : Nat := if c.orient then c.tr else c.tk
/-- Bytes of an element (R311). -/
def Card.e (c : Card) : Nat := if c.vfmt = 0x9 ∨ c.vfmt = 0xA then 2 else 1
/-- Groups of one operand row. -/
def Card.perRow (c : Card) : Nat := c.kop / c.m
/-- Groups of the card (R311). -/
def Card.groups (c : Card) : Nat := c.rop * c.kop / c.m
/-- Bytes of metadata (R312). -/
def Card.mb (c : Card) : Nat := if c.m = 4 then (c.groups + 1) / 2 else c.groups
/-- Bytes of values (R312). -/
def Card.vb (c : Card) : Nat := c.groups * c.n * c.e
/-- The extent of the card (R312). -/
def Card.extent (c : Card) : Nat := max 32 (max (c.moff + c.mb) (c.voff + c.vb))
/-- The value format (R310). -/
def Card.ty (c : Card) : TyCode := TyCode.ofCode (BitVec.ofNat 4 c.vfmt)

/-- A reserved field of the header is nonzero (R310). -/
def cardReserved (hd : List Byte) : Bool :=
  let h := leNat hd
  nfld h 39 34 != 0 || nfld h 47 44 != 0 || nfld h 95 88 != 0 || nfld h 247 160 != 0

/-- The value format is one of the five (R310). -/
def Card.fmtOk (c : Card) : Bool := c.vfmt == 4 || c.vfmt == 9 || c.vfmt == 0xA || c.vfmt == 0xB || c.vfmt == 0xC

/-- Codes 1 to 9 of R313, in order; 0 where every check passes. -/
def cardCode (hd : List Byte) : Nat :=
  let c := cardOf hd
  if c.magic ≠ 0x5CA7 then 1
  else if (hd.foldl (fun a b => a + b.toNat) 0) % 256 ≠ 0 then 2
  else if c.version ≠ 1 then 3
  else if cardReserved hd then 4
  else if (c.m ≠ 4 ∧ c.m ≠ 8) ∨ c.n = 0 ∨ c.m < c.n then 5
  else if !c.fmtOk || c.menc != 0 then 6
  else if c.tflag && c.m != 4 then 7
  else if c.kop % c.m ≠ 0 ∨ (c.tflag = true ∧ (c.rop % 4 ≠ 0 ∨ c.kop % 4 ≠ 0)) then 8
  else if c.moff < 32 ∨ c.voff < 32 ∨ c.moff % 8 ≠ 0 ∨ c.voff % 8 ≠ 0
      ∨ (c.moff < c.voff + c.vb ∧ c.voff < c.moff + c.mb) then 9
  else 0

/-! ### Metadata and values (R312) -/

/-- The mask of group g in metadata whose first byte is that of group 0. -/
def metaMask (m : Nat) (md : List Byte) (g : Nat) : Nat :=
  if m = 4 then (md.getD (g / 2) 0).toNat / 16 ^ (g % 2) % 16 else (md.getD g 0).toNat

/-- Masks packed into metadata bytes; a nibble beyond the last group is 0. -/
def packMasks (m : Nat) : List Nat → List Byte
  | a :: b :: l => if m = 4 then BitVec.ofNat 8 (a + 16 * b) :: packMasks m l
                   else BitVec.ofNat 8 a :: BitVec.ofNat 8 b :: packMasks m l
  | [a] => [BitVec.ofNat 8 a]
  | [] => []

/-- Position k of operand row i is kept. -/
def Card.kept (c : Card) (masks : List Nat) (i k : Nat) : Bool :=
  Nat.testBit (masks.getD (i * c.perRow + k / c.m) 0) (k % c.m)

/-- The bytes of operand element (i, k): its value where it is kept, zeros where it is not (R312). -/
def Card.element (c : Card) (masks : List Nat) (vals : List Byte) (i k : Nat) : List Byte :=
  if c.kept masks i k then
    let g := i * c.perRow + k / c.m
    (vals.drop ((g * c.n + countBits (masks.getD g 0) (k % c.m)) * c.e)).take c.e
  else List.replicate c.e 0

/-- Some aligned 4 by 4 block has a k-position with other than N kept elements (R313, code 11). -/
def Card.badBlock (c : Card) (masks : List Nat) : Bool :=
  (List.range (c.rop / 4)).any (fun bi => (List.range c.kop).any (fun k =>
    ((List.range 4).filter (fun j => c.kept masks (4 * bi + j) k)).length != c.n))

/-- Codes 10 and 11 of R313 over the whole card; 0 where both pass. -/
def Card.fullCode (c : Card) (masks : List Nat) : Nat :=
  if masks.any (fun k => countBits k c.m != c.n) then 10
  else if c.tflag && c.badBlock masks then 11 else 0

/-- The masks of every group, from the metadata. -/
def Card.masks (c : Card) (md : List Byte) : List Nat := (List.range c.groups).map (metaMask c.m md)

/-! ### Pruning (R318, R319) -/

/-- The magnitude of an element: exact, a NaN kept as NaN (R318). -/
def Card.magnitude (c : Card) (bs : List Byte) : FVal :=
  let x := leNat bs
  if c.vfmt = 4 then .fin false (eltOf8 x).natAbs 0
  else
    match tyFmt c.ty with
    | some f =>
      match unpack f x with
      | .nan => .nan
      | .inf _ => .inf false
      | .fin _ m e => .fin false m e
    | none => .nan
where
  /-- A byte as a signed integer. -/
  eltOf8 (x : Nat) : Int := (BitVec.ofNat 8 x).toInt

/-- Order of magnitudes: a NaN above every number (R318). -/
def magLt (a b : FVal) : Bool :=
  if a.isNan then false else if b.isNan then true else fLt false a b

/-- Place of position u in the order of its group: larger magnitudes first, ties by position (R318). -/
def placeIn (ms : List FVal) (u : Nat) : Nat :=
  ((List.range ms.length).filter (fun v =>
    magLt (ms.getD u .nan) (ms.getD v .nan) || (!magLt (ms.getD v .nan) (ms.getD u .nan) && decide (v < u)))).length

/-- The mask of a group and whether it was decided by a tie (R318). -/
def pruneGroup (n : Nat) (ms : List FVal) : Nat × Bool :=
  let pos := List.range ms.length
  let mask := (pos.filter (fun u => decide (placeIn ms u < n))).foldl (fun a u => a + 2 ^ u) 0
  let atPlace (p : Nat) := ms.getD ((pos.find? (fun u => placeIn ms u == p)).getD 0) .nan
  (mask, decide (n < ms.length) && !magLt (atPlace n) (atPlace (n - 1)))

/-- The row masks of a block with N bits each. -/
def rowMasks (n : Nat) : List Nat := (List.range 16).filter (fun h => countBits h 4 == n)

/-- The candidates of a 4 by 4 block in ascending key order (R319). -/
def candidates (n : Nat) : List (List Nat) :=
  (rowMasks n).flatMap (fun a => (rowMasks n).flatMap (fun b => (rowMasks n).flatMap (fun c =>
    ((rowMasks n).map (fun d => [a, b, c, d])).filter (fun hs =>
      (List.range 4).all (fun k => (hs.filter (fun h => Nat.testBit h k)).length == n)))))

/-- The sum of the magnitudes that a candidate keeps, rounded RNE at each step; a NaN counts as +inf (R319). -/
def candidateSum (mag : Nat → Nat → FVal) (hs : List Nat) : Nat :=
  (List.range 16).foldl (fun s q =>
    if Nat.testBit (hs.getD (q / 4) 0) (q % 4) then
      let v := mag (q / 4) (q % 4)
      (roundSum .f32 .rne false (sumVals .rne [unpack .f32 s, if v.isNan then .inf false else v])).bits
    else s) 0

/-- The candidate with the largest sum, the lowest index among equals, and whether a tie decided (R319). -/
def pruneBlock (n : Nat) (mag : Nat → Nat → FVal) : List Nat × Bool :=
  let l := (candidates n).map (fun hs => (hs, candidateSum mag hs))
  let best := l.foldl (fun a p => max a p.2) 0
  let top := l.filter (fun p => p.2 == best)
  ((top.head?.map (fun p => p.1)).getD [], decide (1 < top.length))

/-- The masks of a dense operand and the number of groups or blocks decided by a tie; elem gives the bytes of an
element (R318, R319). -/
def Card.prune (c : Card) (elem : Nat → Nat → List Byte) : List Nat × Nat :=
  let mag (i k : Nat) := c.magnitude (elem i k)
  if c.tflag then
    let bl := (List.range (c.rop / 4)).map (fun bi => (List.range (c.kop / 4)).map (fun bk =>
      pruneBlock c.n (fun j u => mag (4 * bi + j) (4 * bk + u))))
    ((List.range c.groups).map (fun g =>
        let i := g / c.perRow
        ((((bl.getD (i / 4) []).getD (g % c.perRow) ([], false)).1).getD (i % 4) 0)),
      (bl.flatten.filter (fun p => p.2)).length)
  else
    let gs := (List.range c.groups).map (fun g =>
      pruneGroup c.n ((List.range c.m).map (fun u => mag (g / c.perRow) (g % c.perRow * c.m + u))))
    (gs.map (fun p => p.1), (gs.filter (fun p => p.2)).length)

/-- The values of the kept elements in group order, their bit patterns unchanged (R312, R320). -/
def Card.packValues (c : Card) (masks : List Nat) (elem : Nat → Nat → List Byte) : List Byte :=
  (List.range c.rop).flatMap (fun i => (List.range c.kop).flatMap (fun k => if c.kept masks i k then elem i k else []))

/-- The NaN elements of a dense operand (R320). -/
def Card.nanCount (c : Card) (elem : Nat → Nat → List Byte) : Nat :=
  (List.range c.rop).foldl (fun a i =>
    a + ((List.range c.kop).filter (fun k => (c.magnitude (elem i k)).isNan)).length) 0

/-! ### Transposition (R327, R328) -/

/-- The card of the same tile in the other orientation (R327). -/
def Card.flip (c : Card) : Card :=
  let d : Card := { c with orient := !c.orient, moff := 32 }
  { d with voff := 32 + (d.mb + 7) / 8 * 8 }

/-- The masks of the flipped card: its operand is the transpose. -/
def Card.flipMasks (c : Card) (masks : List Nat) : List Nat :=
  let d := c.flip
  (List.range d.groups).map (fun g =>
    (List.range d.m).foldl (fun a u =>
      if c.kept masks (g % d.perRow * d.m + u) (g / d.perRow) then a + 2 ^ u else a) 0)

/-- The header of the flipped card: the source header with ORIENT, MOFF, VOFF and CHECK changed (R327). -/
def flipHeader (hd : List Byte) : List Byte :=
  let d := (cardOf hd).flip
  let h := hd.take 4 ++ [hd.getD 4 0 ^^^ 1] ++ (hd.drop 5).take 7 ++ leBytes 4 d.voff ++ leBytes 4 d.moff
    ++ (hd.drop 20).take 11
  h ++ [BitVec.ofNat 8 (256 - (h.foldl (fun a b => a + b.toNat) 0) % 256)]

/-- The whole flipped card; pad gives the bytes between its metadata and its values (R327). -/
def flipCard (hd : List Byte) (masks : List Nat) (vals : List Byte) (pad : Nat → Byte) : List Byte :=
  let c := cardOf hd
  let d := c.flip
  let nm := c.flipMasks masks
  let md := packMasks d.m nm
  flipHeader hd ++ md ++ (List.range (d.voff - (32 + d.mb))).map (fun i => pad (32 + d.mb + i))
    ++ d.packValues nm (fun i k => c.element masks vals k i)

/-- Row j of the dense transpose of the card's operand (R328). -/
def Card.transposedRow (c : Card) (masks : List Nat) (vals : List Byte) (j : Nat) : List Byte :=
  (List.range c.rop).flatMap (fun i => c.element masks vals i j)

end Sys2Proof.Machine
end

