-- ==== Sys2Proof/Machine/Address.lean ====
section
/-! DEFINITION. Level-qualified addresses, translation, and accesses of engines to every memory (R104, R105, R110 to R113,
R116, R121 to R131, R135, R136). -/
namespace Sys2Proof.Machine

/-! ### Statuses (R131, R402) -/

/-- OK. -/
def stOk : Byte := 0
/-- TRANSLATION. -/
def stTranslation : Byte := 0x41
/-- PERMISSION. -/
def stPermission : Byte := 0x42
/-- UNCORRECTABLE. -/
def stUncorrectable : Byte := 0x43
/-- RANGE. -/
def stRange : Byte := 0x44
/-- CARD_MALFORMED. -/
def stCard : Byte := 0x45
/-- LINK. -/
def stLink : Byte := 0x46
/-- BARRIER_STALE. -/
def stStale : Byte := 0x47

/-- A failure with its place in the order of R131: RANGE under R121, TRANSLATION, PERMISSION, RANGE under R104,
UNCORRECTABLE, LINK. -/
structure Fail where
  rank : Nat
  status : Byte
  deriving DecidableEq, Repr

/-- The failure that R131 records of two. -/
def worse : Option Fail → Option Fail → Option Fail
  | some a, some b => if b.rank < a.rank then some b else some a
  | some a, none => some a
  | none, b => b

/-- RANGE under R121. -/
def failRange : Fail := ⟨0, stRange⟩
/-- A failed walk. -/
def failWalk (st : Byte) : Fail :=
  ⟨if st = stTranslation then 1 else if st = stRange then 3 else if st = stLink then 5 else 4, st⟩
/-- PERMISSION. -/
def failPerm : Fail := ⟨2, stPermission⟩
/-- RANGE under R104. -/
def failPhys : Fail := ⟨3, stRange⟩
/-- UNCORRECTABLE. -/
def failEcc : Fail := ⟨4, stUncorrectable⟩
/-- LINK. -/
def failLink : Fail := ⟨5, stLink⟩

/-! ### Main memory (R104, R105, R110 to R113) -/

/-- The first physical address that names no memory (R104). -/
def hbmEnd : Nat := 0x9000000000

/-- The pseudo-channel of a physical address (R105). -/
def pseudoChannel (pa : Nat) : Nat :=
  let g := pa / 4096
  let q := g / 768
  let j := g % 768
  let f := (q % 256) ^^^ (q / 256 % 256) ^^^ (q / 65536 % 256)
  256 * ((j / 256 + q) % 3) + ((j % 256) ^^^ f)

/-- The physical address of a byte offset in a pseudo-channel: the inverse of R105. -/
def pseudoAddress (pc offset : Nat) : Nat :=
  let q := offset / 4096
  let f := (q % 256) ^^^ (q / 256 % 256) ^^^ (q / 65536 % 256)
  let t := (pc / 256 + 3 - q % 3) % 3
  (q * 768 + t * 256 + ((pc % 256) ^^^ f)) * 4096 + offset % 4096

/-- The channel of a physical address, numbered over the package: 32 channels a stack. -/
def channelOf (pa : Nat) : Nat := pseudoChannel pa / 2
/-- The die whose stacks hold a physical address. -/
def hbmDie (pa : Nat) : DieId := BitVec.ofNat 2 (pseudoChannel pa / 64 / 3)

/-- A channel of the package. -/
def State.chan (s : State) (k : Nat) : Channel := s.chans[k]?.getD Channel.reset
/-- The state with a channel changed. -/
def State.modChan (s : State) (k : Nat) (f : Channel → Channel) : State :=
  if h : k < 384 then { s with chans := s.chans.set k (f s.chans[k]) h } else s

/-- The channel of a physical address has failed (R110). -/
def State.paFailed (s : State) (pa : Nat) : Bool := (s.chan (channelOf pa)).failed
/-- A request for a physical address waits: its channel is retraining (R107), or the controllers issue no new DRAM command
(R118). DEDUCED: log entry 68. -/
def State.paHeld (s : State) (pa : Nat) : Bool := s.freeze != .none || (s.chan (channelOf pa)).retraining
/-- The line of a physical address is uncorrectable (R112). -/
def State.paBad (s : State) (pa : Nat) : Bool := s.badLines.contains (pa / 64)

/-- A read of the line of a physical address by a controller: an uncorrectable line is counted, a correctable one is
counted, corrected and written back (R111, R112, R116). DEDUCED: log entry 79. -/
def noteLineRead (s : State) (pa : Nat) : State :=
  let k := channelOf pa
  if s.paFailed pa then s
  else if s.paBad pa then s.modChan k (fun c => { c with uecnt := if c.uecnt = 0xF then 0xF else c.uecnt + 1 })
  else if s.weakLines.contains (pa / 64) then
    { s.modChan k (fun c => { c with cecnt := if c.cecnt = 0xFFFF then 0xFFFF else c.cecnt + 1 }) with
      weakLines := s.weakLines.filter (fun l => l != pa / 64) }
  else s

/-! ### Translation (R124 to R128) -/

/-- The bits of the page offset of a leaf at a level (R124). -/
def levelBits : Nat → Nat
  | 1 => 43
  | 2 => 34
  | 3 => 25
  | _ => 16

/-- The address field of an entry or root (R125, R126). -/
def entryPa (e : Dword) : Nat := fld e 39 12 * 4096

/-- A cached table entry of a walker (R128). -/
def cachedEntry (s : State) (who : Option DieId) (asid : BitVec 6) (level va : Nat) : Option Dword :=
  (s.tables.find? (fun t => t.die == who && t.asid == asid && t.level == level && t.page == va / 2 ^ levelBits level)).map
    (fun t => t.entry)

/-- The physical address of the entry of a table that a virtual address selects at a level (R124). -/
def entryAddr (level va table : Nat) : Nat := table + 8 * (va / 2 ^ levelBits level % 512)

/-- A table entry read by a walker: from its cache, or from main memory, across links that fail where link says so and the
walker stands elsewhere (R124, R128, R131). -/
def readEntry (s : State) (who : Option DieId) (link : Bool) (asid : BitVec 6) (level va table : Nat) : Except Byte Dword :=
  match cachedEntry s who asid level va with
  | some e => .ok e
  | none =>
    let pa := entryAddr level va table
    if hbmEnd ≤ pa then .error stRange
    else if s.paFailed pa || s.paBad pa then .error stUncorrectable
    else if link && who != some (hbmDie pa) then .error stLink
    else .ok (memDword s.mem (hbmKey pa))

/-- An entry passes the checks that come before those of a leaf: V is set and no reserved bit is (R127). -/
def entrySound (e : Dword) : Bool := tst e 0 && fld e 63 40 == 0 && fld e 11 5 == 0

/-- A walk goes on from an entry of a level to the next table (R127). -/
def leadsOn (level : Nat) (e : Dword) : Bool :=
  entrySound e && !tst e 1 && decide (level ≠ 4) && decide (entryPa e < hbmEnd)

/-- A walk from a table of a level on, with the levels left as fuel (R127): the leaf and the bits of its page, or a
status. -/
def walkFrom (s : State) (who : Option DieId) (link : Bool) (asid : BitVec 6) (va : Nat) :
    Nat → Nat → Nat → Except Byte (Dword × Nat)
  | 0, _, _ => .error stTranslation
  | n + 1, level, table =>
    match readEntry s who link asid level va table with
    | .error st => .error st
    | .ok e =>
      if leadsOn level e then walkFrom s who link asid va n (level + 1) (entryPa e)
      else if entrySound e && tst e 1 && level != 1 && entryPa e % 2 ^ levelBits level == 0 then .ok (e, levelBits level)
      else .error stTranslation

/-- The root register of an ASID (R125). -/
def State.root (s : State) (asid : BitVec 6) : Dword := s.regs.roots[asid.toNat]

/-- A walk from the root (R125, R127). -/
def walkRoot (s : State) (who : Option DieId) (link : Bool) (asid : BitVec 6) (va : Nat) : Except Byte (Dword × Nat) :=
  if !tst (s.root asid) 0 then .error stTranslation
  else walkFrom s who link asid va 4 1 (entryPa (s.root asid))

/-- The table entries that a walk passes, each with its level and address, whether or not the walk succeeds; the levels left
are fuel. -/
def walkPath (s : State) (who : Option DieId) (link : Bool) (asid : BitVec 6) (va : Nat) :
    Nat → Nat → Nat → List (Nat × Nat × Dword)
  | 0, _, _ => []
  | n + 1, level, table =>
    let pa := entryAddr level va table
    match readEntry s who link asid level va table with
    | .error _ => [(level, pa, 0)]
    | .ok e =>
      if leadsOn level e then (level, pa, e) :: walkPath s who link asid va n (level + 1) (entryPa e)
      else [(level, pa, e)]

/-- The entries that the walk of a virtual address passes. -/
def walkEntries (s : State) (who : Option DieId) (link : Bool) (asid : BitVec 6) (va : Nat) : List (Nat × Nat × Dword) :=
  if tst (s.root asid) 0 then walkPath s who link asid va 4 1 (entryPa (s.root asid)) else []

/-- The table reads of a walk at the controllers: those its walker's cache does not answer (R111, R116). -/
def countWalk (s : State) (who : Option DieId) (asid : BitVec 6) (va : Nat) (l : List (Nat × Nat × Dword)) : State :=
  l.foldl (fun s p =>
    if (cachedEntry s who asid p.1 va).isSome || decide (hbmEnd ≤ p.2.1) then s else noteLineRead s p.2.1) s

/-- Entries that a cache holds (R128). -/
def cacheSize : CacheId → Nat
  | .cluster _ => 4096
  | _ => 256

/-- Entries that a walker's cache holds (R128). -/
def tableCap : Nat := 64

/-- A cache with an entry put first; the oldest beyond its size is lost (DESIGN CHOICE, log entry 12). -/
def insertLeaf (l : List (CacheId × Translation)) (k : CacheId) (t : Translation) : List (CacheId × Translation) :=
  ((k, t) :: l.filter (fun p => p.1 == k && p.2 != t)).take (cacheSize k) ++ l.filter (fun p => p.1 != k)

/-- A walker's cache with an entry put first. DESIGN CHOICE: log entry 12. -/
def insertTable (l : List TableEntry) (t : TableEntry) : List TableEntry :=
  (t :: l.filter (fun p => p.die == t.die && !(p.asid == t.asid && p.level == t.level && p.page == t.page))).take tableCap
    ++ l.filter (fun p => p.die != t.die)

/-- A walk for some caches: its table reads, and the translation put into each of them with the L1 to L3 entries it read;
a walk that ends in a fault, one whose leaf does not allow what it is for, or one while an invalidation is in progress inserts
nothing (R128, R129). DESIGN CHOICE: log entry 12. -/
def walkInto (s : State) (who : Option DieId) (link : Bool) (caches : List CacheId) (asid : BitVec 6) (va : Nat)
    (allows : Dword → Bool) : State :=
  let path := walkEntries s who link asid va
  let t := countWalk s who asid va path
  match walkRoot s who link asid va with
  | .error _ => t
  | .ok (e, bits) =>
    if s.regs.invalidating.isSome || !allows e then t
    else
      { t with
        tables := path.foldl (fun l p =>
          if p.1 < 4 then insertTable l ⟨who, asid, p.1, va / 2 ^ levelBits p.1, p.2.2⟩ else l) t.tables
        tcache := caches.foldl (fun l k => insertLeaf l k ⟨asid, bits, va / 2 ^ bits, e⟩) t.tcache }

/-- The walk of a virtual address needs a table entry whose read waits (R107, R118). -/
def walkHeld (s : State) (who : Option DieId) (link : Bool) (asid : BitVec 6) (va : Nat) : Bool :=
  (walkEntries s who link asid va).any (fun p =>
    !(cachedEntry s who asid p.1 va).isSome && decide (p.2.1 < hbmEnd) && s.paHeld p.2.1)

/-- A translation held in one of the caches that a request looks in (R128). -/
def cachedLeaf (s : State) (caches : List CacheId) (asid : BitVec 6) (va : Nat) : Option (Dword × Nat) :=
  (s.tcache.find? (fun p => caches.contains p.1 && p.2.asid == asid && p.2.page == va / 2 ^ p.2.bits)).map
    (fun p => (p.2.leaf, p.2.bits))

/-- What an access does. -/
inductive Kind
  | read | write | update | fetch
  deriving DecidableEq, Repr

/-- A leaf permits an access (R126, R127). -/
def leafAllows (e : Dword) : Kind → Bool
  | .read | .fetch => tst e 3
  | .write => tst e 2
  | .update => tst e 2 && tst e 3 && tst e 4

/-- Who makes a request: the caches it looks in, the die on which it stands, whose walker serves it (none is the link die),
its ASID, the launch of the window rule, the core against which tags 110 and 111 resolve, and whether the links it crosses
fail. -/
structure Requester where
  caches : List CacheId
  walker : Option DieId
  asid : BitVec 6
  launch : Option Nat
  core : CoreId
  link : Bool
  deriving DecidableEq, Repr

/-- The physical address of a virtual address, for an access of n bytes that does not cross a page. -/
def translate (s : State) (q : Requester) (kind : Kind) (va n : Nat) : Except Fail Nat :=
  let leaf := match cachedLeaf s q.caches q.asid va with
    | some p => (.ok p : Except Byte (Dword × Nat))
    | none => walkRoot s q.walker q.link q.asid va
  match leaf with
  | .error st => .error (failWalk st)
  | .ok (e, bits) =>
    if !leafAllows e kind then .error failPerm
    else
      let pa := entryPa e + va % 2 ^ bits
      if hbmEnd < pa + n then .error failPhys else .ok pa

/-! ### Level-qualified addresses (R121 to R123) -/

/-- Where a byte lies: main memory, a scratch memory by its place in the state, or host memory. -/
inductive Place
  | hbm (pa : Nat)
  | scratch (key : Nat) (die : DieId)
  | host (a : Nat)
  deriving DecidableEq, Repr

/-- The place in the state's memory. -/
def Place.key : Place → Nat
  | .hbm pa => hbmKey pa
  | .scratch k _ => k
  | .host a => hostKey a

/-- The core of tag 011's fields. -/
def tagCore (a : Dword) : CoreId := BitVec.ofNat 8 (fld a 33 32 * 64 + fld a 31 28 * 4 + fld a 27 26)
/-- The cluster of tag 010's fields. -/
def tagCluster (a : Dword) : ClusterId := BitVec.ofNat 6 (fld a 33 32 * 16 + fld a 31 28)

/-- Tags 110 and 111 resolved to 010 and 011 against a core (R122); reserved bits stay in place. -/
def resolveTag (g : CoreId) (a : Dword) : Dword :=
  let d := (dieOf g).toNat
  let c := (clusterOf g).toNat % 16
  match fld a 63 61 with
  | 6 => if fld a 60 22 ≠ 0 then a else dw (2 * 2 ^ 61 + d * 2 ^ 32 + c * 2 ^ 28 + fld a 21 0)
  | 7 => if fld a 60 20 ≠ 0 then a else dw (3 * 2 ^ 61 + d * 2 ^ 32 + c * 2 ^ 28 + (g.toNat % 4) * 2 ^ 26 + fld a 19 0)
  | _ => a

/-- An extent of a core's side memory lies wholly in a window of the launch (R123). -/
def inWindow (s : State) (launch : Option Nat) (g : CoreId) (off n : Nat) : Bool :=
  s.bands.any (fun b => launch == some b.launch && b.core == g && decide (b.wbase ≤ off)
    && decide (off + n ≤ b.wbase + b.wsize))

/-- The fields that must be zero are zero, and n bytes stay inside the level (R121). -/
def tagOk (a : Dword) (n : Nat) : Bool :=
  match fld a 63 61 with
  | 0 => fld a 60 52 == 0 && decide (fld a 51 0 + n ≤ 2 ^ 52)
  | 1 => fld a 60 34 == 0 && fld a 31 26 == 0 && decide (fld a 25 0 + n ≤ 2 ^ 26)
  | 2 => fld a 60 34 == 0 && fld a 27 22 == 0 && decide (fld a 21 0 + n ≤ 2 ^ 22)
  | 3 => fld a 60 34 == 0 && fld a 25 20 == 0 && decide (fld a 19 0 + n ≤ 2 ^ 20)
  | 4 => fld a 60 52 == 0 && decide (fld a 51 0 + n ≤ 2 ^ 52)
  | _ => false

/-- The trace buffer of die memory (R136). -/
def inTrace (s : State) (d : DieId) (off n : Nat) : Bool := (s.die d).trEn && decide (0x3C00000 < off + n)

/-- Where an access of n bytes goes, or why it fails before its data is touched. The access stays in one page. -/
def resolve (s : State) (q : Requester) (kind : Kind) (a0 : Dword) (n : Nat) : Except Fail Place :=
  let a := resolveTag q.core a0
  if !tagOk a n then .error failRange
  else
    match fld a 63 61 with
    | 0 =>
      match translate s q kind (fld a 51 0) n with
      | .ok pa => .ok (.hbm pa)
      | .error f => .error f
    | 1 =>
      let d : DieId := BitVec.ofNat 2 (fld a 33 32)
      if inTrace s d (fld a 25 0) n then .error failPerm else .ok (.scratch (dieKey d.toNat (fld a 25 0)) d)
    | 2 => .ok (.scratch (clusterKey (tagCluster a).toNat (fld a 21 0)) (clusterDie (tagCluster a)))
    | 3 =>
      if inWindow s q.launch (tagCore a) (fld a 19 0) n
      then .ok (.scratch (sideKey (tagCore a).toNat (fld a 19 0)) (dieOf (tagCore a)))
      else .error failPerm
    | _ => if tst (s.root q.asid) 2 then .ok (.host (fld a 51 0)) else .error failPerm

/-! ### Data (R111 to R113, R135) -/

/-- A place lies beyond a cross link or the link die from where a requester stands: a die, or the link die, behind which
host memory lies (R103, R131). -/
def Place.away (p : Place) (d : Option DieId) : Bool :=
  match p with
  | .hbm pa => d != some (hbmDie pa)
  | .scratch _ e => d != some e
  | .host _ => d.isSome

/-- The place lies behind the treadle link, which may be down (R428). -/
def Place.isHost (p : Place) : Bool :=
  match p with
  | .host _ => true
  | _ => false

/-- The words of scratch memory that [key, key + n) touches and that are bad. -/
def badWordsIn (s : State) (key n : Nat) : List Nat :=
  s.badWords.filter (fun w => decide (key < 8 * w + 8) && decide (8 * w < key + n))

/-- A read of n bytes at a place finds an uncorrectable line or word, or a failed channel.
DESIGN CHOICE: log entry 59. -/
def readFails (s : State) (p : Place) (n : Nat) : Bool :=
  match p with
  | .hbm pa => s.paFailed pa || s.paBad pa
  | .scratch k _ => !(badWordsIn s k n).isEmpty
  | .host _ => false

/-- A write of n bytes fails: a failed channel, part of a bad line, or part of a bad word (R113, R403).
DESIGN CHOICE: log entry 59. -/
def writeFails (s : State) (p : Place) (n : Nat) : Bool :=
  match p with
  | .hbm pa => s.paFailed pa || (s.paBad pa && n != 64)
  | .scratch k _ => (badWordsIn s k n).any (fun w => decide (8 * w < k) || decide (k + n < 8 * w + 8))
  | .host _ => false

/-- The bytes at a place. -/
def placeBytes (s : State) (p : Place) (n : Nat) : List Byte := memRead s.mem p.key n

/-- A transfer passes the treadle link: a run of failures on a flit ends (R428). -/
def passTreadle (s : State) : State := { s with treadle := { s.treadle with fails := 0 } }

/-- The effect of a read on the counters. -/
def noteRead (s : State) (p : Place) : State :=
  match p with
  | .hbm pa => noteLineRead s pa
  | .scratch _ _ => s
  | .host _ => passTreadle s

/-- The notes of what commands have written without those of n bytes from a key on: something else stands there now. -/
def forgetNotes (l : List WriteNote) (key n : Nat) : List WriteNote :=
  if l.isEmpty then [] else l.filter (fun w => decide (w.key < key) || decide (key + n ≤ w.key))

/-- A write at a place: a whole line or word is good again; a part of a line is read first (R113). -/
def placeWrite (s : State) (p : Place) (bs : List Byte) : State :=
  let s := { s with mem := memWrite s.mem p.key bs, notes := forgetNotes s.notes p.key bs.length }
  match p with
  | .hbm pa =>
    if bs.length = 64 then
      { s with badLines := s.badLines.filter (fun l => l != pa / 64), weakLines := s.weakLines.filter (fun l => l != pa / 64) }
    else noteLineRead s pa
  | .scratch k _ =>
    let w := badWordsIn s k bs.length
    { s with badWords := s.badWords.filter (fun x => !w.contains x) }
  | .host _ => passTreadle s

/-- An access of n bytes cut at 64-byte boundaries of its address: the pieces as offset and length. -/
def pieces (a : Dword) (n : Nat) : List (Nat × Nat) :=
  let h := 64 - a.toNat % 64
  if n ≤ h then [(0, n)]
  else (0, h) :: (List.range ((n - h + 63) / 64)).map (fun i => (h + 64 * i, min 64 (n - h - 64 * i)))

/-- The pieces of an access resolved, or the failure that R131 records. A transfer that crosses a link which fails is
LINK. -/
def resolveAll (s : State) (q : Requester) (kind : Kind) (a : Dword) (n : Nat) :
    Except Fail (List (Place × Nat × Nat)) :=
  let r := (pieces a n).map (fun p => (resolve s q kind (a + dw p.1) p.2, p))
  let bad (x : Except Fail Place × (Nat × Nat)) : Option Fail :=
    match x.1 with
    | .error f => some f
    | .ok p =>
      if (if kind == .write then writeFails s p x.2.2 else readFails s p x.2.2) then some failEcc
      else if (q.link && p.away q.walker) || (p.isHost && s.treadle.down) then some failLink else none
  match r.foldl (fun f x => worse f (bad x)) none with
  | some f => .error f
  | none => .ok (r.filterMap (fun x => match x.1 with | .ok p => some (p, x.2) | .error _ => none))

/-- The virtual addresses that an access of n bytes translates, one for each line. -/
def translated (q : Requester) (a : Dword) (n : Nat) : List (Nat × Nat) :=
  (pieces a n).filterMap (fun p =>
    let x := resolveTag q.core (a + dw p.1)
    if tagOk x p.2 && fld x 63 61 == 0 then some (fld x 51 0, p.2) else none)

/-- The walks that an access makes: one for each of its translations that no cache holds (R128).
DESIGN CHOICE: log entry 12. -/
def walked (s : State) (q : Requester) (kind : Kind) (a : Dword) (n : Nat) : State :=
  (translated q a n).foldl (fun s v =>
    if (cachedLeaf s q.caches q.asid v.1).isSome then s
    else walkInto s q.walker q.link q.caches q.asid v.1 (fun e => leafAllows e kind)) s

/-- The walks that an access makes wait for a table entry (R107, R118). -/
def walksHeld (s : State) (q : Requester) (a : Dword) (n : Nat) : Bool :=
  (translated q a n).any (fun v =>
    !(cachedLeaf s q.caches q.asid v.1).isSome && walkHeld s q.walker q.link q.asid v.1)

/-- A part of an access lies in a window of the launch that is away: it waits until the band is restored (R351).
DEDUCED: log entry 95. -/
def savedHeld (s : State) (q : Requester) (a : Dword) (n : Nat) : Bool :=
  (pieces a n).any (fun p =>
    let x := resolveTag q.core (a + dw p.1)
    fld x 63 61 == 3 && s.bands.any (fun b => q.launch == some b.launch && b.gone s && b.core == tagCore x
      && decide (fld x 19 0 < b.wbase + b.wsize) && decide (b.wbase < fld x 19 0 + p.2)))

/-- An access waits: for a table entry of its walks, or for a line of main memory, in a channel that is retraining, or
because the controllers issue no new command (R107, R118); or for a saved band (R351). -/
def accessHeld (s : State) (q : Requester) (kind : Kind) (a : Dword) (n : Nat) : Bool :=
  savedHeld s q a n || walksHeld s q a n || (translated q a n).any (fun v =>
    match translate s q kind v.1 v.2 with
    | .ok pa => s.paHeld pa
    | .error _ => false)

/-- The counters of the lines a read has touched, whether or not it failed (R116). -/
def noteReads (s : State) (q : Requester) (kind : Kind) (a : Dword) (n : Nat) : State :=
  (pieces a n).foldl (fun s p =>
    match resolve s q kind (a + dw p.1) p.2 with
    | .ok pl => noteRead s pl
    | .error _ => s) s

/-- The access failed before any memory was touched: RANGE, TRANSLATION or PERMISSION of one of its lines (R131, R177). -/
def Fail.early (f : Fail) : Bool := decide (f.rank < 4)

/-- n bytes read at a level-qualified address, with its walks and the counters. -/
def readAddr (s : State) (q : Requester) (a : Dword) (n : Nat) : State × Except Fail (List Byte) :=
  let s := walked s q .read a n
  let t := noteReads s q .read a n
  match resolveAll s q .read a n with
  | .error f => (if f.early then s else t, .error f)
  | .ok l => (t, .ok (l.flatMap (fun p => placeBytes s p.1 p.2.2)))

/-- The counters of the lines that a write reads: those it covers in part (R113, R116). -/
def noteWrites (s : State) (q : Requester) (a : Dword) (n : Nat) : State :=
  (pieces a n).foldl (fun s p =>
    match resolve s q .write (a + dw p.1) p.2 with
    | .ok pl => if p.2 = 64 then s else noteRead s pl
    | .error _ => s) s

/-- Bytes written at a level-qualified address: all of them, or none and the failure. -/
def writeAddr (s : State) (q : Requester) (a : Dword) (bs : List Byte) : State × Option Fail :=
  let s := walked s q .write a bs.length
  match resolveAll s q .write a bs.length with
  | .error f => (if f.early then s else noteWrites s q a bs.length, some f)
  | .ok l => (l.foldl (fun s p => placeWrite s p.1 ((bs.drop p.2.1).take p.2.2)) s, none)

/-- The keys of memory that n bytes at an address touch, where they can be resolved. -/
def writtenKeys (s : State) (q : Requester) (a : Dword) (n : Nat) : List (Nat × Nat) :=
  (pieces a n).filterMap (fun p =>
    match resolve s q .write (a + dw p.1) p.2 with
    | .ok pl => some (pl.key, p.2)
    | .error _ => none)

/-! ### What a command does not observe (R148) -/

/-- What a command of number c has written, from s to t, at some ranges of keys is noted; what s had noted stays.
DEDUCED: log entry 90. -/
def State.noted (t s : State) (c : Nat) (keys : List (Nat × Nat)) : State :=
  { t with notes := (keys.flatMap (fun p => (List.range p.2).map (fun i => p.1 + i))).map (fun a =>
      (⟨c, a, memGet s.mem a, memGet t.mem a⟩ : WriteNote)) ++ s.notes }

/-- A note is hidden from a command: it is of another command in flight. Gather-scatter commands of one core observe one another
as their order gives (R184). DEDUCED: log entry 90. -/
def hiddenFrom (s : State) (k : Cmd) (w : WriteNote) : Bool :=
  w.cmd != k.id && s.cmds.any (fun e => e.id == w.cmd && !(e.cls == .gs && k.cls == .gs && e.core == k.core))

/-- What a byte is without the newest writes that are hidden. -/
def withoutHidden (hid : WriteNote → Bool) : List WriteNote → Byte → Byte
  | [], v => v
  | w :: l, v => if hid w && w.new == v then withoutHidden hid l w.old else v

/-- Memory as a command observes it: without what other commands in flight have written (R148). DEDUCED: log entry 90. -/
def unseenMem (s : State) (k : Cmd) : Memory :=
  s.notes.foldl (fun m w =>
    memSet m w.key (withoutHidden (hiddenFrom s k) (s.notes.filter (fun v => v.key == w.key)) (memGet s.mem w.key))) s.mem

/-- What a step reads from a memory other than the state's own; what it does to the rest of the state stays. -/
def readingFrom {α : Type} (m : Memory) (s : State) (f : State → State × α) : State × α :=
  let (t, x) := f { s with mem := m }
  ({ t with mem := s.mem }, x)

/-- The bytes at a place as a command observes them. -/
def seenBytes (s : State) (k : Cmd) (p : Place) (n : Nat) : List Byte := memRead (unseenMem s k) p.key n

/-- The notes once a command has retired: its writes are observed, and hide what others wrote at their keys before. seen are
the keys at which a newer note was its. DEDUCED: log entry 90. -/
def settledNotes (c : Nat) (seen : List Nat) : List WriteNote → List WriteNote
  | [] => []
  | w :: l =>
    if w.cmd = c then settledNotes c (w.key :: seen) l
    else if seen.contains w.key then settledNotes c seen l else w :: settledNotes c seen l

/-- An indivisible update of n bytes, every line or none: the new bytes of a line from its offset and the old (R127, R182,
R278). -/
def updateAddr (s : State) (q : Requester) (a : Dword) (n : Nat) (f : Nat → List Byte → List Byte) : State × Option Fail :=
  let s := walked s q .update a n
  let t := noteReads s q .update a n
  match resolveAll s q .update a n with
  | .error e => (if e.early then s else t, some e)
  | .ok l => (l.foldl (fun s p => placeWrite s p.1 (f p.2.1 (placeBytes s p.1 p.2.2))) t, none)

/-- A read of physical memory by the link die: its lines counted, the first failing status (R103, R104, R110, R112, R131). -/
def readPhys (s : State) (pa n : Nat) : State × Except Byte (List Byte) :=
  let lines := (List.range ((pa % 64 + n + 63) / 64)).map (fun i => pa / 64 * 64 + 64 * i)
  let t := lines.foldl (fun s a => if a < hbmEnd then noteLineRead s a else s) s
  if hbmEnd < pa + n then (t, .error stRange)
  else if lines.any (fun a => s.paFailed a || s.paBad a) then (t, .error stUncorrectable)
  else if s.crossFail then (t, .error stLink)
  else (t, .ok (memRead s.mem (hbmKey pa) n))

/-- An access of physical memory from pa to pa + n - 1 waits (R107, R118). -/
def physHeld (s : State) (pa n : Nat) : Bool :=
  (List.range ((pa % 64 + n + 63) / 64)).any (fun i => s.paHeld (pa / 64 * 64 + 64 * i))

/-- The requester of a core's shuttle, and of the gather-scatter requests of the core (R128). -/
def coreRequester (s : State) (g : CoreId) (launch : Nat) (link : Bool) : Requester :=
  let asid := match s.launch? launch with
    | some l => l.asid
    | none => 0
  ⟨[.shuttle g, .cluster (clusterOf g)], some (dieOf g), asid, some launch, g, link || s.crossFail⟩

/-- The requester of the walker of a core's cluster, for a command of the core (R122, R201). -/
def walkRequester (s : State) (g : CoreId) (launch : Nat) : Requester :=
  { coreRequester s g launch false with caches := [.cluster (clusterOf g)] }

/-- The requester of the network engine, on the link die: what it reaches lies beyond a link (R103, R128, R131). -/
def netRequester (s : State) (asid : BitVec 6) (launch : Option Nat) (g : CoreId) : Requester :=
  ⟨[.network], none, asid, launch, g, s.crossFail⟩

/-- The requester of the network engine for a command. -/
def cmdRequester (s : State) (k : Cmd) : Requester :=
  netRequester s (coreRequester s k.core k.launch false).asid (some k.launch) k.core

/-! ### The doubleword of an event slot (R278, R354) -/

/-- An event slot's address: tag 000, a multiple of 8 (R278). -/
def slotAddrOk (a : Dword) : Bool := fld a 63 52 == 0 && fld a 2 0 == 0

/-- An update of an event slot waits for main memory (R107, R118). -/
def slotHeld (s : State) (q : Requester) (a : Dword) (set : Bool) : Bool :=
  slotAddrOk a && accessHeld s q (if set then .write else .update) a 8

/-- An update of an event slot: added to under RMW, or set under WR (R278). -/
def updateSlot (s : State) (q : Requester) (a v : Dword) (set : Bool) : State × Byte :=
  if !slotAddrOk a then (s, stRange)
  else if set then
    match writeAddr s q a (leBytes 8 v.toNat) with
    | (t, none) => (t, stOk)
    | (t, some f) => (t, f.status)
  else
    match updateAddr s q a 8 (fun _ bs => leBytes 8 ((leNat bs + v.toNat) % 2 ^ 64)) with
    | (t, none) => (t, stOk)
    | (t, some f) => (t, f.status)

end Sys2Proof.Machine
end

