-- ==== Sys2Proof/Machine/Control.lean ====
section
/-! DEFINITION. Branches, calls, EXIT, YIELD, NOP and structured divergence (R267 to R274). -/
namespace Sys2Proof.Machine

/-! ### Transfers (R267) -/

/-- The target of a BR or J word (R33, R34). -/
def branchTarget {n : Nat} (pc : Dword) (o : BitVec n) : Dword := pc + 4 * o.signExtend 64

/-- BRA (R267). -/
def execBra (o : BitVec 24) (s : State) : Out :=
  match s.active with
  | .monitor g => monWord s g false (fun m => m.advance (branchTarget m.pc o))
  | _ => issue s accNone fNone fNone fNone (fun c => .ok (.jump c.s (branchTarget c.x.pc o)))

/-- BZ and BNZ: the branch is taken where the test of sA holds. -/
def branchIf (s : State) (a : Reg) (o : BitVec 19) (test : Dword → Bool) : Out :=
  match s.active with
  | .monitor g => monWord s g false (fun m =>
      m.advance (if test (m.sget a) then branchTarget m.pc o else m.pc + 4))
  | _ => issue s accNone fNone (fSca a) fNone (fun c => do
      c.needS a false 1
      .ok (.jump c.s (if test (c.x.sget a) then branchTarget c.x.pc o else c.x.pc + 4)))

/-- BZ (R267). -/
def execBz (a : Reg) (o : BitVec 19) (s : State) : Out := branchIf s a o (fun v => v == 0)
/-- BNZ (R267). -/
def execBnz (a : Reg) (o : BitVec 19) (s : State) : Out := branchIf s a o (fun v => v != 0)

/-- CALL (R267): s31 receives the return address, as a destination under R223. -/
def execCall (o : BitVec 24) (s : State) : Out :=
  match s.active with
  | .monitor g => monWord s g false (fun m => (m.sset 31 (m.pc + 4)).advance (branchTarget m.pc o))
  | _ => issue s accNone fNone fNone fNone (fun c => do
      c.needSDst 31
      .ok (.jump (c.s.setRow c.r (c.x.sset 31 (c.x.pc + 4))) (branchTarget c.x.pc o)))

/-- RET and JMPR: a target that is not a multiple of 4 traps with MISALIGN, before the PC changes (R59). -/
def jumpReg (s : State) (a : Reg) (ta : Bool) : Out :=
  match s.active with
  | .monitor g =>
    if ((s.core g).mon.sget a).extractLsb' 0 2 = 0 then monWord s g false (fun m => m.advance (m.sget a))
    else monReject s g
  | _ => issue s accNone fNone (fSca a) fNone (fun c => do
      c.needS a ta 1
      if (c.x.sget a).extractLsb' 0 2 = 0 then .ok (.jump c.s (c.x.sget a))
      else .error (misalign 0 (c.x.sget a)))

/-- RET (R267). -/
def execRet (a : Reg) (ta : Bool) (s : State) : Out := jumpReg s a ta
/-- JMPR (R267). -/
def execJmpr (a : Reg) (ta : Bool) (s : State) : Out := jumpReg s a ta

/-! ### EXIT, YIELD, NOP -/

/-- EXIT (R269): first R99, then what a stream left for it (R298), posted writes (DEDUCED, log entry 25), the wait of R163,
the end of the row. -/
def execExit (s : State) : Out :=
  issue s accNone fNone fNone fNone (fun c => c.deliver (c.streamDue (do
    let c ← c.release
    if exitHeld c.x then .error (.wait 8 .v)
    .ok (.raw (exitRow c.s c.r c.band.launch)))))

/-- YIELD (R270): 16 V-cycles of lower priority, counted to 1, at which the interval ends. DEDUCED: log entry 67. -/
def execYield (s : State) : Out :=
  issue s accNone fNone fNone fNone (fun c =>
    .ok (.done (c.s.setRow c.r { c.x with ctl := { c.x.ctl with yieldLeft := 17 } })))

/-- NOP (R270). -/
def execNop (s : State) : Out :=
  match s.active with
  | .monitor g => monWord s g false (fun m => m.advance (m.pc + 4))
  | _ => issue s accNone fNone fNone fNone (fun c => .ok (.done c.s))

/-! ### Structured divergence (R271 to R273) -/

/-- MASK_STACK: 0 full, 1 empty or mismatched (R400). -/
def maskStack (detail : Byte) : Stop := trapOf 0x15 detail 0

/-- The row with its divergence mask set. -/
def Row.setM0 (x : Row) (v : Mask) : Row := x.mset 0 v

/-- A structured instruction: it acts even while the divergence mask is empty (R273). -/
def structuredOp (s : State) (fa : FieldUse) (body : Ctx → Except Stop Act) : Out :=
  issueWith true false s accNone fNone fa fNone body

/-- The PC goes to T where the new divergence mask is empty, otherwise to the next word. -/
def divergeTo (c : Ctx) (y : Row) (o : BitVec 19) : Act :=
  .jump (c.s.setRow c.r y) (if y.mget 0 = 0 then branchTarget c.x.pc o else c.x.pc + 4)

/-- IF (R272). -/
def execIfm (k : MReg) (o : BitVec 19) (s : State) : Out :=
  structuredOp s (fMsk k) (fun c =>
    if 16 ≤ c.x.stack.length then .error (maskStack 0)
    else
      let m := c.x.mget 0
      let mk := c.x.mget k
      let y := { c.x with stack := ⟨false, false, m, m &&& ~~~mk⟩ :: c.x.stack }
      .ok (divergeTo c (y.setM0 (m &&& mk)) o))

/-- ELSE (R272). -/
def execElsem (o : BitVec 19) (s : State) : Out :=
  structuredOp s fNone (fun c =>
    match c.x.stack with
    | e :: l =>
      if e.isLoop || e.elseDone then .error (maskStack 1)
      else
        let y := { c.x with stack := { e with elseDone := true } :: l }
        .ok (divergeTo c (y.setM0 e.pend) o)
    | [] => .error (maskStack 1))

/-- ENDIF (R272). -/
def execEndifm (s : State) : Out :=
  structuredOp s fNone (fun c =>
    match c.x.stack with
    | e :: l =>
      if e.isLoop then .error (maskStack 1)
      else .ok (.done (c.s.setRow c.r ({ c.x with stack := l }.setM0 e.saved)))
    | [] => .error (maskStack 1))

/-- LOOP (R272). -/
def execLoopm (o : BitVec 19) (s : State) : Out :=
  structuredOp s fNone (fun c =>
    if 16 ≤ c.x.stack.length then .error (maskStack 0)
    else .ok (divergeTo c { c.x with stack := ⟨true, false, c.x.mget 0, 0⟩ :: c.x.stack } o))

/-- The entries above the innermost loop lose the lanes that break; none where no loop is open (R272). -/
def breakLanes (b : Mask) : List MaskEntry → Option (List MaskEntry)
  | [] => none
  | e :: l =>
    if e.isLoop then some (e :: l)
    else (breakLanes b l).map (fun r => { e with saved := e.saved &&& ~~~b, pend := e.pend &&& ~~~b } :: r)

/-- BRKM (R272). -/
def execBrkm (k : MReg) (o : BitVec 19) (s : State) : Out :=
  structuredOp s (fMsk k) (fun c =>
    let b := c.x.mget 0 &&& c.x.mget k
    match breakLanes b c.x.stack with
    | none => .error (maskStack 1)
    | some l => .ok (divergeTo c ({ c.x with stack := l }.setM0 (c.x.mget 0 &&& ~~~b)) o))

/-- ENDL (R272). -/
def execEndl (o : BitVec 19) (s : State) : Out :=
  structuredOp s fNone (fun c =>
    match c.x.stack with
    | e :: l =>
      if !e.isLoop then .error (maskStack 1)
      else if c.x.mget 0 ≠ 0 then .ok (.jump c.s (branchTarget c.x.pc o))
      else .ok (.jump (c.s.setRow c.r ({ c.x with stack := l }.setM0 e.saved)) (c.x.pc + 4))
    | [] => .error (maskStack 1))

end Sys2Proof.Machine
end

