-- ==== Sys2Proof/Machine/System.lean ====
section
/-! DEFINITION. CSRs and the system instructions CSRR, CSRW, TRAP, BKPT, LNCH, EVSIG (R100, R215 to R220, R275 to R278,
R375, R389 to R391, R395, R396). -/
namespace Sys2Proof.Machine

/-! ### Pace requests (R357, R379, R381) -/

/-- A pace request is within R379 and R381. DEDUCED: log entry 80. -/
def paceLegal (v : Dword) : Bool :=
  let m := fld v 7 0
  let w := fld v 15 8
  let n := fld v 23 16
  let h := fld v 31 24
  decide (8 ≤ m) && decide (m ≤ 16) && decide (8 ≤ w) && decide (w ≤ 20) && decide (8 ≤ n) && decide (n ≤ 16)
    && (h == 10 || h == 12 || h == 14) && decide (m ≤ w)

/-- PACEREQ written by the lead row: refused whole where PREQ is set and its values are illegal (R391). -/
def pacereqNew (old v : Dword) : Dword :=
  let w := v &&& 0x1FFFFFFFFFFFF
  if tst w 48 && !paceLegal w then old else w

/-! ### Reading a CSR -/

/-- The row's index in its band is the lead row (R219). -/
def Row.isLead (x : Row) (b : Band) : Bool := b.parent.isSome || x.inBand.toNat == b.lead
/-- The row has park rights (R219). -/
def Row.canPark (x : Row) (b : Band) : Bool := b.parks.contains x.inBand.toNat

/-- BSTAT (R375). -/
def bstatWord (s : State) (r : RowId) (x : Row) (b : Band) : Dword :=
  let stale := match (s.cluster (clusterOf r.core)).stale.find? (fun p => p.1 == b.launch) with
    | some p => p.2.toNat
    | none => 0
  dw (stale * 2 ^ 32 + x.csr.bslot.toNat * 2 ^ 8 + x.csr.blast.toNat)

/-- A bit as a number. -/
def b2n (b : Bool) : Nat := if b then 1 else 0

/-- The value of a CSR of a row (R215). -/
def csrValue (s : State) (r : RowId) (x : Row) (b : Band) (c : BitVec 12) : Dword :=
  match c.toNat with
  | 0x000 => rowWord r
  | 0x001 => x.csr.wid
  | 0x002 => dw (b.nb * 2 ^ 20 + b.bandIx * 2 ^ 16 + b.height * 2 ^ 8 + x.inBand.toNat)
  | 0x003 => dw b.laneW
  | 0x004 => dw (b2n (x.canPark b) * 2 ^ 8 + b2n (x.isLead b) * 2 ^ 7 + b.lead)
  | 0x005 => dw (b.wsize * 2 ^ 32 + b.wbase)
  | 0x010 => dw (b2n x.fp.pend * 2 ^ 8 + x.fp.flags.toNat)
  | 0x011 => x.fp.en.setWidth 64
  | 0x012 => x.fp.rmode.setWidth 64
  | 0x013 => dw (b2n x.fp.ftz)
  | 0x020 => x.csr.paceg
  | 0x021 => x.csr.paceev.setWidth 64
  | 0x022 => b.pacereq
  | 0x030 => x.repix.setWidth 64
  | 0x031 => dw x.stack.length
  | 0x040 => (s.core r.core).cycle
  | 0x041 => (s.core r.core).mcycle
  | 0x050 => bstatWord s r x b
  | 0x060 => x.csr.wdlim
  | 0x070 => match x.ctl.trap with
    | some t => t.info
    | none => 0
  | _ => 0

/-- The four CSRs of floating-point state, whose access waits for flag-raising instructions (R100). -/
def csrFp (c : BitVec 12) : Bool := c == 0x010 || c == 0x011 || c == 0x012 || c == 0x013

/-- An access to a CSR of a row waits for its earlier flag-raising instructions (R100). -/
def csrWaits (x : Row) (c : BitVec 12) : Bool := csrFp c && x.flagWait.isSome

/-- The fields of WDLIM (R395). -/
def wdlimFields : Dword := 0x1F1F1F1F

/-- A row and its band with a CSR written under its access codes (R8, R215). -/
def csrWrite (s : State) (r : RowId) (x : Row) (b : Band) (c : BitVec 12) (v : Dword) : State :=
  match c.toNat with
  | 0x010 => s.setRow r { x with fp := { x.fp with flags := v.setWidth 5, pend := tst v 8 } }
  | 0x011 => s.setRow r { x with fp := { x.fp with en := v.setWidth 5 } }
  | 0x012 => s.setRow r { x with fp := { x.fp with rmode := v.setWidth 2 } }
  | 0x013 => s.setRow r { x with fp := { x.fp with ftz := tst v 0 } }
  | 0x022 => if x.isLead b then s.modBand b.id (fun b => { b with pacereq := pacereqNew b.pacereq v }) else s
  | 0x060 => s.setRow r { x with csr := { x.csr with wdlim := v &&& wdlimFields } }
  | _ => s

/-- CSRR of PACEEV: the fields, which are then clear (R390). -/
def readPaceev (s : State) (r : RowId) (x : Row) (d : Reg) : State :=
  s.setRow r { x.sset d (x.csr.paceev.setWidth 64) with csr := { x.csr with paceev := 0 } }

/-- The row whose trap the monitor of a core handles, with its band. -/
def monRow (s : State) (g : CoreId) : Option (RowId × Row × Band) :=
  match (s.core g).mon.row with
  | none => none
  | some r =>
    match s.row? r with
    | none => none
    | some x => (s.band? x.band).map (fun b => (r, x, b))

/-- CSRR of the monitor: handler mode reads TRAPINFO only (R408); privileged mode reads the core's counters, and the
CSRs of the trapped row it has taken, PACEEV being cleared by the read (R390), the four of floating-point state once the row's
flag-raising instructions have completed (R100); where it has taken none, the value is open (DESIGN CHOICE, log entry 20). -/
def monCsrr (s : State) (g : CoreId) (d : Reg) (c : BitVec 12) : Out :=
  let put (v : Dword) : Out := monWord s g false (fun m => (m.sset d v).advance (m.pc + 4))
  match (s.core g).mon.mode, monRow s g with
  | .handler, some (r, x, b) => if c = 0x070 then put (csrValue s r x b c) else monReject s g
  | _, some (r, x, b) =>
    if csrWaits x c then .next s else
    let t := if c = 0x021 then s.setRow r { x with csr := { x.csr with paceev := 0 } } else s
    monWord t g false (fun m => (m.sset d (csrValue s r x b c)).advance (m.pc + 4))
  | _, none =>
    if c = 0x040 then put (s.core g).cycle
    else if c = 0x041 then put (s.core g).mcycle
    else put (Config.csrOfNoRow c)

/-- CSRW of the monitor: refused in handler mode (R408); in privileged mode it writes the trapped row it has taken, and
nothing where it has taken none. DESIGN CHOICE: log entry 20. -/
def monCsrw (s : State) (g : CoreId) (a : Reg) (c : BitVec 12) : Out :=
  match (s.core g).mon.mode, monRow s g with
  | .handler, _ => monReject s g
  | _, some (r, x, b) =>
    if csrWaits x c then .next s else
    let v := (s.core g).mon.sget a
    monWord (csrWrite s r x b c v) g false (fun m => m.advance (m.pc + 4))
  | _, none => monWord s g false (fun m => m.advance (m.pc + 4))

/-- CSRR (R275): TRAPINFO traps with PRIVILEGE, BSTAT is a producer, PACEEV is cleared by the read. -/
def execCsrr (d : Reg) (k : BitVec 12) (s : State) : Out :=
  match s.active with
  | .monitor g => monCsrr s g d k
  | _ => issue s accSchd (fSca d) fNone fNone (fun c =>
      if k = 0x070 then .error privilege
      else
        match (if csrFp k then c.x.flagWait else none) with
        | some t => .error t
        | none => do
          c.needSDst d
          if k = 0x021 then .ok (.done (readPaceev c.s c.r c.x d))
          else
            let v := csrValue c.s c.r c.x c.band k
            if k = 0x050 then .ok (.done (c.s.setRow c.r (c.x.produce { dest := .sca d v })))
            else .ok (.done (c.s.setRow c.r (c.x.sset d v))))

/-- CSRW (R275). -/
def execCsrw (a : Reg) (k : BitVec 12) (s : State) : Out :=
  match s.active with
  | .monitor g => monCsrw s g a k
  | _ => issue s accSchd fNone (fSca a) fNone (fun c =>
      if k = 0x070 then .error privilege
      else
        match (if csrFp k then c.x.flagWait else none) with
        | some t => .error t
        | none => do
          c.needS a false 1
          .ok (.done (csrWrite c.s c.r c.x c.band k (c.x.sget a))))

/-- TRAP (R276): USER_TRAP with its code and argument. -/
def execTrap (a : Reg) (i : BitVec 14) (s : State) : Out :=
  issue s accSchd fNone (fSca a) fNone (fun c => do
    c.needS a false 1
    .error (.trap 0x14 0 i (c.x.sget a)))

/-- BKPT (R276): BREAKPOINT with its code and argument. -/
def execBkpt (a : Reg) (i : BitVec 14) (s : State) : Out :=
  issue s accSchd fNone (fSca a) fNone (fun c => do
    c.needS a false 1
    .error (.trap 0x0E 0 i (c.x.sget a)))

/-! ### LNCH and EVSIG -/

/-- The four registers of an operand group are full (R145). -/
def Ctx.needGroup (c : Ctx) (a : Reg) (n : Nat) : Except Stop Unit :=
  (List.range n).forM (fun i => c.needS (a + BitVec.ofNat 5 i) false 1)

/-- Doubleword i of a list of bytes. -/
def bytesDw (l : List Byte) (i : Nat) : Dword := dw (leNat ((l.drop (8 * i)).take 8))

/-- LNCH (R277). A reserved bit is refused with RANGE after the fence; otherwise the block is read, where no watchpoint
matches (R447), and the row waits until the distributor takes or refuses it. An LNCH already waiting keeps its block. DEDUCED: log entry 61. -/
def execLnch (d a : Reg) (s : State) : Out :=
  issue s accSchd (fSca d) (fSca a) fNone (fun c => do
    if c.x.ctl.lnch.isSome then .error (.wait 15 .v)
    c.needGroup a 2
    c.needSDst d
    let va := c.x.sget a
    let vq := c.x.sget (a + 1)
    let off := fld va 19 0
    if off % 64 ≠ 0 then .error (misalign 0 (dw off))
    if c.band.wsize < off + 256 then .error (sideRange 0 (dw off))
    c.deliver (do
      let c ← c.release
      if fld va 63 20 ≠ 0 || fld vq 63 4 ≠ 0 then
        .ok (.done (c.s.setRow c.r (c.x.sset d (stRange.setWidth 64))))
      else
        watchHit c.s c.band.core (c.s.bandAsid c.band) .read
          [(c.band.wbase + off, c.band.wbase + off + 256, dw off)]
        sbWait c.s c.band.core (c.band.wbase + off) (c.band.wbase + off + 256) false
        if c.badBytes off 256 then .error (parity 6 (dw off))
        .ok (.hold (c.s.setRow c.r { c.x with ctl := { c.x.ctl with
          lnch := some ⟨c.bytes off 256, vq.setWidth 4⟩ } }) 15 .v)))

/-- EVSIG (R278): R99, a fence, then the update is sent and the row waits until it is performed. -/
def execEvsig (d a : Reg) (st : Bool) (s : State) : Out :=
  issue s accSchd (fSca d) (fSca a) fNone (fun c => do
    if c.x.ctl.evsig.isSome then .error (.wait 15 .v)
    c.needGroup a 2
    c.needSDst d
    c.deliver (do
      let c ← c.release
      .ok (.hold (c.s.setRow c.r { c.x with ctl := { c.x.ctl with
        evsig := some ⟨c.x.sget a, c.x.sget (a + 1), st⟩ } }) 15 .v)))

/-- An instruction that waited is complete: its result is written and the row goes on. -/
def completeWait (s : State) (r : RowId) (x : Row) (d : Reg) (v : Dword) : State :=
  (s.setRow r (retireRow (x.sset d v) (s.stampAt r))).bump

/-- The D field of the word a row waits at. -/
def Row.waitD (x : Row) : Reg :=
  match x.ibuf with
  | some w => w.extractLsb' 19 5
  | none => 0

/-- EVSIG_UPDATE_PERFORMED (R278): the update is made under the launch's ASID, and sD receives the status; not for a row whose
count has reached the limit, which traps first (R395). -/
def execEvsigUpdatePerformed (r : RowId) (s : State) : Out :=
  match s.row? r with
  | none => eventNext s
  | some x =>
    match x.ctl.evsig, x.ctl.trap, s.band? x.band with
    | some e, none, some b =>
      let q := netRequester s (s.bandAsid b) (some b.launch) r.core
      if slotHeld s q e.slot e.set || (watchdogDue x).isSome then eventNext s else
      let (t, st) := updateSlot s q e.slot e.v e.set
      .next (completeWait t r { x with ctl := { x.ctl with evsig := none } } x.waitD (st.setWidth 64))
    | _, _, _ => eventNext s

/-- PACEEV_READ (R390): a row's read of PACEEV into a register. -/
def execPaceevRead (r : RowId) (d : Reg) (s : State) : Out :=
  match s.row? r with
  | some x => .next (readPaceev s r x d)
  | none => eventNext s

/-- PACEREQ_WRITE (R391): a row's write of its band's request. -/
def execPacereqWrite (r : RowId) (v : BitVec 64) (s : State) : Out :=
  match s.row? r with
  | some x =>
    match s.band? x.band with
    | some b => .next (csrWrite s r x b 0x022 v)
    | none => eventNext s
  | none => eventNext s

end Sys2Proof.Machine
end

