-- ==== Sys2Proof/Machine/Barrier.lean ====
section
/-! DEFINITION. Barrier slots and GBAR: phases, arrivals, credits and fault releases, the barrier instructions, FENCE, and
what holds a row at a boundary point (R340, R371 to R378, R384, R385). -/
namespace Sys2Proof.Machine

/-! ### Boundary points (R384, R385) -/

/-- The row waits in WAIT of class MX: the one wait for a batch that counts M-cycles (R394). -/
def Row.waitsMx (x : Row) : Bool :=
  match x.ctl.wait with
  | some w => w.reason == 8 && w.dom == .m
  | none => false

/-- The row is at a boundary point (R384). -/
def Row.atBoundary (x : Row) : Bool := x.ctl.barrier.isSome || x.waitsMx || x.ctl.trap.isSome

/-- A pace change is pending, or being made, in a cluster (R385, R386). -/
def paceBusy (s : State) (cl : ClusterId) : Bool :=
  let p := (s.cluster cl).pace
  p.pending.isSome || p.switching

/-- The row's band has been asked to stop for a pre-emption (R416, R417). -/
def preempting (s : State) (x : Row) : Bool :=
  match s.band? x.band with
  | some b => b.preempt.isSome
  | none => false

/-- A row held by a pending pace change (R385). -/
def paceHeld (s : State) (r : RowId) (x : Row) : Bool :=
  paceBusy s (clusterOf r.core) && (x.atBoundary || preempting s x)

/-! ### Tokens and results (R372, R374) -/

/-- SLOT of a token. -/
def tokenSlot (t : Dword) : BitVec 6 := t.setWidth 6
/-- GEN of a token. -/
def tokenGen (t : Dword) : BitVec 16 := t.extractLsb' 16 16
/-- Phase index of a token. -/
def tokenPhase (t : Dword) : BitVec 32 := t.extractLsb' 32 32
/-- A token (R372). -/
def makeToken (i : BitVec 6) (gen : BitVec 16) (ph : BitVec 32) : Dword := ph ++ gen ++ (0 : BitVec 10) ++ i
/-- The token of a slot for the phase it is in. -/
def Slot.token (k : Slot) (i : BitVec 6) : Dword := makeToken i k.gen k.phase

/-- A phase count lies after another, modulo 2^32 (R374). DEDUCED: log entry 43. -/
def phaseAfter (p t : BitVec 32) : Bool := decide (0 < (p - t).toNat) && decide ((p - t).toNat < 2 ^ 31)

/-- BARRIER_RESET, or BARRIER_INVALID where the slot has no owner (R372). -/
def Slot.resetStatus (k : Slot) : Byte := if k.owner.isSome then 0x48 else 0x49

/-- The phase index beside a status that no phase completion gave: that of the worked example for phase 0, otherwise one
that the manual does not state. DESIGN CHOICE: log entry 36. -/
def resetIndex (r : RowId) (n : Nat) (ph : BitVec 32) : BitVec 32 :=
  if ph = 0 then 0 else Config.resetPhase (rowWord r).toNat n

/-- What BWAIT finds for a token: the result, or none while it waits (R374). -/
def tokenResult (s : State) (r : RowId) (t : Dword) : Option Dword :=
  let i := tokenSlot t
  let k := (s.cluster (clusterOf r.core)).slots[i.toNat]
  if k.gen ≠ tokenGen t then some (resultWord k.resetStatus i (resetIndex r s.nextId (tokenPhase t)))
  else if phaseAfter k.phase (tokenPhase t) then
    some (resultWord (if k.phase = tokenPhase t + 1 then k.fstat else 0) i (tokenPhase t))
  else none

/-- The A field of the word a row waits at. -/
def Row.waitA (x : Row) : Reg := x.ibuf.elim 0 (fun w => w.extractLsb' 14 5)
/-- The B field of the word a row waits at. -/
def Row.waitB (x : Row) : Reg := x.ibuf.elim 0 (fun w => w.extractLsb' 9 5)

/-- Slot j of the group of a BWANY operand. -/
def groupSlot (g : Dword) (j : Nat) : BitVec 6 := BitVec.ofNat 6 (8 * fld g 2 0 + j)
/-- Slot j is named by the mask of a BWANY operand. -/
def groupHas (g : Dword) (j : Nat) : Bool := tst g (8 + j)

/-- Slot j of a BWANY qualifies: its generation has changed since the wait began, or its phase has advanced past its byte
(R374). -/
def anyQualifies (k : Slot) (gen : BitVec 16) (byte : BitVec 8) : Bool :=
  k.gen != gen ||
    (decide (0 < (k.phase.setWidth 8 - byte).toNat) && decide ((k.phase.setWidth 8 - byte).toNat ≤ 127))

/-- What BWANY finds: the first qualifying slot at or after the row's start, cyclically (R374). -/
def anyResult (s : State) (r : RowId) (x : Row) (gens : List (BitVec 16)) : Option Dword :=
  let g := x.sget x.waitA
  let b := x.sget x.waitB
  let slot (j : Nat) := (s.cluster (clusterOf r.core)).slots[(groupSlot g j).toNat]
  let start := x.csr.bwany.toNat
  let js := (List.range 8).map (fun i => (start + i) % 8)
  match js.find? (fun j => groupHas g j && anyQualifies (slot j) (gens.getD j 0) (b.extractLsb' (8 * j) 8)) with
  | none => none
  | some j =>
    let k := slot j
    if k.gen ≠ gens.getD j 0 then
      some (resultWord k.resetStatus (groupSlot g j) (Config.resetPhase (rowWord r).toNat s.nextId))
    else some (resultWord k.fstat (groupSlot g j) (k.phase - 1))

/-- The result that a waiting row's condition now gives it; the one it has stands (R388). DEDUCED: log entry 75. -/
def BarWait.resolve (s : State) (r : RowId) (x : Row) (w : BarWait) : Option Dword :=
  match w.result with
  | some v => some v
  | none => if w.gbar then none else if w.gens.isEmpty then tokenResult s r w.token else anyResult s r x w.gens

/-! ### Phases (R371) -/

/-- How many phases complete at once: more than one only where no arrival is expected. DESIGN CHOICE: log entry 42. -/
def Slot.completions (k : Slot) : Nat :=
  if k.ra ≠ 0 ∨ 0 < k.rb then 0
  else if k.exp ≠ 0 ∨ k.txexp = 0 then 1
  else (-k.rb).toNat / k.txexp.toNat + 1

/-- The slot after completions with status OK. DESIGN CHOICE: log entry 42. -/
def Slot.settle (k : Slot) : Slot :=
  let n := k.completions
  if n = 0 then k
  else { k with fstat := 0, phase := k.phase + BitVec.ofNat 32 n, ra := k.exp, rb := k.rb + n * k.txexp.toNat }

/-- A continuation of a slot has its result (R367, R374). -/
def Continuation.resolve (k : Slot) (c : Continuation) : Continuation :=
  if c.result.isSome then c
  else if k.gen ≠ c.gen then { c with result := some k.resetStatus }
  else if phaseAfter k.phase c.phase then
    { c with result := some (if k.phase = c.phase + 1 then k.fstat else 0) }
  else c

/-- BSTAT.LAST at the start of a continuation: its reset value, unless BINIT or BINV has discarded the continuation (R9, R374). -/
def Continuation.last (c : Continuation) : Byte :=
  match c.result with
  | some st => if st = 0x48 ∨ st = 0x49 then st else 0
  | none => 0

/-- A waiting row takes its result; a trapped row, and one whose band is being pre-empted, resolves its token when it resumes
(R374, R417). DEDUCED: log entry 75. -/
def Row.wake (s : State) (r : RowId) (x : Row) : Row :=
  match (if preempting s x then some () else x.ctl.trap.map (fun _ => ())), x.ctl.barrier with
  | none, some w => { x with ctl := { x.ctl with barrier := some { w with result := w.resolve s r x } } }
  | _, _ => x

/-- After a change of a slot: the rows and continuations it releases have their results (R371). DEDUCED: log entry 75. -/
def slotChanged (s : State) (cl : ClusterId) (i : BitVec 6) : State :=
  let k := (s.cluster cl).slots[i.toNat]
  let t := s.mapRows (fun r x => if clusterOf r.core = cl then x.wake s r else x)
  { t with conts := t.conts.map (fun c => if clusterOf c.core = cl ∧ c.slot = i then c.resolve k else c) }

/-- A slot changed, with one trace record for each completion of a phase (R451). DEDUCED: log entry 81. -/
def putSlot (s : State) (cl : ClusterId) (g : CoreId) (i : BitVec 6) (k : Slot) : State :=
  let old := (s.cluster cl).slots[i.toNat]
  let s := slotChanged (s.modSlot cl i (fun _ => k)) cl i
  match k.owner with
  | some l =>
    if k.gen = old.gen
    then (List.range (k.phase - old.phase).toNat).foldl (fun s j =>
      traceRecord s l g none 4 i.toNat (resultWord k.fstat i (old.phase + BitVec.ofNat 32 j)).toNat) s
    else s
  | none => s

/-- A credit or fault release that is discarded is counted (R375). -/
def countStale (s : State) (cl : ClusterId) (launch : Nat) : State :=
  s.modCluster cl (fun k =>
    let l := if k.stale.any (fun p => p.1 == launch)
      then k.stale.map (fun p => if p.1 = launch ∧ p.2 ≠ 0xFFFF then (p.1, p.2 + 1) else p)
      else (launch, 1) :: k.stale
    { k with stale := l })

/-- A credit or fault release reaches the slot: its generation and owner are those of the command (R375). -/
def Slot.accepts (k : Slot) (gen : BitVec 16) (launch : Nat) : Bool := k.gen == gen && k.owner == some launch

/-- Bytes credited to a slot; true where the credit was discarded (R152, R371, R375). DEDUCED: log entry 81. -/
def slotCredit (s : State) (cl : ClusterId) (g : CoreId) (i : BitVec 6) (gen : BitVec 16) (launch n : Nat) : State × Bool :=
  let k := (s.cluster cl).slots[i.toNat]
  if k.accepts gen launch then
    (putSlot s cl g i ({ k with rb := max (-(2 ^ 48 : Int)) (k.rb - n) }).settle, false)
  else (countStale s cl launch, true)

/-- A fault release of a slot (R371, R375). DEDUCED: log entry 81. -/
def slotFault (s : State) (cl : ClusterId) (g : CoreId) (i : BitVec 6) (gen : BitVec 16) (launch : Nat) (st : Byte) : State :=
  let k := (s.cluster cl).slots[i.toNat]
  if k.accepts gen launch then
    putSlot s cl g i { k with fstat := st, phase := k.phase + 1, ra := k.exp, rb := k.txexp.toNat }
  else countStale s cl launch

/-- A slot with a new generation, owner and configuration (R374). DEDUCED: log entry 81. -/
def slotReset (s : State) (cl : ClusterId) (i : BitVec 6) (owner : Option Nat) (cfg : Dword) : State :=
  let k := (s.cluster cl).slots[i.toNat]
  slotChanged (s.modSlot cl i (fun _ =>
    { owner := owner
      gen := k.gen + 1
      exp := cfg.setWidth 16
      txexp := cfg.extractLsb' 16 48
      ra := cfg.setWidth 16
      rb := (cfg.extractLsb' 16 48).toNat
      phase := 0
      fstat := 0 })) cl i

/-- The owner of slots completes: each gets a new generation and no owner (R371). -/
def ownerDone (s : State) (launch : Nat) : State :=
  (List.finRange 64).foldl (fun s cl =>
    (List.finRange 64).foldl (fun s i =>
      let c : ClusterId := BitVec.ofFin cl
      let j : BitVec 6 := BitVec.ofFin i
      let k := (s.cluster c).slots[i.val]
      if k.owner = some launch
      then slotChanged (s.modSlot c j (fun k => { k with owner := none, gen := k.gen + 1 })) c j else s) s) s

/-! ### The instructions (R373, R374) -/

/-- The cluster of the row. -/
def Ctx.cluster (c : Ctx) : ClusterId := clusterOf c.r.core

/-- A slot of the row's cluster. -/
def Ctx.slot (c : Ctx) (i : BitVec 6) : Slot := (c.s.cluster c.cluster).slots[i.toNat]

/-- A slot operand: no reserved bit. -/
def slotOperand (v : Dword) : Except Stop (BitVec 6) :=
  if v.extractLsb' 6 58 ≠ 0 then .error (barrierState v) else .ok (v.setWidth 6)

/-- A slot operand of a slot that the row's launch owns. -/
def Ctx.ownSlot (c : Ctx) (v : Dword) : Except Stop (BitVec 6) := do
  let i ← slotOperand v
  if (c.slot i).owner = some c.band.launch then .ok i else .error (barrierState v)

/-- An arrival can be counted (R374). -/
def Ctx.needArrival (c : Ctx) (i : BitVec 6) (v : Dword) : Except Stop Unit :=
  if (c.slot i).ra = 0 then .error (barrierState v) else .ok ()

/-- One arrival at a slot (R374, R451). -/
def Ctx.arrive (c : Ctx) (s : State) (i : BitVec 6) : State :=
  let k := c.slot i
  let s := traceRecord s c.band.launch c.r.core (some c.r) 3 (k.token i).toNat 0
  putSlot s c.cluster c.r.core i ({ k with ra := k.ra - 1 }).settle

/-- A barrier instruction returns its result: sD, BSTAT, and the start of a BWANY (R374, R375). -/
def Ctx.finishBarrier (c : Ctx) (v : Dword) (any : Bool) : Act :=
  let y := c.x.sset c.d v
  .done (c.s.setRow c.r { y with
    csr := { y.csr with
      bslot := v.extractLsb' 8 6
      blast := v.setWidth 8
      bwany := if any then y.csr.bwany + 1 else y.csr.bwany }
    ctl := { y.ctl with barrier := none } })

/-- The wait part: the row returns where its condition has been met, otherwise it waits; with a pace change pending it is
held, and a result it has found stands (R385, R388). -/
def Ctx.awaitBarrier (c : Ctx) (w : BarWait) : Act :=
  match w.resolve c.s c.r c.x with
  | some v =>
    if paceBusy c.s c.cluster then
      .hold (c.s.setRow c.r { c.x with ctl := { c.x.ctl with barrier := some { w with result := some v } } }) 9 .v
    else c.finishBarrier v (!w.gens.isEmpty)
  | none => .hold (c.s.setRow c.r { c.x with ctl := { c.x.ctl with barrier := some w } }) 9 .v

/-- BINIT (R374). -/
def execBinit (a b : Reg) (ta tb : Bool) (s : State) : Out :=
  issue s accSchd fNone (fSca a) (fSca b) (fun c => do
    c.parityFirst [c.b] [] (c.needS c.a ta 1)
    c.needS c.b tb 2
    let v := c.x.sget c.a
    let i ← slotOperand v
    let o := (c.slot i).owner
    if o.isSome && o != some c.band.launch then .error (barrierState v)
    .ok (.done (slotReset c.s c.cluster i (some c.band.launch) (c.x.sget c.b))))

/-- BINV (R374): as BINIT without an owner; the configuration it leaves is the slot's own. DEDUCED: log entry 41. -/
def execBinv (a : Reg) (ta : Bool) (s : State) : Out :=
  issue s accSchd fNone (fSca a) fNone (fun c => do
    c.needS c.a ta 1
    let i ← c.ownSlot (c.x.sget c.a)
    let k := c.slot i
    .ok (.done (slotReset c.s c.cluster i none (k.txexp ++ k.exp))))

/-- BARV (R374): the arrival is counted once; the row returns with the others that its phase releases. -/
def execBarv (d a : Reg) (ta : Bool) (s : State) : Out :=
  issue s accSchd (fSca d) (fSca a) fNone (fun c =>
    match c.x.ctl.barrier with
    | some w => .ok (c.awaitBarrier w)
    | none => do
      c.needS c.a ta 1
      c.needSDst c.d
      c.deliver (do
        let v := c.x.sget c.a
        let i ← c.ownSlot v
        c.needArrival i v
        let c ← c.release
        let w : BarWait := ⟨(c.slot i).token i, [], false, none⟩
        .ok (.hold (c.arrive (c.s.setRow c.r { c.x with ctl := { c.x.ctl with barrier := some w } }) i) 9 .v)))

/-- BARX (R374): the arrival, and the token of the phase before it. -/
def execBarx (d a : Reg) (ta : Bool) (s : State) : Out :=
  issue s accSchd (fSca d) (fSca a) fNone (fun c => do
    c.needS c.a ta 1
    c.needSDst c.d
    let v := c.x.sget c.a
    let i ← c.ownSlot v
    c.needArrival i v
    let c ← c.release
    let t := (c.slot i).token i
    .ok (.done (c.arrive (c.s.setRow c.r (c.x.sset c.d t)) i)))

/-- BWAIT (R374). -/
def execBwait (d a : Reg) (ta : Bool) (s : State) : Out :=
  issue s accSchd (fSca d) (fSca a) fNone (fun c =>
    match c.x.ctl.barrier with
    | some w => .ok (c.awaitBarrier w)
    | none => do
      c.needS c.a ta 1
      c.needSDst c.d
      c.deliver (do
        let v := c.x.sget c.a
        if v.extractLsb' 6 10 ≠ 0 then .error (barrierState v)
        .ok (c.awaitBarrier ⟨v, [], false, none⟩)))

/-- The slots a BWANY names are owned by the row's launch (R373). -/
def Ctx.ownGroup (c : Ctx) (g : Dword) : Bool :=
  (List.range 8).all (fun j => !groupHas g j || (c.slot (groupSlot g j)).owner == some c.band.launch)

/-- BWANY (R374). -/
def execBwany (d a b : Reg) (ta tb : Bool) (s : State) : Out :=
  issue s accSchd (fSca d) (fSca a) (fSca b) (fun c =>
    match c.x.ctl.barrier with
    | some w => .ok (c.awaitBarrier w)
    | none => do
      c.parityFirst [c.b] [] (c.needS c.a ta 1)
      c.needS c.b tb 2
      c.needSDst c.d
      let g := c.x.sget c.a
      if fld g 63 16 ≠ 0 || fld g 7 3 ≠ 0 || fld g 15 8 = 0 || !c.ownGroup g then .error (barrierState g)
      .ok (c.awaitBarrier ⟨0, (List.range 8).map (fun j => (c.slot (groupSlot g j)).gen), false, none⟩))

/-- BPARK (R374): R99, what a stream has left, park rights, the arrival, the continuation, then the exit; it waits before
its arrival where EXIT would wait. DEDUCED: log entry 49. -/
def execBpark (a b : Reg) (ta tb : Bool) (s : State) : Out :=
  issue s accSchd fNone (fSca a) (fSca b) (fun c => do
    c.parityFirst [c.b] [] (c.needS c.a ta 1)
    c.needS c.b tb 2
    c.deliver (c.streamDue (do
      let v := c.x.sget c.a
      let i ← c.ownSlot v
      let pc := c.x.sget c.b
      if !c.x.canPark c.band || pc.extractLsb' 0 2 ≠ 0 then .error (barrierState v)
      c.needArrival i v
      let c ← c.release
      if exitHeld c.x then .error (.wait 8 .v)
      let k := c.slot i
      let q : Continuation :=
        { id := c.s.nextId
          launch := c.band.launch
          band := c.band.id
          core := c.r.core
          laneW := c.band.laneW
          pc := pc
          s := c.x.regs.s
          wid := c.x.csr.wid
          park := c.x.canPark c.band
          slot := i
          gen := k.gen
          phase := k.phase
          result := none }
      let s := ({ c.s with conts := c.s.conts ++ [q] } : State).bump
      .ok (.raw (exitRow (c.arrive s i) c.r c.band.launch)))))

/-- GBAR (R377, R378). -/
def execGbar (d : Reg) (s : State) : Out :=
  issue s accSchd (fSca d) fNone fNone (fun c =>
    let held := match c.s.launch? c.band.launch with
      | some l => l.gbarOut.contains (dieOf c.r.core, (clusterOf c.r.core).toNat % 16)
      | none => false
    match c.x.ctl.barrier with
    | some w =>
      match w.result with
      | some v => if held then .ok (.hold c.s 9 .v) else .ok (c.finishBarrier v false)
      | none => .ok (.hold c.s 9 .v)
    | none => do
      c.needSDst c.d
      c.deliver (do
        let gang := match c.s.launch? c.band.launch with
          | some l => l.gang
          | none => false
        if !gang then .error (barrierState 0)
        let c ← c.release
        let w : BarWait := ⟨0, [], true, none⟩
        .ok (.hold (gbarTry (c.s.setRow c.r { c.x with ctl := { c.x.ctl with barrier := some w } }) c.band.launch) 9 .v)))

/-- FENCE (R340): R99, then the row's earlier accesses are performed, its atomics among them; below skein scope its posted
writes may remain. -/
def execFence (sc : Scope) (s : State) : Out :=
  issue s accSchd fNone fNone fNone (fun c => c.deliver (do
    let wide := match sc with
      | .row | .band | .core => false
      | .skein | .die | .pkg | .sys => true
    let c ← if wide then c.release else c.settle
    .ok (.done c.s)))

/-! ### Release (R371, R378) -/

/-- A row's GBAR has completed, and the slew limiter has not released the row's cluster (R378). -/
def gbarSlewHeld (s : State) (r : RowId) (b : Band) (w : BarWait) : Bool :=
  match s.launch? b.launch with
  | some l => w.gbar && l.gbarOut.contains (dieOf r.core, (clusterOf r.core).toNat % 16)
  | none => false

/-- BARRIER_RELEASE (R371): a released row, not held, receives its result; none whose count has reached the limit, which traps
first (R395). -/
def execBarrierRelease (r : RowId) (s : State) : Out :=
  match s.row? r with
  | none => eventNext s
  | some x =>
    match s.band? x.band, x.ctl.barrier, x.ctl.trap with
    | some b, some w, none =>
      match w.resolve s r x with
      | some v =>
        if paceHeld s r x || preempting s x || gbarSlewHeld s r b w || (watchdogDue x).isSome then eventNext s
        else
          let y := { x with
            csr := { x.csr with
              bslot := v.extractLsb' 8 6
              blast := v.setWidth 8
              bwany := if w.gens.isEmpty then x.csr.bwany else x.csr.bwany + 1 }
            ctl := { x.ctl with barrier := none } }
          .next (completeWait s r y x.waitD v)
      | none => eventNext s
    | _, _, _ => eventNext s

/-- GBAR_SLEW_RELEASE (R378): a die's next group of at most 4 clusters is released. -/
def execGbarSlewRelease (l : Nat) (d : DieId) (s : State) : Out :=
  eventNext (s.modLaunch l (fun k =>
    { k with gbarOut := k.gbarOut.filter (fun p =>
        !(((k.gbarOut.filter (fun q => q.1 == d)).take 4).contains p)) }))

end Sys2Proof.Machine
end

