-- ==== Sys2Proof/Machine/Engine.lean ====
section
/-! DEFINITION. Engine commands in general: their issue, queues and range scoreboards, their retirement; SEAL, WAIT and
WSTAT (R145 to R152, R158 to R167, R177, R186, R210, R418). -/
namespace Sys2Proof.Machine

/-! ### Addresses as ranges (R121, R151) -/

/-- The bits of the offset under a tag. -/
def offsetBits (a : Dword) : Nat :=
  match fld a 63 61 with
  | 1 => 26
  | 2 => 22
  | 3 => 20
  | _ => 52

/-- The offset of a level-qualified address in its level. -/
def lqaOff (a : Dword) : Nat := a.toNat % 2 ^ offsetBits a
/-- The memory instance of a level-qualified address. -/
def lqaInst (a : Dword) : Nat := a.toNat / 2 ^ offsetBits a

/-- The address names side memory, and the fields that must be zero are zero. -/
def isSide (a : Dword) : Bool := fld a 63 61 == 3 && tagOk a 0

/-- Two extents of resolved addresses lie in one memory instance and overlap (R151). -/
def extentsMeet (a : Dword) (n : Nat) (b : Dword) (m : Nat) : Bool :=
  lqaInst a == lqaInst b && decide (lqaOff a < lqaOff b + m) && decide (lqaOff b < lqaOff a + n)

/-- A range of side memory widened to 64-byte boundaries (R160). -/
def wideRange (g : CoreId) (dst : Bool) (lo hi : Nat) : SbRange := ⟨g, dst, lo / 64 * 64, (hi + 63) / 64 * 64⟩

/-- The scoreboard range of an operand of n bytes, where it lies in side memory (R160). -/
def operandRange (g : CoreId) (dst : Bool) (a : Dword) (n : Nat) : List SbRange :=
  let r := resolveTag g a
  if isSide r then [wideRange (tagCore r) dst (lqaOff r) (lqaOff r + n)] else []

/-- A side-memory operand is not wholly inside a window of the launch (R123, R151). -/
def outsideWindow (s : State) (g : CoreId) (launch : Nat) (a : Dword) (n : Nat) : Bool :=
  let r := resolveTag g a
  isSide r && !inWindow s (some launch) (tagCore r) (lqaOff r) n

/-! ### What a command credits and to which slot (R149, R152, R153, R171, R178, R190, R438) -/

/-- Operand i of a command. -/
def Cmd.op (k : Cmd) (i : Nat) : Dword := k.ops.getD i 0

/-- The command credits, or fault-releases, a barrier slot. -/
def Cmd.bar (k : Cmd) : Bool :=
  match k.instr with
  | .shcp _ _ _ bar _ | .shset _ _ _ _ bar _ | .gath _ _ _ bar _ | .scat _ _ _ bar _ => bar
  | .shtr _ _ _ bar _ | .sred _ _ _ _ _ bar _ | .wkst _ _ _ bar | .nget _ _ bar => bar
  | _ => false

/-- SLOT in an operand group. -/
def slotField (i : Instr) (ops : List Dword) : BitVec 6 :=
  match i with
  | .nget .. => (ops.getD 3 0).extractLsb' 56 6
  | _ => (ops.getD 2 0).extractLsb' 56 6

/-- SLOT of a command. -/
def Cmd.slot (k : Cmd) : BitVec 6 := slotField k.instr k.ops

/-- The three-dimensional form of a copy or fill. -/
def Cmd.d3 (k : Cmd) : Bool :=
  match k.instr with
  | .shcp _ _ _ _ d3 | .shset _ _ _ _ _ d3 => d3
  | _ => false

/-- The card-headed form of SHTR. -/
def Cmd.sparse (k : Cmd) : Bool :=
  match k.instr with
  | .shtr _ _ _ _ sp => sp
  | _ => false

/-- PLANES of a copy or fill. -/
def Cmd.planes (k : Cmd) : Nat := fld (k.op 2) 55 40 + 1
/-- ROWS of a copy or fill. -/
def Cmd.copyRows (k : Cmd) : Nat := fld (k.op 2) 39 24 + 1
/-- BYTES of a copy, fill or network command. -/
def Cmd.bytes (k : Cmd) : Nat := fld (k.op 2) 23 0 + 1

/-- The element size of a gather, scatter or reduction, in bytes. -/
def Cmd.esz (k : Cmd) : Nat := 4 * (fld (k.op 2) 21 12 + 1)
/-- The positions of a gather, scatter or reduction. -/
def Cmd.count (k : Cmd) : Nat := fld (k.op 2) 7 0 + 1

/-- ROWS, COLS and the element size of a dense SHTR: from its group, or as staging gives them (R141, R153). -/
def Cmd.trRows (k : Cmd) : Nat :=
  match k.src with
  | .row _ => fld (k.op 2) 15 0 + 1
  | .staging _ => (k.op 4).toNat
/-- COLS of a dense SHTR. -/
def Cmd.trCols (k : Cmd) : Nat :=
  match k.src with
  | .row _ => fld (k.op 2) 31 16 + 1
  | .staging _ => (k.op 5).toNat
/-- The element size of a dense SHTR. -/
def Cmd.trElt (k : Cmd) : Nat := 2 ^ fld (k.op 2) 33 32

/-- The bytes a sparse SHTR credits, kept once its card is read; 32 before (R152). -/
def Cmd.cardCredit (k : Cmd) : Nat := if k.ops.length ≤ 6 then 32 else (k.op 6).toNat

/-- The transaction bytes that a command credits at retirement (R152, R178, R438); a walker command credits as it runs. -/
def Cmd.credit (k : Cmd) : Nat :=
  match k.instr with
  | .shcp .. | .shset .. => k.bytes * k.copyRows * k.planes
  | .shtr .. => if k.sparse then k.cardCredit else k.trRows * k.trCols * k.trElt
  | .gath .. | .scat .. | .sred .. => k.count * k.esz
  | .nget .. => k.bytes
  | _ => 0

/-- The row that issued a command. -/
def Cmd.row? (k : Cmd) : Option RowId :=
  match k.src with
  | .row r => some r
  | .staging _ => none

/-! ### Queues and scoreboards (R158, R160, R169, R192, R440) -/

/-- A band is resident on its core: an entry of the lease table is its. -/
def Band.resident (s : State) (b : Band) : Bool := s.rows.any (fun p => p.2.band == b.id)

/-- Entries of a class held on a core. -/
def heldOn (s : State) (g : CoreId) (c : BClass) : Nat :=
  (s.cmds.filter (fun k => k.core == g && k.cls == c)).length
/-- Entries of a class held by a band. -/
def heldBy (s : State) (b : Nat) (c : BClass) : Nat :=
  (s.cmds.filter (fun k => k.band == b && k.cls == c)).length

/-- A command of a band enters a queue of a size in which each resident band of the core has reserved entries (R158). -/
def queueRoom (s : State) (b : Band) (c : BClass) (size res : Nat) : Bool :=
  let own := heldBy s b.id c
  let q := ((s.bands.filter (fun k => k.core == b.core && k.resident s)).map (fun k : Band => res - heldBy s k.id c)).sum
  decide (own < res) || decide (heldOn s b.core c + q < size)

/-- A command of a class enters its queue. -/
def classRoom (s : State) (b : Band) (c : BClass) : Bool :=
  match c with
  | .mx => true
  | .sh => queueRoom s b .sh 128 2
  | .gs => queueRoom s b .gs 64 1
  | .nw => queueRoom s b .nw 32 1
  | .wk => decide (heldOn s b.core .wk < 8)
      && decide ((s.cmds.filter (fun k => k.cls == .wk && clusterOf k.core == clusterOf b.core)).length < 32)

/-- Every scoreboard has room for its share of new ranges (R160). -/
def sbRoom (s : State) (l : List SbRange) : Bool :=
  l.all (fun r =>
    let used := (s.cmds.map (fun k => (k.sb.filter (fun q => q.core == r.core)).length)).sum
    decide (used + (l.filter (fun q => q.core == r.core)).length ≤ 32))

/-! ### Retirement (R147, R152, R166) -/

/-- The lowest failing unit of a command: status and address; OK where none failed. DEDUCED: log entry 50. -/
def Cmd.outcome (k : Cmd) : Byte × Dword :=
  match k.fails.foldl (fun (m : Option (Nat × Byte × Dword)) f =>
      match m with
      | some x => if f.1 < x.1 then some f else some x
      | none => some f) none with
  | some (_, st, a) => (st, a)
  | none => (stOk, 0)

/-- A command retires with a status and its first failing address: its entries are released, its batch learns of it, its
slot is credited. DEDUCED: log entry 50. -/
def retireCmd (s : State) (k : Cmd) (st : Byte) (addr : Dword) : State :=
  let s := { s with cmds := s.cmds.filter (fun c => c.id != k.id), notes := settledNotes k.id [] s.notes }
  let learn (x : Row) : Row := if x.band = k.band then x.modCls k.cls (fun c => c.retire k.batch k.pos st addr) else x
  let s := match k.row? with
    | some r => (s.modRow r learn).modBand k.band (fun b => { b with
        freed := b.freed.map (fun p => if p.1 = r then (r, learn p.2) else p) })
    | none => s
  let s := if k.bar && k.credit != 0
    then (slotCredit s (clusterOf k.core) k.core k.slot k.gen k.launch k.credit).1 else s
  sweepBands (traceRecord s k.launch k.core k.row? 2 k.ticket.toNat st.toNat)

/-- A command that has done all its units retires with its outcome. -/
def retireDone (s : State) (k : Cmd) : State := retireCmd s k k.outcome.1 k.outcome.2

/-! ### The steps of a pre-emption (R417) -/

/-- Steps 1 to 4 hold for a row (R417). -/
def rowStopped (x : Row) : Bool :=
  x.prods.isEmpty && x.posted.isEmpty && x.mx.msca.isNone && x.mx.mwl.isEmpty && x.mx.fly.isEmpty
    && x.ctl.evsig.isNone && (match x.mx.running with
      | some t => t.starved
      | none => true)

/-- An update command, which completes before the save (R417). -/
def Cmd.isUpdate (k : Cmd) : Bool :=
  match k.instr with
  | .sred .. | .nred .. | .nsig .. => true
  | _ => false

/-- Steps 1 to 4 hold for a band: its rows have stopped and its update commands are complete (R417). -/
def bandQuiet (s : State) (b : Band) : Bool :=
  b.preempt == some .saved || (b.staged && (s.rowsOf b.id).all (fun p => rowStopped p.2)
    && (s.cmds.filter (fun k => k.band == b.id)).all (fun k => !k.isUpdate))

/-- Steps 1 to 4 of the pre-emption of a unit are done (R417). -/
def stepsEnded (s : State) (b : Band) : Bool := (unitOf s b).all (bandQuiet s)

/-! ### Issue (R11, R145, R146) -/

/-- What an engine instruction asks to be issued. -/
structure CmdReq where
  cls : BClass
  instr : Instr
  ops : List Dword
  b : Dword
  idx : List Nat
  sb : List SbRange

/-- The command that a request becomes in a row. -/
def Ctx.command (c : Ctx) (q : CmdReq) : Cmd :=
  { id := c.s.nextId
    instr := q.instr
    src := .row c.r
    band := c.band.id
    launch := c.band.launch
    core := c.r.core
    cls := q.cls
    pos := (c.x.clsOf q.cls).openB.ncmd
    ticket := dw ((clsIx q.cls).val * 2 ^ 32 + c.band.serial.toNat)
    ops := q.ops
    b := q.b
    idx := q.idx
    gen := (c.slot (slotField q.instr q.ops)).gen
    batch := none
    done := []
    fails := []
    sb := q.sb
    groups := []
    combined := false
    sent := []
    timer := 0 }

/-- The state with a command entered: its ticket in sD, its place in the open commands, the band's serial, a trace record
(R146, R451). -/
def Ctx.enterCmd (c : Ctx) (k : Cmd) : State :=
  let n := (c.x.clsOf k.cls).counter + 1
  let s := c.s.setRow c.r ((c.x.sset c.d k.ticket).modCls k.cls ClassState.enter)
  let s := ({ s with cmds := s.cmds ++ [k] } : State).modBand c.band.id (fun b => { b with serial := b.serial + 1 })
  traceRecord s.bump k.launch k.core (some c.r) 1 k.ticket.toNat (n % 2 ^ 32)

/-- The row may issue engine commands (R145). -/
def Ctx.needLead (c : Ctx) : Except Stop Unit :=
  if c.x.isLead c.band then .ok () else .error (trapOf 0x08 0 0)

/-- EngineIssue (R11): copy rights, the destination, the queue and the scoreboards; the row's posted writes are performed
at entry. make is given the row as it stands at entry; it answers the request and the status of a failed check of the
whole command, which then retires at once. after is the first effect of a command that has passed.
DEDUCED: log entry 50. DESIGN CHOICE: log entry 84. -/
def Ctx.engineIssue (c : Ctx) (cls : BClass) (make : Ctx → CmdReq × Option Byte) (fence : Bool)
    (after : State → Cmd → State) : Except Stop Act := do
  c.needLead
  c.needSDst c.d
  if !classRoom c.s c.band cls then .error (.wait 10 (classDom cls))
  let k := fun (c : Ctx) => do
    let c ← c.release
    let (q, bad) := make c
    if !sbRoom c.s q.sb then .error (.wait 7 (classDom cls))
    let cmd := c.command q
    let s := c.enterCmd cmd
    match bad with
    | some st => .ok (.done (retireCmd s cmd st 0))
    | none => .ok (.done (after s cmd))
  if fence then c.deliver (k c) else k c

/-- The four registers of an operand group. -/
def Ctx.group (c : Ctx) (a : Reg) : List Dword :=
  (List.range 4).map (fun i => c.x.sget (a + BitVec.ofNat 5 i))

/-! ### SEAL, WAIT, WSTAT (R164 to R167) -/

/-- SEAL (R164). -/
def execSeal (d : Reg) (k : BClass) (s : State) : Out :=
  issue s accSchd (fSca d) fNone fNone (fun c => do
    c.needSDst c.d
    if 8 ≤ (c.x.clsOf k).outstanding then .error (.wait 8 .v)
    let n := (c.x.clsOf k).counter + 1
    .ok (.done (sealClass (c.s.setRow c.r (c.x.sset c.d (dw n))) c.r k)))

/-- The effect of a WAIT whose condition holds: the summary in sD, which is full. -/
def Ctx.finishWait (c : Ctx) (k : BClass) : Act :=
  let y := (c.x.sset c.d ((c.x.clsOf k).summary.setWidth 64)).markS c.d true
  .done (c.s.setRow c.r (y.modCls k ClassState.cover))

/-- The destination of a WAIT is not pending: an earlier producer has completed; the WAIT's own mark does not hold it
(R40, R165). -/
def Ctx.needWaitDst (c : Ctx) (d : Reg) : Except Stop Unit :=
  if (pendingScalars c.x.prods).getLsbD d.toNat then c.needSDst d else .ok ()

/-- WAIT goes on waiting: too many batches of the class are unfinished, or, in class MX, a pace change is pending and the
row is held at this boundary point even though its condition is met (R165, R384, R385). -/
def Ctx.waitsOn (c : Ctx) (k : BClass) (n : Nat) : Bool :=
  decide (n < (c.x.clsOf k).outstanding) || (k == .mx && paceBusy c.s c.cluster)

/-- WAIT (R165): on MX it first takes what a stream has left (R298); sD is empty while it waits.
DEDUCED: log entry 77. -/
def execWait (d : Reg) (k : BClass) (n : BitVec 4) (s : State) : Out :=
  issue s accSchd (fSca d) fNone fNone (fun c =>
    let body := c.deliver (do
      c.needWaitDst c.d
      if c.waitsOn k n.toNat then .ok (.hold (c.s.setRow c.r (c.x.markS c.d false)) 8 (classDom k))
      else .ok (c.finishWait k))
    if k = .mx then c.streamDue body else body)

/-- WSTAT (R166): a producer of the record as it stands. -/
def execWstat (d a : Reg) (k : BClass) (addr : Bool) (s : State) : Out :=
  issue s accSchd (fSca d) (fSca a) fNone (fun c => do
    c.needS c.a false 1
    c.needSDst c.d
    let v := (c.x.clsOf k).wstat (c.x.sget c.a).toNat addr
    .ok (.done (c.s.setRow c.r (c.x.produce { dest := .sca c.d v }))))

end Sys2Proof.Machine
end

