-- ==== Sys2Proof/Machine/Shuttle.lean ====
section
/-! DEFINITION. The shuttle commands SHCP, SHTR and SHSET and the completion of their lines (R147 to R157, R327, R328). -/
namespace Sys2Proof.Machine

/-! ### Rows of bytes and their lines (R147) -/

/-- Where the bytes of a segment come from: an address, or bytes already known. -/
inductive SegSrc
  | addr (a : Dword)
  | data (bs : List Byte)
  deriving DecidableEq, Repr

/-- Bytes that go to one place. -/
structure Seg where
  dst : Dword
  src : SegSrc
  n : Nat
  deriving DecidableEq, Repr

/-- The number of aligned 64-byte blocks that n bytes at an address touch. -/
def blockCount (a : Dword) (n : Nat) : Nat := (a.toNat % 64 + n + 63) / 64
/-- The first byte, counted in the row, that falls within block k. -/
def blockStart (a : Dword) (k : Nat) : Nat := 64 * k - a.toNat % 64
/-- The bytes of a row of n that fall within block k. -/
def blockLen (a : Dword) (n k : Nat) : Nat := min (64 * (k + 1) - a.toNat % 64) n - blockStart a k

/-! ### Copies and fills (R149 to R151, R156) -/

/-- A copy or fill reads a source. -/
def Cmd.isCopy (k : Cmd) : Bool :=
  match k.instr with
  | .shcp .. => true
  | _ => false

/-- Destination row stride. -/
def Cmd.drs (k : Cmd) : Nat := fld (k.op 3) 63 32
/-- Source row stride. -/
def Cmd.srs (k : Cmd) : Nat := fld (k.op 3) 31 0
/-- Destination plane stride. -/
def Cmd.dps (k : Cmd) : Nat := if k.d3 then fld k.b 63 32 else 0
/-- Source plane stride. -/
def Cmd.sps (k : Cmd) : Nat := if k.d3 then fld k.b 31 0 else 0

/-- The pattern of a fill (R156). -/
def Cmd.pattern (k : Cmd) : List Byte :=
  match k.instr with
  | .shset _ _ _ z _ _ => leBytes (2 ^ z.toNat) (k.op 1).toNat
  | _ => [0]

/-- Destination of row q, counted over the planes. -/
def Cmd.rowDst (k : Cmd) (q : Nat) : Dword :=
  k.op 0 + dw (q / k.copyRows * k.dps + q % k.copyRows * k.drs)
/-- Source of row q. -/
def Cmd.rowSrc (k : Cmd) (q : Nat) : Dword :=
  k.op 1 + dw (q / k.copyRows * k.sps + q % k.copyRows * k.srs)

/-- The extent of the destination of a copy or fill (R151). -/
def Cmd.copyDstLen (k : Cmd) : Nat := (k.planes - 1) * k.dps + (k.copyRows - 1) * k.drs + k.bytes
/-- The extent of the source of a copy. -/
def Cmd.copySrcLen (k : Cmd) : Nat := (k.planes - 1) * k.sps + (k.copyRows - 1) * k.srs + k.bytes

/-- Bytes j to j + n - 1 of a fill (R156). -/
def fillBytes (p : List Byte) (j n : Nat) : List Byte :=
  (List.range n).map (fun i => p.getD ((j + i) % p.length) 0)

/-- The line of row q in block b. -/
def Cmd.copyLine (k : Cmd) (q b : Nat) : List Seg :=
  let d := k.rowDst q
  let j := blockStart d b
  let n := blockLen d k.bytes b
  [⟨d + dw j, if k.isCopy then .addr (k.rowSrc q + dw j) else .data (fillBytes k.pattern j n), n⟩]

/-- A reserved bit of the group of a copy or fill (R149, R151). -/
def Cmd.copyReserved (k : Cmd) : Bool :=
  fld (k.op 2) 63 62 != 0 || (!k.d3 && k.planes != 1)
    || (!k.isCopy && (k.srs != 0 || k.sps != 0))

/-- The checks of R151 on a copy or fill, in the order of its table. -/
def copyCheck (s : State) (k : Cmd) : Option Byte :=
  let al := k.bytes ||| k.drs ||| k.dps ||| (k.op 0).toNat
    ||| (if k.isCopy then k.srs ||| k.sps ||| (k.op 1).toNat else 0)
  let d := resolveTag k.core (k.op 0)
  let r := resolveTag k.core (k.op 1)
  if k.copyReserved then some stRange
  else if 2 ^ 24 < k.bytes * k.copyRows * k.planes then some stRange
  else if al % 4 ≠ 0 || (!k.isCopy && k.bytes % k.pattern.length ≠ 0) then some stRange
  else if (1 < k.copyRows && k.drs < k.bytes)
      || (1 < k.planes && k.dps < (k.copyRows - 1) * k.drs + k.bytes) then some stRange
  else if k.isCopy && extentsMeet d k.copyDstLen r k.copySrcLen then some stRange
  else if outsideWindow s k.core k.launch (k.op 0) k.copyDstLen
      || (k.isCopy && outsideWindow s k.core k.launch (k.op 1) k.copySrcLen) then some stPermission
  else none

/-! ### The dense transpose (R153, R154) -/

/-- The addresses of element (r, c) of a dense SHTR: destination and source. -/
def Cmd.trDst (k : Cmd) (r c : Nat) : Dword := k.op 0 + dw (c * k.drs + r * k.trElt)
/-- Source of element (r, c). -/
def Cmd.trSrc (k : Cmd) (r c : Nat) : Dword := k.op 1 + dw (r * k.srs + c * k.trElt)
/-- The destination block of element (r, c), counted from the block of the destination address. -/
def Cmd.trBlock (k : Cmd) (r c : Nat) : Nat := (k.trDst r c).toNat / 64 - (k.op 0).toNat / 64

/-- The line of source row r in block b: its elements in ascending order. -/
def Cmd.trLine (k : Cmd) (r b : Nat) : List Seg :=
  ((List.range k.trCols).filter (fun c => k.trBlock r c == b)).map
    (fun c => ⟨k.trDst r c, .addr (k.trSrc r c), k.trElt⟩)

/-- Extent of the destination of a dense SHTR (R154). -/
def Cmd.trDstLen (k : Cmd) : Nat := (k.trCols - 1) * k.drs + k.trRows * k.trElt
/-- Extent of the source of a dense SHTR. -/
def Cmd.trSrcLen (k : Cmd) : Nat := (k.trRows - 1) * k.srs + k.trCols * k.trElt

/-- The checks of R151 on a dense SHTR. -/
def trCheck (s : State) (k : Cmd) : Option Byte :=
  let d := resolveTag k.core (k.op 0)
  let r := resolveTag k.core (k.op 1)
  if fld (k.op 2) 63 62 ≠ 0 || fld (k.op 2) 55 34 ≠ 0 then some stRange
  else if 2 ^ 24 < k.trRows * k.trCols * k.trElt then some stRange
  else if ((k.op 0).toNat ||| (k.op 1).toNat ||| k.drs ||| k.srs) % k.trElt ≠ 0 then some stRange
  else if 1 < k.trCols && k.drs < k.trRows * k.trElt then some stRange
  else if extentsMeet d k.trDstLen r k.trSrcLen then some stRange
  else if outsideWindow s k.core k.launch (k.op 0) k.trDstLen
      || outsideWindow s k.core k.launch (k.op 1) k.trSrcLen then some stPermission
  else none

/-! ### The sparse transpose (R155, R327, R328) -/

/-- The checks on a sparse SHTR that need no card: the group and the alignments. DEDUCED: log entry 56. -/
def spCheck (s : State) (k : Cmd) : Option Byte :=
  if (k.op 2).toNat % 2 ^ 56 ≠ 0 || fld (k.op 2) 63 62 ≠ 0 || k.srs ≠ 0 then some stRange
  else if ((k.op 0).toNat ||| (k.op 1).toNat) % 64 ≠ 0 then some stRange
  else if outsideWindow s k.core k.launch (k.op 0) 1 || outsideWindow s k.core k.launch (k.op 1) 1
  then some stPermission
  else none

/-- From a side-memory address to the end of the window of the launch that holds it (R155). DEDUCED: log entry 56. -/
def toWindowEnd (s : State) (launch : Nat) (g : CoreId) (a : Dword) : Nat :=
  let r := resolveTag g a
  match s.bands.find? (fun b => b.launch == launch && b.core == tagCore r && decide (b.wbase ≤ lqaOff r)
      && decide (lqaOff r < b.wbase + b.wsize)) with
  | some b => b.wbase + b.wsize - lqaOff r
  | none => 0

/-- Bytes read line by line in ascending order: the bytes, or the first failing line's status and address (R155). -/
def readLines (s : State) (q : Requester) (a : Dword) : List (Nat × Nat) → State × Except (Byte × Dword) (List Byte)
  | [] => (s, .ok [])
  | (o, n) :: l =>
    match readAddr s q (a + dw o) n with
    | (s, .error f) => (s, .error (f.status, a + dw o))
    | (s, .ok bs) =>
      match readLines s q a l with
      | (s, .ok r) => (s, .ok (bs ++ r))
      | (s, .error e) => (s, .error e)

/-- The bytes of a result as a command keeps them. -/
def asNats (bs : List Byte) : List Nat := bs.map BitVec.toNat

/-- The rows of the result of a sparse SHTR and the bytes of each, which its header gives (R155, R327, R328). -/
def spShape (c : Card) (exp : Bool) : Nat × Nat :=
  if c.tflag && !exp then (1, c.flip.voff + c.flip.vb) else (c.kop, c.rop * c.e)

/-- The bytes of the result of a sparse SHTR. -/
def spResult (k : Cmd) (exp : Bool) (blob : List Byte) : List Byte :=
  let hd := blob.take 32
  let c := cardOf hd
  let masks := c.masks ((blob.drop c.moff).take c.mb)
  let vals := (blob.drop c.voff).take c.vb
  if c.tflag && !exp then flipCard hd masks vals (Config.cardPad k.id)
  else (List.range c.kop).flatMap (fun j => c.transposedRow masks vals j)

/-- R151's checks on both extents of a sparse SHTR, once its header of 32 bytes has been read (R155): the status of the
first that fails. DEDUCED: log entry 56. -/
def spExtents (s : State) (k : Cmd) (c : Card) (rows w : Nat) : Option Byte :=
  let d := resolveTag k.core (k.op 0)
  let r := resolveTag k.core (k.op 1)
  let len := (rows - 1) * k.drs + w
  if 2 ^ 24 < c.extent || 2 ^ 24 < rows * w || (1 < rows && (k.drs < w || k.drs % c.e ≠ 0)) then some stRange
  else if extentsMeet d len r c.extent then some stRange
  else if outsideWindow s k.core k.launch (k.op 0) len || outsideWindow s k.core k.launch (k.op 1) c.extent
  then some stPermission
  else none

/-- A command that stages a region (R143). -/
def Cmd.staged (k : Cmd) : Bool :=
  match k.src with
  | .staging _ => true
  | .row _ => false

/-- Reading the card of a sparse SHTR, R151's checks on both extents, and then reading its whole source: the command with its
result, or the status and address with which it retires. The destination row stride of a staged card is Rop times e
(R141). DEDUCED: log entry 56. -/
def spRead (s : State) (k : Cmd) (exp link : Bool) : State × Except (Cmd × Byte × Dword) Cmd :=
  let q := coreRequester s k.core k.launch link
  match readLines s q (k.op 1) (pieces (k.op 1) 32) with
  | (s, .error (st, a)) => (s, .error (k, st, a))
  | (s, .ok hd) =>
    if cardCode hd ≠ 0 then (s, .error (k, stCard, 0))
    else
      let c := cardOf hd
      let n := c.extent
      let k := { k with ops := (if k.staged then k.ops.take 3 ++ [dw (c.rop * c.e * 2 ^ 32)] else k.ops.take 4) ++ [0, 0, dw n] }
      let (rows, w) := spShape c exp
      match spExtents s k c rows w with
      | some st => (s, .error (k, st, 0))
      | none =>
        match readLines s q (k.op 1) (pieces (k.op 1) n) with
        | (s, .error (st, a)) => (s, .error (k, st, a))
        | (s, .ok blob) =>
          if c.fullCode (c.masks ((blob.drop c.moff).take c.mb)) ≠ 0 then (s, .error (k, stCard, 0))
          else
            let len := (rows - 1) * k.drs + w
            let sb := if k.sb.isEmpty then [] else operandRange k.core true (k.op 0) len ++ operandRange k.core false (k.op 1) n
            (s, .ok { k with
              ops := k.ops.take 4 ++ [dw rows, dw w, dw n]
              idx := asNats (spResult k exp blob)
              combined := true
              sb := sb })

/-- The source of a sparse SHTR, card first, cannot be read now (R107, R118). -/
def spHeld (s : State) (k : Cmd) (link : Bool) : Bool :=
  let q := coreRequester s k.core k.launch link
  accessHeld s q .read (k.op 1) 32 || (match readLines s q (k.op 1) (pieces (k.op 1) 32) with
    | (_, .ok hd) => cardCode hd == 0 && accessHeld s q .read (k.op 1) (min (2 ^ 24) (cardOf hd).extent)
    | (_, .error _) => false)

/-- The line of row q of the result in block b. -/
def Cmd.spLine (k : Cmd) (q b : Nat) : List Seg :=
  let w := (k.op 5).toNat
  let d := k.op 0 + dw (q * k.drs)
  let j := blockStart d b
  let n := blockLen d w b
  [⟨d + dw j, .data (((k.idx.drop (q * w + j)).take n).map (BitVec.ofNat 8)), n⟩]

/-! ### Lines of any shuttle command -/

/-- The rows of a shuttle command, each with the number of blocks it may touch. A sparse SHTR has one line, the reading
of its source, until its result is known. -/
def Cmd.lineRows (k : Cmd) : List (Nat × Nat) :=
  match k.instr with
  | .shtr .. =>
    if k.sparse then
      if k.combined then
        (List.range (k.op 4).toNat).map (fun q => (q, blockCount (k.op 0 + dw (q * k.drs)) (k.op 5).toNat))
      else [(0, 1)]
    else (List.range k.trRows).map (fun r => (r, k.trBlock r (k.trCols - 1) + 1))
  | _ => (List.range (k.planes * k.copyRows)).map (fun q => (q, blockCount (k.rowDst q) k.bytes))

/-- A block of a row of a dense SHTR holds an element of the row. -/
def Cmd.hasLine (k : Cmd) (q b : Nat) : Bool :=
  match k.instr with
  | .shtr .. => k.sparse || (List.range k.trCols).any (fun c => k.trBlock q c == b)
  | _ => true

/-- The lines of a shuttle command in copy order. -/
def Cmd.lines (k : Cmd) : List (Nat × Nat) :=
  k.lineRows.flatMap (fun p => ((List.range p.2).filter (fun b => k.hasLine p.1 b)).map (fun b => (p.1, b)))

/-- A line's place in copy order. -/
def lineOrder (q b : Nat) : Nat := q * 2 ^ 60 + b

/-- The lines of a shuttle command not yet done. -/
def Cmd.linesLeft (k : Cmd) : List (Nat × Nat) := k.lines.filter (fun p => !k.done.contains (lineOrder p.1 p.2))

/-- The segments of a line. -/
def Cmd.line (k : Cmd) (q b : Nat) : List Seg :=
  match k.instr with
  | .shtr .. => if k.sparse then k.spLine q b else k.trLine q b
  | _ => k.copyLine q b

/-! ### Performing a line (R147, R131) -/

/-- The failure recorded of two, each with its address. DEDUCED: log entry 50. -/
def worseAt (a b : Option (Fail × Dword)) : Option (Fail × Dword) :=
  match a, b with
  | some (f, x), some (g, y) => if g.rank < f.rank then some (g, y) else some (f, x)
  | some p, none => some p
  | none, q => q

/-- A segment's source bytes, read from a memory. -/
def segRead (m : Memory) (s : State) (q : Requester) (g : Seg) : State × Except Fail (List Byte) :=
  match g.src with
  | .data bs => (s, .ok bs)
  | .addr a => readingFrom m s (fun s => readAddr s q a g.n)

/-- The address of a segment's source; of a fill, its destination. -/
def Seg.srcAddr (g : Seg) : Dword :=
  match g.src with
  | .addr a => a
  | .data _ => g.dst

/-- Segments that follow one another are written as one. -/
def joinWrites : List (Dword × List Byte) → List (Dword × List Byte)
  | [] => []
  | (a, bs) :: l =>
    match joinWrites l with
    | (b, cs) :: r => if a + dw bs.length = b then (a, bs ++ cs) :: r else (a, bs) :: (b, cs) :: r
    | [] => [(a, bs)]

/-- The first failure of a destination. -/
def writeFailOf (s : State) (q : Requester) (w : Dword × List Byte) : Option (Fail × Dword) :=
  match resolveAll s q .write w.1 w.2.length with
  | .error f => some (f, w.1)
  | .ok _ => none

/-- A line read from a memory and written, or its failure; a failing line is not written, its destination is translated, and
where its source has failed nothing more of its destination is read. -/
def doLine (m : Memory) (s : State) (q : Requester) (l : List Seg) : State × Option (Fail × Dword) :=
  let (s, rs) := l.foldl (fun (acc : State × List (Seg × Except Fail (List Byte))) g =>
    let (s, r) := segRead m acc.1 q g
    (s, acc.2 ++ [(g, r)])) (s, [])
  let ws := joinWrites (rs.map (fun p => (p.1.dst,
    match p.2 with
    | .ok bs => bs
    | .error _ => List.replicate p.1.n 0)))
  let fr := rs.foldl (fun f p => worseAt f (match p.2 with
    | .error e => some (e, p.1.srcAddr)
    | .ok _ => none)) none
  let fw := ws.foldl (fun f w => worseAt f (writeFailOf s q w)) fr
  match fw with
  | some f =>
    let s := ws.foldl (fun s w => walked s q .write w.1 w.2.length) s
    (if fr.isSome || f.1.early then s else ws.foldl (fun s w => noteWrites s q w.1 w.2.length) s, some f)
  | none => (ws.foldl (fun s w => (writeAddr s q w.1 w.2).1) s, none)

/-- Two lists of key ranges meet. -/
def keysMeet (a b : List (Nat × Nat)) : Bool :=
  a.any (fun p => b.any (fun q => decide (p.1 < q.1 + q.2) && decide (q.1 < p.1 + p.2)))

/-- The keys a line writes. -/
def lineKeys (s : State) (k : Cmd) (q b : Nat) : List (Nat × Nat) :=
  let r := coreRequester s k.core k.launch false
  (k.line q b).flatMap (fun g => writtenKeys s r g.dst g.n)

/-- A line waits for main memory: to read its source, or to write its destination (R107, R118). -/
def lineHeld (s : State) (q : Requester) (l : List Seg) : Bool :=
  l.any (fun g => accessHeld s q .write g.dst g.n || (match g.src with
    | .addr a => accessHeld s q .read a g.n
    | .data _ => false))

/-- An earlier command of the same shuttle has yet to write a byte that a line writes (R148); a sparse SHTR whose result
is not known may write any. DEDUCED: log entry 52. -/
def heldByEarlier (s : State) (k : Cmd) (q b : Nat) : Bool :=
  let mine := lineKeys s k q b
  (s.cmds.takeWhile (fun e => e.id != k.id)).any (fun e =>
    e.cls == .sh && e.core == k.core
      && ((e.sparse && !e.combined) || e.linesLeft.any (fun p => keysMeet (lineKeys s e p.1 p.2) mine)))

/-- A command makes no progress: the pre-emption of its unit has come to step 5 (R417, R418); the staging of a band goes on. -/
def cmdStopped (s : State) (k : Cmd) : Bool :=
  match k.src, s.band? k.band with
  | .row _, some b => b.preempt.isSome && stepsEnded s b
  | _, _ => false

/-- A unit of a command has completed: it is noted, and the command of a row retires with its last one. left gives the
units that remain. -/
def noteUnit (s : State) (k : Cmd) (order : Nat) (fail : Option (Byte × Dword)) (left : Cmd → Bool) : State :=
  let k := { k with
    done := k.done ++ [order]
    fails := match fail with
      | some (st, a) => k.fails ++ [(order, st, a)]
      | none => k.fails }
  let s := s.modCmd k.id (fun _ => k)
  match k.src with
  | .row _ => if left k then s else retireDone s k
  | .staging _ => s

/-- SHUTTLE_LINE_COMPLETE (R147): a line not yet done is read and written, or fails. The first line of a sparse SHTR is
the reading of its source. link says that a transfer across a link fails. -/
def execShuttleLineComplete (c q k : Nat) (link : Bool) (s : State) : Out :=
  match s.cmd? c with
  | none => eventNext s
  | some cmd =>
    if cmd.cls != .sh || cmdStopped s cmd || !cmd.linesLeft.contains (q, k) then eventNext s
    else if cmd.sparse && !cmd.combined then
      let exp := match cmd.instr with
        | .shtr _ _ exp _ _ => exp
        | _ => false
      if spHeld s cmd link then eventNext s else
      match readingFrom (unseenMem s cmd) s (fun s => spRead s cmd exp link) with
      | (s, .ok cmd) => .next (s.modCmd cmd.id (fun _ => cmd))
      | (s, .error (cmd, st, a)) =>
        let cmd := { cmd with fails := [(0, st, a)], combined := true, ops := cmd.ops.take 4 ++ [0, 0, dw cmd.cardCredit] }
        match cmd.src with
        | .row _ => .next (retireDone s cmd)
        | .staging _ => .next (s.modCmd cmd.id (fun _ => cmd))
    else if heldByEarlier s cmd q k || lineHeld s (coreRequester s cmd.core cmd.launch link) (cmd.line q k) then eventNext s
    else
      let (t, f) := doLine (unseenMem s cmd) s (coreRequester s cmd.core cmd.launch link) (cmd.line q k)
      let t := if f.isSome then t else t.noted s cmd.id (lineKeys s cmd q k)
      .next (noteUnit t cmd (lineOrder q k) (f.map (fun p => (p.1.status, p.2))) (fun k => !k.linesLeft.isEmpty))

/-! ### Issue -/

/-- A shuttle command's request: the scoreboard ranges it takes, and its failed check. -/
def shuttleRequest (i : Instr) (a b : Reg) (d3 : Bool) (c : Ctx) : CmdReq × Option Byte :=
  let q : CmdReq := ⟨.sh, i, c.group a, if d3 then c.x.sget b else 0, [], []⟩
  let k := c.command q
  let g := c.r.core
  let (bad, sb) := match i with
    | .shtr .. =>
      if k.sparse then
        (spCheck c.s k, operandRange g true (k.op 0) (toWindowEnd c.s k.launch g (k.op 0))
          ++ operandRange g false (k.op 1) (toWindowEnd c.s k.launch g (k.op 1)))
      else (trCheck c.s k, operandRange g true (k.op 0) k.trDstLen ++ operandRange g false (k.op 1) k.trSrcLen)
    | .shcp .. => (copyCheck c.s k, operandRange g true (k.op 0) k.copyDstLen ++ operandRange g false (k.op 1) k.copySrcLen)
    | _ => (copyCheck c.s k, operandRange g true (k.op 0) k.copyDstLen)
  ({ q with sb := if bad.isSome then [] else sb }, bad)

/-- A shuttle instruction issues. -/
def issueShuttle (s : State) (i : Instr) (d a b : Reg) (d3 : Bool) : Out :=
  issue s accSchd (fSca d) (fSca a) (if d3 then fSca b else fNone) (fun c => do
    c.needGroup a 4
    if d3 then c.needS b false 2
    c.engineIssue .sh (shuttleRequest i a b d3) false (fun s _ => s))

/-- SHCP (R149, R150). -/
def execShcp (d a b : Reg) (bar d3 : Bool) (s : State) : Out := issueShuttle s (.shcp d a b bar d3) d a b d3
/-- SHTR (R153 to R155). -/
def execShtr (d a : Reg) (exp bar sp : Bool) (s : State) : Out := issueShuttle s (.shtr d a exp bar sp) d a 0 false
/-- SHSET (R156). -/
def execShset (d a b : Reg) (z : BitVec 2) (bar d3 : Bool) (s : State) : Out :=
  issueShuttle s (.shset d a b z bar d3) d a b d3

end Sys2Proof.Machine
end

