-- ==== Sys2Proof/Machine/Gather.lean ====
section
/-! DEFINITION. The gather-scatter commands GATH, SCAT and SRED and their completion (R168 to R184). -/
namespace Sys2Proof.Machine

/-! ### The operand group (R171 to R175) -/

/-- BASE. -/
def Cmd.base (k : Cmd) : Nat := (k.op 0).toNat
/-- STAT: window offset of the fault vector. -/
def Cmd.statOff (k : Cmd) : Nat := fld (k.op 1) 51 32
/-- DATA: window offset of the slots. -/
def Cmd.dataOff (k : Cmd) : Nat := fld (k.op 1) 19 0
/-- IXOFF: window offset of the index list. -/
def Cmd.ixOff (k : Cmd) : Nat := fld (k.op 2) 51 32
/-- The bytes of an index: 4 or 8. -/
def Cmd.ixSize (k : Cmd) : Nat := if tst (k.op 2) 11 then 8 else 4
/-- ES: the bytes between consecutive table elements (R173). -/
def Cmd.stride (k : Cmd) : Nat := if fld (k.op 3) 63 32 = 0 then k.esz else fld (k.op 3) 63 32
/-- The bytes of the fault vector (R175). -/
def Cmd.statLen (k : Cmd) : Nat := 8 * ((k.count + 63) / 64)

/-- The indices come from registers. -/
def Cmd.ixr (k : Cmd) : Bool :=
  match k.instr with
  | .gath _ _ _ _ r | .scat _ _ _ _ r | .sred _ _ _ _ _ _ r => r
  | _ => false
/-- A GATH. -/
def Cmd.isGath (k : Cmd) : Bool :=
  match k.instr with
  | .gath .. => true
  | _ => false
/-- An SRED: its operation and whether it is ordered. -/
def Cmd.sredForm (k : Cmd) : Option (SredOp × Bool) :=
  match k.instr with
  | .sred _ _ _ p o _ _ => some (p, o)
  | _ => none

/-- What an access of the command's elements does. -/
def Cmd.gsKind (k : Cmd) : Kind :=
  match k.instr with
  | .gath .. => .read
  | .scat .. => .write
  | _ => .update

/-- Two ranges of the window overlap. -/
def rangesMeet (a n b m : Nat) : Bool := decide (a < b + m) && decide (b < a + n)

/-- The fault vector's own range passes its checks (R174). DEDUCED: log entry 46. -/
def Cmd.statOk (k : Cmd) (wsize : Nat) : Bool :=
  k.statOff % 8 == 0 && decide (k.statOff + k.statLen ≤ wsize)

/-- The checks of R174; every failure is RANGE. -/
def gsCheck (k : Cmd) (wsize lw : Nat) : Option Byte :=
  let slots := k.count * k.esz
  let list := k.count * k.ixSize
  let reserved := fld (k.op 1) 63 52 ≠ 0 || fld (k.op 1) 31 20 ≠ 0 || fld (k.op 2) 63 62 ≠ 0 || fld (k.op 2) 55 52 ≠ 0
    || fld (k.op 2) 31 22 ≠ 0 || fld (k.op 2) 10 8 ≠ 0 || fld (k.op 3) 31 0 ≠ 0
  if reserved || (k.ixr && k.ixOff ≠ 0) then some stRange
  else if fld (k.op 0) 63 61 ≠ 0 || k.base % 4 ≠ 0 || fld (k.op 3) 63 32 % 4 ≠ 0 then some stRange
  else if k.ixr && (if tst (k.op 2) 11 then lw else 2 * lw) < k.count then some stRange
  else if k.dataOff % 4 ≠ 0 || wsize < k.dataOff + slots || (!k.ixr && (k.ixOff % k.ixSize ≠ 0 || wsize < k.ixOff + list))
  then some stRange
  else if !k.statOk wsize || rangesMeet k.statOff k.statLen k.dataOff slots
    || (!k.ixr && rangesMeet k.statOff k.statLen k.ixOff list) then some stRange
  else if k.isGath && !k.ixr && rangesMeet k.dataOff slots k.ixOff list then some stRange
  else none

/-- The scoreboard ranges of R175. -/
def gsRanges (k : Cmd) (wbase : Nat) : List SbRange :=
  let r (dst : Bool) (off n : Nat) := wideRange k.core dst (wbase + off) (wbase + off + n)
  r true k.statOff k.statLen :: r k.isGath k.dataOff (k.count * k.esz)
    :: (if k.ixr then [] else [r false k.ixOff (k.count * k.ixSize)])

/-- What stands for an index whose bytes are uncorrectable: above every index (R176). DEDUCED: log entry 53. -/
def badIndex : Nat := 2 ^ 64

/-- The indices of a command (R172, R176): lanes of the register pair, or the list in the window.
DEDUCED: log entry 53. -/
def Ctx.indices (c : Ctx) (k : Cmd) (b : Reg) : List Nat :=
  let lo := c.x.vget b
  let hi := c.x.vget (b + 1)
  (List.range k.count).map (fun p =>
    if k.ixr then
      if tst (k.op 2) 11 then (laneAt hi p).toNat * 2 ^ 32 + (laneAt lo p).toNat
      else if p < c.lw then (laneAt lo p).toNat else (laneAt hi (p - c.lw)).toNat
    else
      let off := k.ixOff + p * k.ixSize
      if c.badBytes off k.ixSize then badIndex else leNat (c.bytes off k.ixSize))

/-! ### Elements -/

/-- The exact element address of position p (R173). DEDUCED: log entry 53. -/
def Cmd.ea (k : Cmd) (p : Nat) : Nat := k.base + k.idx.getD p 0 * k.stride

/-- The index of position p could not be read (R176). -/
def Cmd.badIx (k : Cmd) (p : Nat) : Bool := k.idx.getD p 0 == badIndex

/-- The address recorded for position p, under tag 000 (R178): none is formed where its index could not be read. -/
def Cmd.eaAddr (k : Cmd) (p : Nat) : Dword := if k.badIx p then 0 else dw (k.ea p % 2 ^ 61)

/-- The window base of the band of a command. -/
def cmdBase (s : State) (k : Cmd) : Nat :=
  match s.band? k.band with
  | some b => b.wbase
  | none => 0

/-- The key of a window offset of the command's band. -/
def cmdKey (s : State) (k : Cmd) (off : Nat) : Nat := sideKey k.core.toNat (cmdBase s k + off)

/-- The place of a window offset of the command's band. -/
def cmdPlace (s : State) (k : Cmd) (off : Nat) : Place := .scratch (cmdKey s k off) (dieOf k.core)

/-- The requester of a gather-scatter command (R128, R169). -/
def gsRequester (s : State) (k : Cmd) (link : Bool) : Requester := coreRequester s k.core k.launch link

/-- The slot of position p meets an uncorrectable word. -/
def slotBad (s : State) (k : Cmd) (p : Nat) : Bool := readFails s (cmdPlace s k (k.dataOff + p * k.esz)) k.esz

/-- The bytes of the slot of position p, as the command observes them (R148). -/
def slotBytes (s : State) (k : Cmd) (p : Nat) : List Byte := seenBytes s k (cmdPlace s k (k.dataOff + p * k.esz)) k.esz

/-- The status of position p that comes before any access of the table: an unreadable index or slot, or an address out of
range (R176). -/
def preStatus (s : State) (k : Cmd) (p : Nat) : Option Byte :=
  if k.badIx p then some stUncorrectable
  else if !k.isGath && slotBad s k p then some stUncorrectable
  else if 2 ^ 52 < k.ea p + k.esz then some stRange
  else none

/-- The keys of the table words of position p. -/
def elementKeys (s : State) (k : Cmd) (p : Nat) : List (Nat × Nat) :=
  if k.badIx p || decide (2 ^ 52 < k.ea p + k.esz) then []
  else
    (pieces (dw (k.ea p)) k.esz).filterMap (fun q =>
      match resolve s (gsRequester s k false) k.gsKind (dw (k.ea p + q.1)) q.2 with
      | .ok pl => some (pl.key, q.2)
      | .error _ => none)

/-- The positions not yet done. -/
def Cmd.positionsLeft (k : Cmd) : List Nat := (List.range k.count).filter (fun p => !k.done.contains p)

/-- Commands whose effect on a word is ordered by issue: GATH, SCAT and ordered SRED of one core (R184). -/
def Cmd.inOrder (k : Cmd) : Bool :=
  k.cls == .gs && (match k.sredForm with | some (_, o) => o | none => true)

/-- An earlier command of the core that must reach a word first has not (R183, R184, R349). DEDUCED: log entry 53. -/
def gsHeld (s : State) (k : Cmd) (keys : List (Nat × Nat)) : Bool :=
  k.inOrder && (s.cmds.takeWhile (fun e => e.id != k.id)).any (fun e =>
    e.core == k.core && e.inOrder && e.positionsLeft.any (fun p => keysMeet (elementKeys s e p) keys))

/-! ### Retirement (R178) -/

/-- The fault vector of a set of failed positions (R178). -/
def faultVector (n : Nat) (failed : Nat → Bool) : List Byte :=
  leBytes (8 * ((n + 63) / 64)) ((List.range n).foldl (fun a p => if failed p then a + 2 ^ p else a) 0)

/-- A gather-scatter command retires: its fault vector is written. -/
def gsRetire (s : State) (k : Cmd) : State :=
  retireDone (placeWrite s (cmdPlace s k k.statOff)
    (faultVector k.count (fun p => k.fails.any (fun f => f.1 == p)))) k

/-- The command that fails its checks: the fault vector, where it may be written, has every bit set (R174).
DEDUCED: log entry 46. -/
def gsReject (s : State) (k : Cmd) (wsize : Nat) : State :=
  if k.statOk wsize then placeWrite s (cmdPlace s k k.statOff) (faultVector k.count (fun _ => true)) else s

/-- Positions done, the failing ones with a status; the command retires with the last. -/
def gsNote (s : State) (k : Cmd) (ps : List Nat) (st : Option Byte) : State :=
  let k := { k with
    done := k.done ++ ps
    fails := match st with
      | some t => k.fails ++ ps.map (fun p => (p, t, k.eaAddr p))
      | none => k.fails }
  if k.positionsLeft.isEmpty then gsRetire (s.modCmd k.id (fun _ => k)) k else s.modCmd k.id (fun _ => k)

/-! ### GATH and SCAT (R177, R179) -/

/-- The slot of a GATH written whole, or UNCORRECTABLE where part of a bad word would be (R135, R177). -/
def gathWrite (s : State) (k : Cmd) (p : Nat) (bs : List Byte) : State × Option Byte :=
  let pl := cmdPlace s k (k.dataOff + p * k.esz)
  if writeFails s pl k.esz then (s, some stUncorrectable)
  else ((placeWrite s pl bs).noted s k.id [(pl.key, k.esz)], none)

/-- One position of a GATH. -/
def gathPosition (s : State) (k : Cmd) (p : Nat) (link : Bool) : State × Option Byte :=
  let zeros := List.replicate k.esz (0 : Byte)
  match preStatus s k p with
  | some st =>
    if st = stUncorrectable then (s, some st) else ((gathWrite s k p zeros).1, some st)
  | none =>
    match readingFrom (unseenMem s k) s (fun s => readAddr s (gsRequester s k link) (dw (k.ea p)) k.esz) with
    | (s, .ok bs) => gathWrite s k p bs
    | (s, .error f) =>
      if f.status = stUncorrectable || f.status = stLink then (s, some f.status)
      else ((gathWrite s k p zeros).1, some f.status)

/-- One position of a SCAT. -/
def scatPosition (s : State) (k : Cmd) (p : Nat) (link : Bool) : State × Option Byte :=
  match preStatus s k p with
  | some st => (s, some st)
  | none =>
    match writeAddr s (gsRequester s k link) (dw (k.ea p)) (slotBytes s k p) with
    | (t, none) => (t.noted s k.id (elementKeys s k p), none)
    | (t, some f) => (t, some f.status)

/-- A lower position of the same SCAT has yet to write a byte of this one (R179). -/
def scatHeld (s : State) (k : Cmd) (p : Nat) (keys : List (Nat × Nat)) : Bool :=
  !k.isGath && k.positionsLeft.any (fun q => decide (q < p) && keysMeet (elementKeys s k q) keys)

/-- Position p waits for main memory (R107, R118). -/
def elementHeld (s : State) (k : Cmd) (p : Nat) (link : Bool) : Bool :=
  (preStatus s k p).isNone && accessHeld s (gsRequester s k link) k.gsKind (dw (k.ea p)) k.esz

/-- GS_ELEMENT_COMPLETE (R177): a position of a GATH or SCAT that nothing holds back. -/
def execGsElementComplete (c p : Nat) (link : Bool) (s : State) : Out :=
  match s.cmd? c with
  | none => eventNext s
  | some k =>
    let keys := elementKeys s k p
    if k.cls != .gs || k.sredForm.isSome || cmdStopped s k || !k.positionsLeft.contains p
        || gsHeld s k keys || scatHeld s k p keys || elementHeld s k p link then eventNext s
    else
      let (s, st) := if k.isGath then gathPosition s k p link else scatPosition s k p link
      .next (gsNote s k [p] st)

/-! ### SRED (R180 to R183) -/

/-- The little-endian words of some bytes. -/
def wordsOf : List Byte → List Word
  | a :: b :: c :: d :: l => (d ++ c ++ b ++ a) :: wordsOf l
  | _ => []

/-- The bytes of words. -/
def bytesOf (l : List Word) : List Byte := l.flatMap (fun w => leBytes 4 w.toNat)

/-- A status found for position p before the combiner: its index, its slot, its translation (R176, R181). -/
def combineStatus (s : State) (k : Cmd) (p : Nat) : Option Byte :=
  match preStatus s k p with
  | some st => some st
  | none =>
    let r := (pieces (dw (k.ea p)) k.esz).map (fun q =>
      match resolve s (gsRequester s k false) .update (dw (k.ea p + q.1)) q.2 with
      | .ok _ => none
      | .error f => some f)
    (r.foldl worse none).map Fail.status

/-- The update of an index: its slots combined in ascending order of position (R181). -/
def combineGroup (s : State) (k : Cmd) (op : SredOp) : List Nat → List Word
  | [] => []
  | p :: ps => ps.foldl (fun v q => List.zipWith (sredOp op) v (wordsOf (slotBytes s k q))) (wordsOf (slotBytes s k p))

/-- The positions of a command that carry the index of position p, among some. -/
def sameIndex (k : Cmd) (l : List Nat) (p : Nat) : List Nat := l.filter (fun q => k.idx.getD q 0 == k.idx.getD p 0)

/-- The translations of the positions of an SRED (R128, R169). -/
def sredWalked (s : State) (k : Cmd) : State :=
  (List.range k.count).foldl (fun t p =>
    if (preStatus s k p).isSome then t else walked t (gsRequester s k false) .update (dw (k.ea p)) k.esz) s

/-- A translation of an SRED waits for a table entry (R107, R118). -/
def sredHeld (s : State) (k : Cmd) : Bool :=
  (List.range k.count).any (fun p => (preStatus s k p).isNone && walksHeld s (gsRequester s k false) (dw (k.ea p)) k.esz)

/-- SRED_COMBINE (R181): the core's earlier SREDs have been combined; failing positions are left out, each distinct index
makes one update. -/
def execSredCombine (c : Nat) (s : State) : Out :=
  match s.cmd? c with
  | none => eventNext s
  | some k =>
    match k.sredForm with
    | none => eventNext s
    | some (op, _) =>
      let waits := (s.cmds.takeWhile (fun e => e.id != k.id)).any (fun e =>
        e.core == k.core && e.sredForm.isSome && !e.combined)
      if k.combined || waits || sredHeld s k then eventNext s
      else
        let s := sredWalked s k
        let sts := (List.range k.count).map (fun p => (p, combineStatus s k p))
        let bad := sts.filterMap (fun q => q.2.map (fun st => (q.1, st, k.eaAddr q.1)))
        let ok := (sts.filter (fun q => q.2.isNone)).map (fun q => q.1)
        let firsts := ok.filter (fun p => (sameIndex k ok p).head? == some p)
        let groups := firsts.map (fun p => (⟨dw (k.ea p), p, combineGroup s k op (sameIndex k ok p)⟩ : SredGroup))
        let k := { k with
          combined := true
          groups := groups
          done := bad.map (fun b => b.1)
          fails := bad }
        .next (gsNote s k [] none)

/-- The words of an update applied to the bytes of one line, from offset o of the element. -/
def applyWords (op : SredOp) (ws : List Word) (o : Nat) (bs : List Byte) : List Byte :=
  bytesOf (List.zipWith (sredOp op) (wordsOf bs) (ws.drop (o / 4)))

/-- An update applied as one element: every line, or none (R182). -/
def applyUpdate (s : State) (q : Requester) (op : SredOp) (a : Dword) (n : Nat) (ws : List Word) : State × Option Byte :=
  let (t, f) := updateAddr s q a n (applyWords op ws)
  (t, f.map Fail.status)

/-- SRED_UPDATE_APPLY (R182): the update of the index whose lowest position is g; when it fails, every position combined
into it fails. Updates of one command that overlap on a word come in the order of the turns (DESIGN CHOICE, log entry 91). -/
def execSredUpdateApply (c g : Nat) (link : Bool) (s : State) : Out :=
  match s.cmd? c with
  | none => eventNext s
  | some k =>
    match k.sredForm, k.groups.find? (fun u => u.p == g) with
    | some (op, _), some u =>
      if gsHeld s k (elementKeys s k g) || elementHeld s k g link then eventNext s
      else
        let (t, st) := applyUpdate s (gsRequester s k link) op u.addr k.esz u.words
        let t := if st.isSome then t else t.noted s k.id (elementKeys s k g)
        let k := { k with groups := k.groups.filter (fun v => v.p != g) }
        .next (gsNote t k (sameIndex k k.positionsLeft g) st)
    | _, _ => eventNext s

/-! ### Issue -/

/-- A gather-scatter command's request and its failed check. -/
def gsRequest (i : Instr) (a b : Reg) (c : Ctx) : CmdReq × Option Byte :=
  let q : CmdReq := ⟨.gs, i, c.group a, 0, [], []⟩
  let k := c.command q
  match gsCheck k c.band.wsize c.lw with
  | some st => (q, some st)
  | none => ({ q with sb := gsRanges k c.band.wbase, idx := c.indices k b }, none)

/-- A gather-scatter instruction issues; a rejected command leaves its fault vector first (R174). -/
def issueGs (s : State) (i : Instr) (d a b : Reg) (ixr : Bool) : Out :=
  issue s accSchd (fSca d) (fSca a) (if ixr then fVec b else fNone) (fun c => do
    c.needGroup a 4
    if ixr then
      c.needV b false 2
      c.needV (b + 1) false 2
    let q := c.command ⟨.gs, i, c.group a, 0, [], []⟩
    match gsCheck q c.band.wsize c.lw with
    | none => c.engineIssue .gs (gsRequest i a b) false (fun s _ => s)
    | some _ =>
      match c.engineIssue .gs (gsRequest i a b) false (fun s _ => s) with
      | .ok (.done t) => .ok (.done (gsReject t q c.band.wsize))
      | r => r)

/-- GATH (R179). -/
def execGath (d a b : Reg) (bar ixr : Bool) (s : State) : Out := issueGs s (.gath d a b bar ixr) d a b ixr
/-- SCAT (R179). -/
def execScat (d a b : Reg) (bar ixr : Bool) (s : State) : Out := issueGs s (.scat d a b bar ixr) d a b ixr
/-- SRED (R180, R181). -/
def execSred (d a b : Reg) (p : SredOp) (ord bar ixr : Bool) (s : State) : Out :=
  issueGs s (.sred d a b p ord bar ixr) d a b ixr

end Sys2Proof.Machine
end

