-- ==== Sys2Proof/Machine/Network.lean ====
section
/-! DEFINITION. The network: NPUT, NGET, NRED, NSIG, what arrives from peers, and the peer ports and the treadle link
(R428, R434 to R443). -/
namespace Sys2Proof.Machine

/-! ### Routing (R435) -/

/-- The output port toward a device: none where it is unreachable. -/
def routePort (s : State) (dev : BitVec 12) : Option Nat :=
  let p := match s.net.route.find? (fun r => r.1 == dev.toNat) with
    | some r => r.2.toNat
    | none => 15
  if p < 12 then some p else none

/-- A device other than this one cannot be reached: its route, or the port of it. DEDUCED: log entry 54. -/
def deviceAway (s : State) (dev : BitVec 12) : Bool := dev != s.net.devid && (routePort s dev).isNone

/-- The port toward a device is up. -/
def portUp (s : State) (dev : BitVec 12) : Bool :=
  match routePort s dev with
  | some p => !(s.net.ports[p]?.getD ⟨true, 0⟩).down
  | none => false

/-- A message sent toward a peer: a flit that passes ends a run of failures on its port (R434). Nothing leaves where no
port leads to the device, or its port is down (R434, R435). DEDUCED: log entry 92. -/
def sendPeer (s : State) (dev : BitVec 12) (m : PeerMsg) : State :=
  if portUp s dev then
    let ports := match routePort s dev with
      | some p => if h : p < 12 then s.net.ports.set p { s.net.ports[p] with fails := 0 } h else s.net.ports
      | none => s.net.ports
    { s with net := { s.net with out := s.net.out ++ [m], ports := ports } }
  else s

/-! ### Accesses made for peers (R436) -/

/-- The requester of an access that arrives from a peer. -/
def peerRequester (s : State) : Requester := netRequester s s.net.peerAsid none 0

/-- An access of a peer performed: its status and the data it returns. -/
def performPeer (s : State) (acc : PeerAccess) : State × Byte × List Byte :=
  if !s.net.peerEn then (s, stPermission, [])
  else
    let q := peerRequester s
    match acc with
    | .write va data =>
      match writeAddr s q (va.setWidth 64) data with
      | (s, none) => (s, stOk, [])
      | (s, some f) => (s, f.status, [])
    | .read va n =>
      match readAddr s q (va.setWidth 64) n with
      | (s, .ok bs) => (s, stOk, bs)
      | (s, .error f) => (s, f.status, [])
    | .signal va v set =>
      let (s, st) := updateSlot s q (va.setWidth 64) v set
      (s, st, [])

/-- An access of a peer waits for main memory (R107, R118). -/
def peerHeld (s : State) (acc : PeerAccess) : Bool :=
  let q := peerRequester s
  s.net.peerEn && (match acc with
    | .write va data => accessHeld s q .write (va.setWidth 64) data.length
    | .read va n => accessHeld s q .read (va.setWidth 64) n
    | .signal va _ set => slotHeld s q (va.setWidth 64) set)

/-- The peer links are trained: bring-up has passed its step 7, and the device is not in recovery mode (R474, R475). -/
def State.peersUp (s : State) : Bool := decide (7 < s.mgmt.step) && s.mgmt.bootState != 2

/-- PEER_ACCESS_ARRIVAL (R436): performed, and acknowledged with its status. -/
def execPeerAccessArrival (src : BitVec 12) (acc : PeerAccess) (s : State) : Out :=
  if !s.peersUp || peerHeld s acc then eventNext s
  else
    let (s, st, bs) := performPeer s acc
    .next (sendPeer s src (.ack src st bs))

/-- PEER_FLIT_FORWARD (R435): a flit for another device leaves by the route table. -/
def execPeerFlitForward (dst : BitVec 12) (data : List Byte) (s : State) : Out :=
  match routePort s dst with
  | some p =>
    if dst = s.net.devid || !portUp s dst || !s.peersUp then eventNext s
    else .next (sendPeer s dst (.forward dst (BitVec.ofNat 4 p) data))
  | none => eventNext s

/-- An interrupt raised to the host (R429). -/
def raiseMsix (s : State) (v : Nat) : State := { s with mgmt := { s.mgmt with msix := s.mgmt.msix ++ [v] } }

/-- A flit that fails its CRC: after 16 consecutive failures the link is down (R428, R434). -/
def Link.fail (l : Link) : Link := if l.down then l else ⟨decide (15 ≤ l.fails), l.fails + 1⟩

/-- PEER_FLIT_CRC_ERROR (R434). -/
def execPeerFlitCrcError (p : Nat) (s : State) : Out :=
  if h : p < 12 then
    let l := s.net.ports[p].fail
    let t := { s with net := { s.net with ports := s.net.ports.set p l h } }
    .next (if l.down && !s.net.ports[p].down then raiseMsix t 19 else t)
  else eventNext s

/-- TREADLE_FLIT_CRC_ERROR (R428): as the link goes down, the adapter reports an uncorrectable internal error to the host. -/
def execTreadleFlitCrcError (s : State) : Out :=
  let l := s.treadle.fail
  .next { s with
    treadle := l
    mgmt := { s.mgmt with aer := s.mgmt.aer + (if l.down && !s.treadle.down then 1 else 0) } }

/-! ### Operand groups (R438, R441, R443) -/

/-- DEV. -/
def Cmd.dev (k : Cmd) : BitVec 12 := (k.op 2).extractLsb' 48 12
/-- CH. -/
def Cmd.chan (k : Cmd) : BitVec 2 := (k.op 2).extractLsb' 40 2
/-- REMOTE, or the slot of an NSIG. -/
def Cmd.remote (k : Cmd) : BitVec 52 :=
  match k.instr with
  | .nsig .. => (k.op 0).setWidth 52
  | _ => (k.op 1).setWidth 52
/-- RSIG of an NPUT. -/
def Cmd.rsig (k : Cmd) : BitVec 52 :=
  match k.instr with
  | .nput .. => (k.op 3).setWidth 52
  | _ => 0
/-- GROUP of an NRED. -/
def Cmd.group (k : Cmd) : Fin 16 := ((k.op 2).extractLsb' 60 4).toFin
/-- TAG of an NRED. -/
def Cmd.tag (k : Cmd) : BitVec 16 := (k.op 2).extractLsb' 32 16
/-- FLAG of an NRED. -/
def Cmd.flagOff (k : Cmd) : Nat := fld (k.op 3) 19 0
/-- The operation of an NRED. -/
def Cmd.nredOp (k : Cmd) : Option SredOp :=
  match k.instr with
  | .nred _ _ p => some p
  | _ => none

/-- What a local operand of n bytes fails: RANGE for tags 100 and 101 and under R121, PERMISSION under R123 (R439).
DEDUCED: log entry 54. -/
def localCheck (s : State) (k : Cmd) (a : Dword) (n : Nat) : Option Byte :=
  let r := resolveTag k.core a
  if 4 ≤ fld r 63 61 || !tagOk r n then some stRange
  else if outsideWindow s k.core k.launch a n then some stPermission
  else none

/-- The group registers of an NRED's reduction group. -/
def nredGroup (s : State) (k : Cmd) : Dword × Dword := (s.net.grp0[k.group], s.net.grp1[k.group])

/-- The checks of a network command as a whole (R439, R441, R442). -/
def netCheck (s : State) (k : Cmd) (wsize : Nat) : Option Byte :=
  let far := fld (k.op 2) 63 60 ≠ 0 || fld (k.op 2) 47 42 ≠ 0
  let away := if deviceAway s k.dev then some stLink else none
  match k.instr with
  | .nput .. =>
    if far || fld (k.op 2) 39 24 ≠ 0 || fld (k.op 1) 63 52 ≠ 0 || fld (k.op 3) 63 52 ≠ 0 then some stRange
    else if (k.op 0).toNat % 4 ≠ 0 || (k.op 1).toNat % 4 ≠ 0 || k.bytes % 4 ≠ 0 || (k.op 3).toNat % 8 ≠ 0 then some stRange
    else (localCheck s k (k.op 0) k.bytes).or away
  | .nget .. =>
    if far || fld (k.op 2) 39 24 ≠ 0 || fld (k.op 1) 63 52 ≠ 0 || fld (k.op 3) 63 62 ≠ 0 || fld (k.op 3) 55 0 ≠ 0
    then some stRange
    else if (k.op 0).toNat % 4 ≠ 0 || (k.op 1).toNat % 4 ≠ 0 || k.bytes % 4 ≠ 0 then some stRange
    else (localCheck s k (k.op 0) k.bytes).or away
  | .nsig .. =>
    if far || fld (k.op 2) 39 0 ≠ 0 || !slotAddrOk (k.op 0) then some stRange else away
  | .nred .. =>
    if fld (k.op 2) 59 48 ≠ 0 || fld (k.op 2) 31 24 ≠ 0 || fld (k.op 3) 63 20 ≠ 0 then some stRange
    else if (k.op 0).toNat % 4 ≠ 0 || (k.op 1).toNat % 4 ≠ 0 || k.bytes % 4 ≠ 0 || k.flagOff % 8 ≠ 0
        || wsize < k.flagOff + 8 then some stRange
    else
      match localCheck s k (k.op 0) k.bytes, localCheck s k (k.op 1) k.bytes with
      | some st, _ => some st
      | none, some st => some st
      | none, none => if tst (nredGroup s k).1 31 then none else some stRange
  | _ => none

/-- The scoreboard ranges of a network command (R160). -/
def netRanges (k : Cmd) (wbase : Nat) : List SbRange :=
  match k.instr with
  | .nput .. => operandRange k.core false (k.op 0) k.bytes
  | .nget .. => operandRange k.core true (k.op 0) k.bytes
  | .nred .. => operandRange k.core false (k.op 0) k.bytes ++ operandRange k.core true (k.op 1) k.bytes
      ++ [wideRange k.core true (wbase + k.flagOff) (wbase + k.flagOff + 8)]
  | _ => []

/-! ### Lines (R437 to R440) -/

/-- The destination address of a copy, for its lines. -/
def Cmd.lineBase (k : Cmd) : Dword :=
  match k.instr with
  | .nget .. => k.op 0
  | _ => k.remote.setWidth 64

/-- The lines of a network copy; an NSIG has one unit. -/
def Cmd.netLines (k : Cmd) : Nat :=
  match k.instr with
  | .nsig .. => 1
  | _ => blockCount k.lineBase k.bytes

/-- The units of a command not yet done: its lines, and the signal of an NPUT once every line has been performed. -/
def Cmd.netLeft (k : Cmd) : List Nat :=
  let lines := (List.range k.netLines).filter (fun l => !k.done.contains l)
  if lines.isEmpty && k.rsig != 0 && k.fails.isEmpty && !k.done.contains k.netLines then [k.netLines] else lines

/-- An earlier command of the same path is not done (R437). -/
def pathHeld (s : State) (k : Cmd) : Bool :=
  (s.cmds.takeWhile (fun e => e.id != k.id)).any (fun e =>
    e.cls == .nw && e.nredOp.isNone && e.src == k.src && e.band == k.band && e.dev == k.dev && e.chan == k.chan)

/-- An access that a command makes at this device: it does not observe what other commands in flight have written, nor they
what it has (R148). -/
def performOwn (s : State) (k : Cmd) (acc : PeerAccess) : State × Byte × List Byte :=
  match acc with
  | .read .. => readingFrom (unseenMem s k) s (fun s => performPeer s acc)
  | .write va data =>
    let (t, st, bs) := performPeer s acc
    (if st = stOk then t.noted s k.id (writtenKeys s (peerRequester s) (va.setWidth 64) data.length) else t, st, bs)
  | .signal .. => performPeer s acc

/-- The access that unit l makes at the destination, or the status of its local read. DEDUCED: log entry 54. -/
def netAccess (s : State) (k : Cmd) (l : Nat) : State × Except Byte PeerAccess :=
  let j := blockStart k.lineBase l
  let n := blockLen k.lineBase k.bytes l
  match k.instr with
  | .nput .. =>
    if l = k.netLines then (s, .ok (.signal k.rsig 1 false))
    else
      match readingFrom (unseenMem s k) s (fun s => readAddr s (cmdRequester s k) (k.op 0 + dw j) n) with
      | (s, .ok bs) => (s, .ok (.write (k.remote + BitVec.ofNat 52 j) bs))
      | (s, .error f) => (s, .error f.status)
  | .nget .. => (s, .ok (.read (k.remote + BitVec.ofNat 52 j) n))
  | .nsig _ _ st => (s, .ok (.signal k.remote (k.op 1) st))
  | _ => (s, .error stRange)

/-- A line of an NGET written at its local place, or the status of the write. -/
def ngetWrite (s : State) (k : Cmd) (l : Nat) (data : List Byte) : State × Byte :=
  let a := k.op 0 + dw (blockStart k.lineBase l)
  match writeAddr s (cmdRequester s k) a data with
  | (t, none) => (t.noted s k.id (writtenKeys s (cmdRequester s k) a data.length), stOk)
  | (t, some f) => (t, f.status)

/-- The level-qualified address recorded for a failing line: that of its local part. DEDUCED: log entry 54. -/
def netAddr (k : Cmd) (l : Nat) : Dword :=
  match k.instr with
  | .nsig .. => k.op 0
  | _ => if l = k.netLines then k.rsig.setWidth 64 else k.op 0 + dw (blockStart k.lineBase l)

/-- A unit of a network command has its status: the data of an NGET line is written. DEDUCED: log entry 55. -/
def netFinish (s : State) (k : Cmd) (l : Nat) (st : Byte) (data : List Byte) : State :=
  let (s, st) := match k.instr with
    | .nget .. => if st = stOk then ngetWrite s k l data else (s, st)
    | _ => (s, st)
  noteUnit s k l (if st = stOk then none else some (st, netAddr k l)) (fun k => !k.netLeft.isEmpty)

/-- The local part of a line of an NPUT or NGET waits for main memory (R107, R118). -/
def netHeld (s : State) (k : Cmd) (l : Nat) : Bool :=
  let j := blockStart k.lineBase l
  let n := blockLen k.lineBase k.bytes l
  match k.instr with
  | .nput .. => l != k.netLines && accessHeld s (cmdRequester s k) .read (k.op 0 + dw j) n
  | .nget .. => accessHeld s (cmdRequester s k) .write (k.op 0 + dw j) n
  | _ => false

/-- What a unit does at its destination, which is this device, waits for main memory. -/
def netHereHeld (s : State) (k : Cmd) (l : Nat) : Bool :=
  k.dev == s.net.devid && (match (netAccess s k l).2 with
    | .ok acc => peerHeld s acc
    | .error _ => false)

/-- The network engine sends unit l of a command toward its destination, or performs it where the destination is this
device (R438, R440). -/
def netUnit (s : State) (c l : Nat) : State :=
  match s.cmd? c with
  | none => s
  | some k =>
    if k.cls != .nw || k.nredOp.isSome || pathHeld s k || !k.netLeft.contains l || k.sent.contains l
        || netHeld s k l || netHereHeld s k l then s
    else if cmdStopped s k && (match k.instr with | .nsig .. => false | _ => true) then s
    else
      match netAccess s k l with
      | (s, .error st) => netFinish s k l st []
      | (s, .ok acc) =>
        if k.dev = s.net.devid then
          let (s, st, bs) := performOwn s k acc
          netFinish s k l st bs
        else if portUp s k.dev then
          (sendPeer s k.dev (.access k.dev c l acc)).modCmd c (fun k => { k with sent := k.sent ++ [l] })
        else s

/-- NETWORK_ACK (R439): the acknowledgement of a unit that was sent. -/
def execNetworkAck (c l : Nat) (st : Byte) (data : List Byte) (s : State) : Out :=
  match s.cmd? c with
  | none => eventNext s
  | some k =>
    let short := match k.instr with
      | .nget .. => st == stOk && data.length != blockLen k.lineBase k.bytes l
      | _ => false
    if !k.sent.contains l || k.done.contains l || short || netHeld s k l then eventNext s
    else .next (netFinish s k l st data)

/-- The N-cycles a command may take (R435). -/
def netLimit (s : State) : Nat := 2 ^ max 20 s.net.nrto.toNat

/-- NETWORK_TIMEOUT (R440, R442): the command retires with LINK; nothing of it is performed afterwards. -/
def execNetworkTimeout (c : Nat) (s : State) : Out :=
  match s.cmd? c with
  | none => eventNext s
  | some k =>
    if k.cls != .nw || decide (k.timer < netLimit s) then eventNext s
    else
      let s := { s with net := { s.net with nred := s.net.nred.filter (fun n => n.cmd != c) } }
      .next (retireCmd s k stLink (netAddr k ((k.netLeft.head?).getD 0)))

/-! ### NRED (R441, R442) -/

/-- Members, rank and table of a reduction group. -/
def groupSize (g : Dword × Dword) : Nat := fld g.1 27 16 + 1
/-- RANK. -/
def groupRank (g : Dword × Dword) : Nat := fld g.1 11 0
/-- The physical address of a rank's entry in the table of a group. -/
def groupEntry (g : Dword × Dword) (r : Nat) : Nat := fld g.2 39 0 + 2 * r
/-- The device of a rank, from the table in main memory, or the status of its read (R104, R110, R112, R441). -/
def groupDevice (s : State) (g : Dword × Dword) (r : Nat) : State × Except Byte (BitVec 12) :=
  match readPhys s (groupEntry g r) 2 with
  | (t, .ok bs) => (t, .ok (BitVec.ofNat 12 (leNat bs)))
  | (t, .error st) => (t, .error st)

/-- A message for a rank of a group sent to its device; the status where the table cannot be read.
DEDUCED: log entry 92. -/
def sendRank (s : State) (g : Dword × Dword) (r : Nat) (m : BitVec 12 → PeerMsg) : State × Option Byte :=
  match groupDevice s g r with
  | (t, .ok d) => (sendPeer t d (m d), none)
  | (t, .error st) => (t, some st)

/-- The same message sent to some ranks, in order, up to the first status. -/
def sendRanks (s : State) (g : Dword × Dword) (m : BitVec 12 → PeerMsg) : List Nat → State × Option Byte
  | [] => (s, none)
  | r :: l =>
    match sendRank s g r m with
    | (t, none) => sendRanks t g m l
    | (t, some st) => (t, some st)

/-- NonFinite of a vector of words (R442): NF and NAN; 0 for integers. -/
def nonFinite (p : SredOp) (v : List Word) : BitVec 2 :=
  let vals (w : Word) : List FVal :=
    match p with
    | .addF32 | .minF32 | .maxF32 => [unpack .f32 w.toNat]
    | .addBf16x2 => [unpack .bf16 (w.toNat % 2 ^ 16), unpack .bf16 (w.toNat / 2 ^ 16)]
    | _ => []
  let fs := v.flatMap vals
  bit (fs.any FVal.isNan) ++ bit (fs.any (fun f => f.isNan || f.isInf))

/-- The children of a rank below P. -/
def nredChildren (p r : Nat) : List Nat := [2 * r + 1, 2 * r + 2].filter (fun c => decide (c < p))

/-- A contribution joined to what a rank holds: v := op(v, vc) word by word, and NonFinite of the new v (R442). -/
def nredJoin (op : SredOp) (acc : List Word × BitVec 2 × Bool) (c : List Word × BitVec 2 × Bool) :
    List Word × BitVec 2 × Bool :=
  let bad := acc.2.2 || c.2.2 || acc.1.length != c.1.length
  let v := List.zipWith (sredOp op) acc.1 c.1
  (v, acc.2.1 ||| c.2.1 ||| nonFinite op v, bad)

/-- The reduction of a command is over: nothing more is awaited. -/
def nredDrop (s : State) (c : Nat) : State := { s with net := { s.net with nred := s.net.nred.filter (fun n => n.cmd != c) } }

/-- The result of a reduction at a rank: sent to its children, written at DST and FLAG, and the command retires; with
RANGE, and nothing written, where the reduction failed. DEDUCED: log entry 55. -/
def nredFinish (s : State) (k : Cmd) (op : SredOp) (r : List Word × BitVec 2 × Bool) : State :=
  let g := nredGroup s k
  let (s, sent) := sendRanks s g (fun d => .contribution d k.group.val k.tag op r.1 r.2.1 r.2.2)
    (nredChildren (groupSize g) (groupRank g))
  let s := nredDrop s k.id
  if r.2.2 then retireCmd s k stRange 0
  else if sent.isSome then retireCmd s k (sent.getD stOk) 0
  else
    let q := cmdRequester s k
    let bs := bytesOf r.1
    let (s, fails) := (List.range (blockCount (k.op 1) k.bytes)).foldl (fun (acc : State × List (Nat × Byte × Dword)) l =>
      let j := blockStart (k.op 1) l
      match writeAddr acc.1 q (k.op 1 + dw j) ((bs.drop j).take (blockLen (k.op 1) k.bytes l)) with
      | (s, none) => (s, acc.2)
      | (s, some f) => (s, acc.2 ++ [(l, f.status, k.op 1 + dw j)])) (s, [])
    let s := placeWrite s (cmdPlace s k k.flagOff) (leBytes 8 r.2.1.toNat)
    retireDone s { k with fails := fails }

/-- What a rank holds once its children have contributed, or the status of reading SRC. -/
def nredLocal (s : State) (k : Cmd) (op : SredOp) (n : NredState) : State × Except (Byte × Dword) (List Word × BitVec 2 × Bool) :=
  match readingFrom (unseenMem s k) s (fun s => readLines s (cmdRequester s k) (k.op 0) (pieces (k.op 0) k.bytes)) with
  | (s, .error e) => (s, .error e)
  | (s, .ok bs) =>
    let v := wordsOf bs
    (s, .ok ((n.child0.toList ++ n.child1.toList).foldl (nredJoin op) (v, nonFinite op v, false)))

/-- Every child that the rank has is heard. -/
def nredHeard (s : State) (k : Cmd) (n : NredState) : Bool :=
  let g := nredGroup s k
  let c := (nredChildren (groupSize g) (groupRank g)).length
  (decide (c < 1) || n.child0.isSome) && (decide (c < 2) || n.child1.isSome)

/-- A rank that would go on waits for main memory: SRC and DST, or the device table (R107, R118). -/
def nredHeld (s : State) (k : Cmd) : Bool :=
  let g := nredGroup s k
  let rs := (groupRank g - 1) / 2 :: nredChildren (groupSize g) (groupRank g)
  accessHeld s (cmdRequester s k) .read (k.op 0) k.bytes || accessHeld s (cmdRequester s k) .write (k.op 1) k.bytes
    || rs.any (fun r => physHeld s (groupEntry g r) 2)

/-- A rank goes on when its children are heard: the root finishes, another sends its contribution to its parent. A rank that
waits for main memory goes on at a later turn of the network engine. -/
def nredAdvance (s : State) (k : Cmd) (op : SredOp) : State :=
  match s.net.nred.find? (fun n => n.cmd == k.id) with
  | none => s
  | some n =>
    if n.sentUp || !nredHeard s k n || nredHeld s k then s
    else
      match nredLocal s k op n with
      | (s, .error (st, a)) => retireCmd (nredDrop s k.id) k st a
      | (s, .ok r) =>
        let g := nredGroup s k
        if groupRank g = 0 then nredFinish s k op r
        else
          match sendRank s g ((groupRank g - 1) / 2) (fun d => .contribution d k.group.val k.tag op r.1 r.2.1 r.2.2) with
          | (s, some st) => retireCmd (nredDrop s k.id) k st 0
          | (s, none) =>
            { s with net := { s.net with nred := s.net.nred.map (fun m => if m.cmd = k.id then { m with sentUp := true } else m) } }

/-- A turn of the network engine: unit l of a command, or the next thing that an NRED does (R438, R440, R442). -/
def netLine (s : State) (c l : Nat) : State :=
  match s.cmd? c with
  | some k =>
    match k.nredOp with
    | some op => nredAdvance s k op
    | none => netUnit s c l
  | none => s

/-- NRED_RECEIVE (R442): a child's contribution, or the result from the parent, with its operation; one whose operation
or length differs from the command's own marks the reduction failed. -/
def execNredReceive (c : Nat) (frm : NredFrom) (v : NredPart) (nf : BitVec 2) (bad : Bool) (s : State) : Out :=
  match s.cmd? c with
  | none => eventNext s
  | some k =>
    match k.nredOp, s.net.nred.find? (fun n => n.cmd == c) with
    | some op, some n =>
      let r := (v.words, nf, bad || v.op != op || v.words.length * 4 != k.bytes)
      let upd (f : NredState → NredState) : State :=
        { s with net := { s.net with nred := s.net.nred.map (fun m => if m.cmd = c then f m else m) } }
      match frm with
      | .child0 => if n.child0.isSome then eventNext s
          else .next (nredAdvance (upd (fun m => { m with child0 := some r })) k op)
      | .child1 => if n.child1.isSome then eventNext s
          else .next (nredAdvance (upd (fun m => { m with child1 := some r })) k op)
      | .parent => if n.sentUp && !nredHeld s k then .next (nredFinish s k op r) else eventNext s
    | _, _ => eventNext s

/-! ### Issue -/

/-- A network command's request and its failed check. -/
def netRequest (i : Instr) (a : Reg) (c : Ctx) : CmdReq × Option Byte :=
  let q : CmdReq := ⟨.nw, i, c.group a, 0, [], []⟩
  let k := c.command q
  match netCheck c.s k c.band.wsize with
  | some st => (q, some st)
  | none => ({ q with sb := netRanges k c.band.wbase }, none)

/-- A network instruction issues. -/
def issueNet (s : State) (i : Instr) (d a : Reg) (n : Nat) (fence : Bool) (after : State → Cmd → State) : Out :=
  issue s accSchd (fSca d) (fSca a) fNone (fun c => do
    c.needGroup a n
    c.engineIssue .nw (netRequest i a) fence after)

/-- NPUT (R438). -/
def execNput (d a : Reg) (s : State) : Out := issueNet s (.nput d a) d a 4 false (fun s _ => s)
/-- NGET (R438). -/
def execNget (d a : Reg) (bar : Bool) (s : State) : Out := issueNet s (.nget d a bar) d a 4 false (fun s _ => s)
/-- NRED (R441, R442): the rank begins with nothing received. -/
def execNred (d a : Reg) (p : SredOp) (s : State) : Out :=
  issueNet s (.nred d a p) d a 4 false (fun s k =>
    nredAdvance { s with net := { s.net with nred := s.net.nred ++ [⟨k.id, none, none, false⟩] } } k p)
/-- NSIG (R443): it acts as FENCE.sys at issue. -/
def execNsig (d a : Reg) (st : Bool) (s : State) : Out :=
  issueNet s (.nsig d a st) d a 3 true (fun s _ => s)

end Sys2Proof.Machine
end

