-- ==== Sys2Proof/Machine/Walker.lean ====
section
/-! DEFINITION. The format walker: WKST, the walker's instructions, its stops, its emissions and its commands
(R186 to R211). -/
namespace Sys2Proof.Machine

/-! ### Registers and commands -/

/-- A walker register; w0 reads zero (R187). -/
def Walker.get (k : Walker) (r : WReg) : Dword := if r = 0 then 0 else k.w[r.toNat]
/-- A walker register written; w0 ignores writes. -/
def Walker.set (k : Walker) (r : WReg) (v : Dword) : Walker := if r = 0 then k else { k with w := k.w.set r.toNat v }
/-- The walker at its next word, one more instruction executed. -/
def Walker.advance (k : Walker) (pc : Nat) : Walker := { k with pc := pc, count := k.count + 1 }

/-- The walker of a cluster. -/
def State.walker (s : State) (cl : ClusterId) : Walker := (s.cluster cl).walker
/-- The running command of a cluster's walker. -/
def walkCmd (s : State) (cl : ClusterId) : Option Cmd :=
  match (s.walker cl).cmd with
  | some c => s.cmd? c
  | none => none

/-- NWORDS. -/
def Cmd.nwords (k : Cmd) : Nat := fld (k.op 1) 43 32 + 1
/-- ARGS. -/
def Cmd.argsOff (k : Cmd) : Nat := fld (k.op 1) 19 0
/-- ENTRY. -/
def Cmd.entry (k : Cmd) : Nat := fld (k.op 2) 11 0
/-- STAT of a walk. -/
def Cmd.walkStat (k : Cmd) : Nat := fld (k.op 3) 19 0
/-- RELOAD. -/
def Cmd.reload (k : Cmd) : Bool :=
  match k.instr with
  | .wkst _ _ rl _ => rl
  | _ => false

/-! ### The end of a command (R194, R208, R210) -/

/-- The status record (R194). -/
def walkRecord (pc : Nat) (cause st : Byte) (elem addr result : Dword) : List Byte :=
  leBytes 8 (pc % 2 ^ 12 * 2 ^ 16 + cause.toNat * 2 ^ 8 + st.toNat) ++ leBytes 8 elem.toNat ++ leBytes 8 addr.toNat
    ++ leBytes 8 result.toNat

/-- A command retires with the status of its record; a fault is released to its slot (R210). -/
def walkRetire (s : State) (k : Cmd) (st : Byte) (addr : Dword) : State :=
  let s := if k.bar && st != stOk && st != stStale
    then slotFault s (clusterOf k.core) k.core k.slot k.gen k.launch st else s
  retireCmd s k st addr

/-- The walker without a command. -/
def Walker.idle (k : Walker) : Walker :=
  { k with cmd := none, buf := [], fetches := [], emis := [], stale := false, stop := none }

/-- A stopped command whose emissions are done writes its record and retires. -/
def walkFinish (s : State) (cl : ClusterId) : State :=
  let w := s.walker cl
  match w.stop, walkCmd s cl with
  | some t, some k =>
    if w.emis.isEmpty then
      let s := placeWrite s (cmdPlace s k k.walkStat) (walkRecord t.pc t.cause t.status t.elem t.addr (w.get 12))
      walkRetire (s.modWalker cl Walker.idle) k t.status t.addr
    else s
  | _, _ => s

/-- The walker stops: the first stop of a command is the one recorded (R209). -/
def Walker.halt (w : Walker) (t : WalkStop) : Walker := if w.stop.isSome then w else { w with stop := some t }

/-- Stop(c, st, a) at the current instruction (R201). DEDUCED: log entry 57. -/
def walkStop (s : State) (cl : ClusterId) (cause st : Byte) (addr : Dword) : State :=
  walkFinish (s.modWalker cl (fun w => w.halt ⟨cause, st, w.pc, w.get 15, addr⟩)) cl

/-! ### Execution -/

/-- A walker instruction: what it does to the walker of the cluster it runs in. -/
def walkExec (s : State) (f : ClusterId → Cmd → Walker → State) : Out :=
  match s.active with
  | .walker cl =>
    match walkCmd s cl with
    | some k => .next (f cl k (s.walker cl))
    | none => .fault .noActiveAgent
  | _ => .fault .noActiveAgent

/-- An instruction that writes one register (R199, R203). -/
def walkReg (s : State) (d : WReg) (f : Walker → Dword) : Out :=
  walkExec s (fun cl _ w => s.modWalker cl (fun _ => (w.set d (f w)).advance (w.pc + 1)))

/-- ADD (R199). -/
def execWadd (d a b : WReg) (s : State) : Out := walkReg s d (fun w => w.get a + w.get b)
/-- SUB (R199). -/
def execWsub (d a b : WReg) (s : State) : Out := walkReg s d (fun w => w.get a - w.get b)
/-- MUL (R199). -/
def execWmul (d a b : WReg) (s : State) : Out := walkReg s d (fun w => w.get a * w.get b)
/-- AND (R199). -/
def execWand (d a b : WReg) (s : State) : Out := walkReg s d (fun w => w.get a &&& w.get b)
/-- OR (R199). -/
def execWor (d a b : WReg) (s : State) : Out := walkReg s d (fun w => w.get a ||| w.get b)
/-- XOR (R199). -/
def execWxor (d a b : WReg) (s : State) : Out := walkReg s d (fun w => w.get a ^^^ w.get b)
/-- SHL (R199). -/
def execWshl (d a b : WReg) (s : State) : Out := walkReg s d (fun w => w.get a <<< fld (w.get b) 5 0)
/-- SHR (R199). -/
def execWshr (d a b : WReg) (s : State) : Out := walkReg s d (fun w => w.get a >>> fld (w.get b) 5 0)
/-- ADDI (R199). -/
def execWaddi (d a : WReg) (imm : BitVec 18) (s : State) : Out := walkReg s d (fun w => w.get a + imm.signExtend 64)
/-- LI (R199). -/
def execWli (d : WReg) (imm : BitVec 22) (s : State) : Out := walkReg s d (fun _ => imm.signExtend 64)

/-- The number of set bits of a doubleword. -/
def popc (x : Dword) : Nat := countBits x.toNat 64
/-- The set bits below position n. -/
def popcBelow (x : Dword) (n : Nat) : Nat := countBits x.toNat (min n 64)

/-- POPC (R203). -/
def execWpopc (d a : WReg) (s : State) : Out := walkReg s d (fun w => dw (popc (w.get a)))
/-- PFX (R203). -/
def execWpfx (d a b : WReg) (s : State) : Out := walkReg s d (fun w => dw (popcBelow (w.get a) (w.get b).toNat))

/-! ### Branches (R200) -/

/-- A branch to PC + OFF15; a target outside the program stops the walker with CAUSE 4. -/
def walkJump (s : State) (cl : ClusterId) (k : Cmd) (w : Walker) (o : BitVec 15) : State :=
  let t := (w.pc : Int) + o.toInt
  if t < 0 ∨ (k.nwords : Int) ≤ t then walkStop s cl 4 stRange 0
  else s.modWalker cl (fun _ => w.advance t.toNat)

/-- The comparisons of BCC. -/
def WCond.holds (c : WCond) (a b : Dword) : Bool :=
  match c with
  | .eq => a == b
  | .ne => a != b
  | .lt => a.slt b
  | .ge => !a.slt b
  | .ltu => a.ult b
  | .geu => !a.ult b

/-- BCC (R200). -/
def execWbcc (a b : WReg) (c : WCond) (o : BitVec 15) (s : State) : Out :=
  walkExec s (fun cl k w =>
    if WCond.holds c (w.get a) (w.get b) then walkJump s cl k w o
    else s.modWalker cl (fun _ => w.advance (w.pc + 1)))
/-- J (R200). -/
def execWj (o : BitVec 15) (s : State) : Out := walkExec s (fun cl k w => walkJump s cl k w o)

/-! ### Loads and prefetch (R189, R201, R202) -/

/-- The line of an address. -/
def lineOf (a : Dword) : Dword := dw (a.toNat / 64 * 64)

/-- A request for a line: the least recently used line makes room among 64. -/
def Walker.request (w : Walker) (line : Dword) (want : Option Dword) : Walker :=
  let room := 63 - w.fetches.length
  { w with fetches := w.fetches ++ [(line, want)], buf := w.buf.take room }

/-- The line is awaited. -/
def Walker.awaits (w : Walker) (line : Dword) : Bool := w.fetches.any (fun p => p.1 == line)

/-- LD (R201). On a miss the walker waits for the line. -/
def execWld (d a : WReg) (sz : BitVec 2) (imm : BitVec 16) (s : State) : Out :=
  walkExec s (fun cl _ w =>
    let addr := w.get a + imm.signExtend 64
    let n := 2 ^ sz.toNat
    let line := lineOf addr
    if fld addr 63 61 = 4 ∨ fld addr 63 61 = 5 then walkStop s cl 1 stRange addr
    else if addr.toNat % n ≠ 0 then walkStop s cl 1 stRange addr
    else
      match w.buf.find? (fun l => l.addr == line) with
      | some l =>
        let v := leNat ((l.data.drop (addr.toNat % 64)).take n)
        s.modWalker cl (fun _ =>
          { (w.set d (dw v)).advance (w.pc + 1) with buf := l :: w.buf.filter (fun x => x.addr != line) })
      | none =>
        if w.awaits line then
          s.modWalker cl (fun _ => { w with fetches := w.fetches.map (fun p => if p.1 = line then (line, some addr) else p) })
        else if 32 ≤ w.fetches.length then s
        else s.modWalker cl (fun _ => w.request line (some addr)))

/-- One line requested by PREF: not where it is held or awaited, nor beyond 32 outstanding. A PREF of a buffered line is no
use of it (R189), and a line under tag 100 is fetched from host memory as any other (R202): DESIGN CHOICE, log entry 93. -/
def Walker.prefetch (w : Walker) (line : Dword) : Walker :=
  if w.buf.any (fun l => l.addr == line) || w.awaits line || decide (32 ≤ w.fetches.length) then w
  else w.request line none

/-- PREF (R202). -/
def execWpref (d a : WReg) (imm : BitVec 16) (s : State) : Out :=
  walkExec s (fun cl _ w =>
    let first := lineOf (w.get a + imm.signExtend 64)
    let w2 := (List.range (d.toNat + 1)).foldl (fun w i => w.prefetch (first + dw (64 * i))) w
    s.modWalker cl (fun _ => w2.advance (w.pc + 1)))

/-- WALKER_LOAD_DATA (R201): a line awaited arrives in the read buffer, or fails; a failure stops the LD that waits for it
and leaves no trace of a prefetch. A line that arrives counts as used last (R189; DESIGN CHOICE, log entry 93). -/
def execWalkerLoadData (cl : ClusterId) (line : BitVec 64) (s : State) : Out :=
  match walkCmd s cl, (s.walker cl).fetches.find? (fun p => p.1 == line) with
  | some k, some (_, want) =>
    if accessHeld s (walkRequester s k.core k.launch) .read line 64 then eventNext s else
    let (s, r) := readingFrom (unseenMem s k) s (fun s => readAddr s (walkRequester s k.core k.launch) line 64)
    let s := s.modWalker cl (fun w => { w with fetches := w.fetches.filter (fun p => p.1 != line) })
    match r, want with
    | .ok bs, _ => .next (s.modWalker cl (fun w => { w with buf := ⟨line, bs⟩ :: w.buf }))
    | .error f, some a => .next (walkStop s cl 1 f.status a)
    | .error _, none => .next s
  | _, _ => eventNext s

/-! ### Writes (R206, R207) -/

/-- SideTarget(x): tag 011 of this cluster, or tag 111 (R207). -/
def sideTarget (cl : ClusterId) (k : Cmd) (x : Dword) : Bool :=
  fld x 63 61 == 7 || (fld x 63 61 == 3 && tagCluster x == cl) && clusterOf k.core == cl

/-- An output of n bytes overlaps an emission in flight: it must come after it (R207). DEDUCED: log entry 52. -/
def emissionMeets (k : Cmd) (l : List Emission) (x : Dword) (n : Nat) : Bool :=
  l.any (fun e => extentsMeet (resolveTag k.core e.dst) ((e.rows - 1) * e.drs + e.bytes) (resolveTag k.core x) n)

/-- WalkerWrite of some units of command c, in order: a unit that fails is not written, and the first failure is kept (R207). -/
def walkWrites (c : Nat) (q : Requester) : List (Dword × List Byte) → State × Option (Byte × Dword) → State × Option (Byte × Dword)
  | [], acc => acc
  | (a, bs) :: l, (s, f) =>
    match writeAddr s q a bs with
    | (t, none) => walkWrites c q l (t.noted s c (writtenKeys s q a bs.length), f)
    | (t, some e) => walkWrites c q l (t, match f with | some x => some x | none => some (e.status, a))

/-- An instruction that has written its output: where a unit failed, the walker stops with CAUSE 2 at that instruction. -/
def walkAfter (s : State) (cl : ClusterId) (old new : Walker) (fail : Option (Byte × Dword)) : State :=
  let s := s.modWalker cl (fun _ => new)
  match fail with
  | some (st, a) => walkFinish (s.modWalker cl (fun w => w.halt ⟨2, st, old.pc, old.get 15, a⟩)) cl
  | none => s

/-- The pairs of ISECT (R204). -/
def isectPairs (w : Walker) (a b cur : Dword) : List (Dword × List Byte) :=
  let c := a &&& b
  let bits := (List.range 64).filter (fun i => c.getLsbD i)
  bits.zipIdx.map (fun p =>
    let lo := (fld (w.get 13) 31 0 + popcBelow a p.1) % 2 ^ 32
    let hi := (fld (w.get 14) 31 0 + popcBelow b p.1) % 2 ^ 32
    (cur + dw (8 * p.2), leBytes 8 (hi * 2 ^ 32 + lo)))

/-- ISECT (R204). -/
def execIsect (d a b e : WReg) (s : State) : Out :=
  walkExec s (fun cl k w =>
    let va := w.get a
    let vb := w.get b
    let cur := w.get e
    let n := popc (va &&& vb)
    if cur.toNat % 8 ≠ 0 || !sideTarget cl k cur then walkStop s cl 2 stRange cur
    else if emissionMeets k w.emis cur (8 * n) || savedHeld s (walkRequester s k.core k.launch) cur (8 * n) then s
    else
      let (s, fail) := walkWrites k.id (walkRequester s k.core k.launch) (isectPairs w va vb cur) (s, none)
      let w1 := w.set 13 (w.get 13 + dw (popc va))
      let w2 := w1.set 14 (w1.get 14 + dw (popc vb))
      let w3 := (w2.set e (cur + dw (8 * n))).set d (dw n)
      walkAfter s cl w (w3.advance (w.pc + 1)) fail)

/-- The little-endian words of an array of pointers. -/
def ptrsOf (bs : List Byte) : List Nat := (wordsOf bs).map BitVec.toNat

/-- The pieces of an array that can be read, in order, and the first failure. -/
def readPrefix (s : State) (q : Requester) (a : Dword) : List (Nat × Nat) → State × List Byte × Option (Byte × Nat)
  | [] => (s, [], none)
  | (o, n) :: l =>
    match readAddr s q (a + dw o) n with
    | (s, .error f) => (s, [], some (f.status, o))
    | (s, .ok bs) =>
      let (s, r, f) := readPrefix s q a l
      (s, bs ++ r, f)

/-- The first entry below its predecessor. -/
def firstDescent : Nat → List Nat → Option Nat
  | i, x :: y :: l => if y < x then some (i + 1) else firstDescent (i + 1) (y :: l)
  | _, _ => none

/-- The splits of PART (R205). -/
def partSplits (p : List Nat) (nr np : Nat) : List Nat :=
  let p0 := p.headD 0
  let t := p.getD nr 0 - p0
  (List.range np).map (fun k =>
    ((List.range nr).find? (fun r => decide (k * t ≤ np * (p.getD r 0 - p0)))).getD nr) ++ [nr]

/-- PART (R205). -/
def execPart (d a b e : WReg) (s : State) : Out :=
  walkExec s (fun cl k w =>
    let va := w.get a
    let vb := w.get b
    let out := w.get e
    let np := fld vb 43 32 + 1
    let nr := fld vb 23 0 + 1
    if fld vb 63 44 ≠ 0 || fld vb 31 24 ≠ 0 || out.toNat % 4 ≠ 0 || !sideTarget cl k out then walkStop s cl 7 stRange 0
    else if va.toNat % 4 ≠ 0 || fld va 63 61 == 4 || fld va 63 61 == 5 then walkStop s cl 7 stRange va
    else if emissionMeets k w.emis out (4 * (np + 1)) || savedHeld s (walkRequester s k.core k.launch) out (4 * (np + 1))
    then s
    else
      let q := walkRequester s k.core k.launch
      if accessHeld s q .read va (4 * (nr + 1)) then s else
      let (s, bs, f) := readingFrom (unseenMem s k) s (fun s => readPrefix s q va (pieces va (4 * (nr + 1))))
      let p := ptrsOf bs
      let stop (st : Byte) (i : Nat) : State :=
        walkFinish (s.modWalker cl (fun w => w.halt ⟨7, st, w.pc, dw i, va + dw (4 * i)⟩)) cl
      match firstDescent 0 p, f with
      | some r, _ => stop stRange r
      | none, some (st, o) => stop st (o / 4)
      | none, none =>
        let l := (partSplits p nr np).zipIdx.map (fun x => (out + dw (4 * x.2), leBytes 4 x.1))
        let (s, fail) := walkWrites k.id q l (s, none)
        walkAfter s cl w ((w.set d (dw (p.getD nr 0 - p.headD 0))).advance (w.pc + 1)) fail)

/-! ### Emissions (R206 to R208) -/

/-- EMIT and EMITZ: the checks, then the emission starts; a fifth waits. DEDUCED: log entry 57. -/
def walkEmit (d : WReg) (src : Option WReg) (b e : WReg) (cr : Bool) (s : State) : Out :=
  walkExec s (fun cl k w =>
    let dst := w.get d
    let sa := (src.map w.get).getD 0
    let vb := w.get b
    let rows := fld vb 43 32 + 1
    let n := fld vb 19 0 + 1
    let drs := fld (w.get e) 63 32
    let srs := fld (w.get e) 31 0
    if fld vb 63 44 ≠ 0 || fld vb 31 20 ≠ 0 || (dst.toNat ||| sa.toNat ||| n ||| drs ||| srs) % 4 ≠ 0
        || 2 ^ 20 < rows * n || (1 < rows && drs < n) || fld sa 63 61 == 4 || fld sa 63 61 == 5 || !sideTarget cl k dst
    then walkStop s cl 2 stRange 0
    else if 4 ≤ w.emis.length then s
    else
      let em : Emission :=
        { id := w.nextEm
          dst := dst
          src := src.map w.get
          rows := rows
          bytes := n
          drs := drs
          srs := srs
          credit := if cr then rows * n else 0
          pc := w.pc
          elem := w.get 15 }
      s.modWalker cl (fun _ => { w.advance (w.pc + 1) with emis := w.emis ++ [em], nextEm := w.nextEm + 1 }))

/-- EMIT (R206). -/
def execEmit (d a b e : WReg) (cr : Bool) (s : State) : Out := walkEmit d (some a) b e cr s
/-- EMITZ (R206): it uses no source address. DEDUCED: log entry 57. -/
def execEmitz (d b e : WReg) (cr : Bool) (s : State) : Out := walkEmit d none b e cr s

/-- The lines of an emission in order. -/
def Emission.lines (m : Emission) : List Seg :=
  (List.range m.rows).flatMap (fun r =>
    let d := m.dst + dw (r * m.drs)
    (List.range (blockCount d m.bytes)).map (fun b =>
      let j := blockStart d b
      let n := blockLen d m.bytes b
      let src := match m.src with
        | some a => SegSrc.addr (a + dw (r * m.srs + j))
        | none => .data (List.replicate n 0)
      ⟨d + dw j, src, n⟩))

/-- The lines of an emission of a command written, and the first failure. -/
def emitLines (k : Cmd) (q : Requester) : List Seg → State × Option (Byte × Dword) → State × Option (Byte × Dword)
  | [], acc => acc
  | g :: l, (s, f) =>
    match doLine (unseenMem s k) s q [g] with
    | (t, none) => emitLines k q l (t.noted s k.id (writtenKeys s q g.dst g.n), f)
    | (t, some (e, a)) => emitLines k q l (t, match f with | some x => some x | none => some (e.status, a))

/-- Bytes credited by a running command under BAR, 0 of them too; a discarded credit is remembered (R208). -/
def walkCredit (s : State) (cl : ClusterId) (k : Cmd) (n : Nat) : State :=
  if k.bar then
    let (s, stale) := slotCredit s cl k.core k.slot k.gen k.launch n
    if stale then s.modWalker cl (fun w => { w with stale := true }) else s
  else s

/-- WALKER_EMISSION_COMPLETE (R208): the lines of an emission are written, its bytes credited; its first failure stops the
walker. An emission waits for earlier ones that it overlaps (R207). -/
def execWalkerEmissionComplete (cl : ClusterId) (n : Nat) (s : State) : Out :=
  match walkCmd s cl, (s.walker cl).emis.find? (fun m => m.id == n) with
  | some k, some m =>
    if emissionMeets k ((s.walker cl).emis.takeWhile (fun e => e.id != n)) m.dst ((m.rows - 1) * m.drs + m.bytes)
    then eventNext s
    else if lineHeld s (walkRequester s k.core k.launch) m.lines then eventNext s
    else
      let (s, f) := emitLines k (walkRequester s k.core k.launch) m.lines (s, none)
      let s := if m.credit = 0 then s else walkCredit s cl k m.credit
      let s := s.modWalker cl (fun w => { w with emis := w.emis.filter (fun e => e.id != n) })
      let s := match f with
        | some (st, a) => s.modWalker cl (fun w => w.halt ⟨2, st, m.pc, m.elem, a⟩)
        | none => s
      .next (walkFinish s cl)
  | _, _ => eventNext s

/-- SIGB (R208): once every earlier emission is complete, w[A] mod 2^32 bytes are credited. -/
def execSigb (a : WReg) (s : State) : Out :=
  walkExec s (fun cl k w =>
    if !w.emis.isEmpty then s
    else (walkCredit s cl k (fld (w.get a) 31 0)).modWalker cl (fun w => w.advance (w.pc + 1)))

/-- END (R208, R209): it waits for the emissions in flight. DEDUCED: log entry 57. -/
def execWend (s : State) : Out :=
  walkExec s (fun cl _ w =>
    if !w.emis.isEmpty then s else walkStop s cl 0 (if w.stale then stStale else stOk) 0)

/-- ILLEGAL_WALKER_WORD (R197): CAUSE 3. -/
def execIllegalWalkerWord (cl : ClusterId) (s : State) : Out :=
  let w := s.walker cl
  match walkCmd s cl, w.prog[w.pc]? with
  | some _, some x => if (decodeWalker x).isSome then eventNext s else .next (walkStop s cl 3 stRange 0)
  | _, _ => eventNext s

/-- WALKER_INSTRUCTION_LIMIT (R195): CAUSE 5 once 2^32 instructions have been executed. -/
def execWalkerInstructionLimit (cl : ClusterId) (s : State) : Out :=
  match walkCmd s cl with
  | some _ => if 2 ^ 32 ≤ (s.walker cl).count then .next (walkStop s cl 5 stRange 0) else eventNext s
  | none => eventNext s

/-- Execution ran past the last word: CAUSE 4, and PC names the last word (R195, R200). -/
def walkOffEnd (s : State) (cl : ClusterId) : State :=
  walkFinish (s.modWalker cl (fun w => w.halt ⟨4, stRange, w.pc - 1, w.get 15, 0⟩)) cl

/-! ### The start of a command (R188, R193) -/

/-- The words of an image, as the command observes them (R148). -/
def loadProgram (s : State) (k : Cmd) : State × Except (Byte × Dword) (List Byte) :=
  readingFrom (unseenMem s k) s (fun s => readLines s (walkRequester s k.core k.launch) (k.op 0) (pieces (k.op 0) (4 * k.nwords)))

/-- The image a command runs: the resident one where it may be kept, or one loaded now. -/
def walkImage (s : State) (k : Cmd) (keep : Bool) (old : List Word) : State × Except (Byte × Dword) (List Word) :=
  if keep then (s, .ok old)
  else
    match loadProgram s k with
    | (s, .ok bs) => (s, .ok (wordsOf bs))
    | (s, .error e) => (s, .error e)

/-- The registers of a command that starts: its argument block in w1 to w8, w9 to w15 zero. -/
def argRegs (bs : List Byte) : Vector Dword 16 :=
  Vector.ofFn (fun i : Fin 16 => if i.val = 0 ∨ 8 < i.val then 0 else bytesDw bs (i.val - 1))

/-- A byte of a core's side memory as a level-qualified address (R121, R122). -/
def sideLqa (g : CoreId) (off : Nat) : Dword := resolveTag g (dw (7 * 2 ^ 61 + off))

/-- A command starts in the walker: its registers, or those it was stopped with (R193, R418). Where the argument block cannot
be read, the record names ENTRY and the address of the block (R194; DESIGN CHOICE, log entry 38). -/
def walkBegin (s : State) (cl : ClusterId) (k : Cmd) (res : Option SavedWalk) : State :=
  let pl := cmdPlace s k k.argsOff
  match res with
  | some r => s.modWalker cl (fun w => { w with w := r.w, pc := r.pc, count := r.count, stale := r.stale })
  | none =>
    if readFails s pl 64 then
      walkFinish (s.modWalker cl (fun w =>
        w.halt ⟨Config.argumentCause k.id, stUncorrectable, k.entry, w.get 15, sideLqa k.core (cmdBase s k + k.argsOff)⟩)) cl
    else s.modWalker cl (fun w => { w with w := argRegs (seenBytes s k pl 64) })

/-- The first command of a walker's queue that a pre-emption has not stopped (R418). -/
def walkHead (s : State) (w : Walker) : Option Cmd :=
  w.queue.findSome? (fun c =>
    match s.cmd? c with
    | some k => if cmdStopped s k then none else some k
    | none => none)

/-- WALKER_COMMAND_START (R193): the head of the queue starts when no command runs. A walk that a pre-emption stopped takes its saved
registers once its program is loaded: where the load fails, ELEM and RESULT are of the registers as the walker has them
(R195, R418; DESIGN CHOICE, log entry 38). -/
def execWalkerCommandStart (cl : ClusterId) (s : State) : Out :=
  let w := s.walker cl
  match w.cmd, walkHead s w with
  | none, some k =>
    let res := w.resume.find? (fun r => r.cmd == k.id)
    let tag := ((walkRequester s k.core k.launch).asid, k.op 0, k.nwords)
    let keep := w.tag == some tag && !k.reload
    if !keep && accessHeld s (walkRequester s k.core k.launch) .read (k.op 0) (4 * k.nwords) then eventNext s else
    let s := s.modWalker cl (fun w => { w.idle with
      cmd := some k.id
      queue := w.queue.filter (fun c => c != k.id)
      resume := w.resume.filter (fun r => r.cmd != k.id)
      pc := k.entry
      count := 0 })
    let (s, r) := walkImage s k keep w.prog
    match r with
    | .error (st, a) =>
      .next (walkFinish (s.modWalker cl (fun w =>
        { w with tag := none, prog := [] }.halt ⟨6, st, k.entry, w.get 15, a⟩)) cl)
    | .ok p => .next (walkBegin (s.modWalker cl (fun w => { w with tag := some tag, prog := p })) cl k res)
  | _, _ => eventNext s

/-! ### WKST (R190 to R192) -/

/-- The status record may be written: it is aligned, lies in the window, and does not overlap the argument block (R191;
DESIGN CHOICE, log entry 94). -/
def walkStatOk (k : Cmd) (wsize : Nat) : Bool :=
  k.walkStat % 32 == 0 && decide (k.walkStat + 32 ≤ wsize) && !rangesMeet k.argsOff 64 k.walkStat 32

/-- The checks of R191. -/
def walkCheck (k : Cmd) (wsize : Nat) : Option Byte :=
  let tag := fld (k.op 0) 63 61
  let reserved := fld (k.op 1) 63 44 ≠ 0 || fld (k.op 1) 31 20 ≠ 0 || fld (k.op 2) 63 62 ≠ 0 || fld (k.op 2) 55 12 ≠ 0
    || fld (k.op 3) 63 20 ≠ 0
  if reserved || !(tag == 0 || tag == 1 || tag == 2 || tag == 6) || fld (k.op 0) 5 0 ≠ 0 || k.argsOff % 64 ≠ 0
      || k.nwords ≤ k.entry || wsize < k.argsOff + 64 || !walkStatOk k wsize then some stRange
  else none

/-- A walk's request and its failed check. -/
def walkRequest (i : Instr) (a : Reg) (c : Ctx) : CmdReq × Option Byte :=
  let q : CmdReq := ⟨.wk, i, c.group a, 0, [], []⟩
  let k := c.command q
  match walkCheck k c.band.wsize with
  | some st => (q, some st)
  | none =>
    let b := c.band.wbase
    ({ q with sb := [wideRange c.r.core false (b + k.argsOff) (b + k.argsOff + 64),
        wideRange c.r.core true (b + k.walkStat) (b + k.walkStat + 32)] }, none)

/-- What a command that fails its checks leaves: its record where that may be written, and a fault release (R191). -/
def walkReject (s : State) (k : Cmd) (wsize : Nat) : State :=
  let s := if walkStatOk k wsize
    then placeWrite s (cmdPlace s k k.walkStat)
      (walkRecord 0 8 stRange (Config.rejectedWalk k.id 1) 0 (Config.rejectedWalk k.id 3)) else s
  if k.bar then slotFault s (clusterOf k.core) k.core k.slot k.gen k.launch stRange else s

/-- A row waits at a WKST for the queue or the scoreboard. -/
def Row.waitsToWalk (x : Row) : Bool :=
  x.ctl.trap.isNone && x.ctl.wait.any (fun w => w.reason == 10 || w.reason == 7)
    && (match x.ibuf.map decodeRow with
      | some (.ok (.wkst ..)) => true
      | _ => false)

/-- The rows of a core that wait to enter the walker queue, in the order in which they began (R192).
DEDUCED: log entry 52. -/
def walkWaiters (s : State) (g : CoreId) : List RowId :=
  (s.core g).walkQ.filter (fun r =>
    match s.row? r with
    | some x => x.waitsToWalk
    | none => false)

/-- Another row of the core began to wait for the walker queue earlier. -/
def walkBehind (s : State) (r : RowId) : Bool :=
  match (walkWaiters s r.core).head? with
  | some q => q != r
  | none => false

/-- The state with a row among those that wait to enter the walker queue of its core, where it is not among them. -/
def queueWalk (s : State) (r : RowId) : State :=
  s.modCore r.core (fun k => { k with
    walkQ := if (walkWaiters s r.core).contains r then k.walkQ else (k.walkQ.filter (fun q => q != r)) ++ [r] })

/-- WKST (R190): a row keeps its place among the waiting ones as long as it waits at the WKST (R192). -/
def execWkst (d a : Reg) (rl bar : Bool) (s : State) : Out :=
  issue s accSchd (fSca d) (fSca a) fNone (fun c => do
    c.needGroup a 4
    c.needLead
    c.needSDst c.d
    if !classRoom c.s c.band .wk || walkBehind c.s c.r then
      .ok (.hold (queueWalk c.s c.r) 10 .v)
    else
      let q := c.command ⟨.wk, .wkst d a rl bar, c.group a, 0, [], []⟩
      let s := c.s.modCore c.r.core (fun k => { k with walkQ := k.walkQ.filter (fun q => q != c.r) })
      let u := { c with s := s }
      match walkCheck q c.band.wsize, u.engineIssue .wk (walkRequest (.wkst d a rl bar) a) false
          (fun s k => s.modWalker c.cluster (fun w => { w with queue := w.queue ++ [k.id] })) with
      | some _, .ok (.done t) => .ok (.done (walkReject t q c.band.wsize))
      | _, .error (.wait 7 dom) => .ok (.hold (queueWalk c.s c.r) 7 dom)
      | _, r => r)

end Sys2Proof.Machine
end

