-- ==== Sys2Proof/Machine/Monitor.lean ====
section
/-! DEFINITION. The core monitor: selectors, KRDR, KWRR, KRSM, KKIL, KRET, the dispatch of traps, and the debug commands
(R399, R404 to R414, R448). -/
namespace Sys2Proof.Machine

/-! ### Selectors (R409 to R411) -/

/-- A selector. -/
structure Sel where
  space : Nat
  row : RowId
  index : Nat
  reserved : Bool
  deriving DecidableEq, Repr

/-- The selector in a register, for the rows of a core. -/
def selOf (g : CoreId) (v : Dword) : Sel :=
  ⟨fld v 51 48, ⟨g, v.extractLsb' 46 2, v.extractLsb' 39 7⟩, fld v 19 0, fld v 63 52 != 0 || fld v 38 20 != 0⟩

/-- The selector base of a row (R407). -/
def selBase (r : RowId) : Dword := dw (r.pane.toNat * 2 ^ 46 + r.prow.toNat * 2 ^ 39)

/-- What an access of an item comes to: a value or a new state, a rejected selector, a wait for the scoreboard, or an
uncorrectable word. -/
inductive Item (α : Type)
  | ok (v : α)
  | rejected
  | waits
  | bad

/-- The pending hint bits of a row (R410). -/
def hintBits (h : Hints) : Nat :=
  b2n h.imx1.isSome + 2 * b2n h.imx2.isSome + 4 * b2n h.rep.isSome + 8 * b2n h.modp.isSome + 16 * b2n h.schd.isSome

/-- The hints that remain where a 0 bit clears one. -/
def keepHints (h : Hints) (v : Dword) : Hints :=
  let f (o : Option (BitVec 24)) (i : Nat) : Option (BitVec 24) := if tst v i then o else none
  ⟨f h.imx1 0, f h.imx2 1, f h.rep 2, f h.modp 3, f h.schd 4⟩

/-- The 4 bytes at a window offset of a row as the monitor reaches them: past the window, waiting, uncorrectable, or the
key (R410, R411). -/
def sideItem (s : State) (r : RowId) (b : Band) (off : Nat) (write : Bool) : Item Nat :=
  let c := b.wbase + off
  if b.wsize < off + 4 then .rejected
  else if (sbBlocker s r.core c (c + 4) write).isSome then .waits
  else if !(badWordsIn s (sideKey r.core.toNat c) 4).isEmpty then .bad
  else .ok (sideKey r.core.toNat c)

/-- An item read (R410). The row's posted writes have been performed where the item is memory. A vector, scalar or accumulator item
that holds a parity error is read as it stands (R404; DEDUCED, log entry 34). -/
def readItem (s : State) (r : RowId) (x : Row) (b : Band) (k : Sel) : Item Dword :=
  let i := k.index
  let lane := i % 64
  match k.space with
  | 0 => if 2 ^ 13 ≤ i ∨ i / 64 % 4 ≠ 0 ∨ 28 ≤ i / 256 ∨ b.laneW ≤ lane then .rejected
      else .ok ((laneAt (x.vget (BitVec.ofNat 5 (i / 256))) lane).setWidth 64)
  | 1 => if 32 ≤ i then .rejected else .ok (x.sget (BitVec.ofNat 5 i))
  | 2 => if 8 ≤ i then .rejected else .ok (x.mget (BitVec.ofNat 3 i))
  | 3 => if 2 ^ 12 ≤ i ∨ csrListed (BitVec.ofNat 12 i) = false then .rejected
      else .ok (csrValue s r x b (BitVec.ofNat 12 i))
  | 4 =>
    match i with
    | 0 => .ok x.pc
    | 1 => .ok (x.ctl.trap.elim 0 (fun t => t.targ))
    | 2 => .ok (x.ctl.trap.elim 0 (fun t => t.word.setWidth 64))
    | 3 => .ok (dw (hintBits x.hints))
    | _ => .rejected
  | 5 =>
    match sideItem s r b i false with
    | .ok key => .ok (dw (leNat (memRead s.mem key 4)))
    | .rejected => .rejected
    | .waits => .waits
    | .bad => .bad
  | 6 =>
    if 2 ^ 10 ≤ i ∨ i / 64 % 4 ≠ 0 ∨ 3 ≤ i / 256 ∨ b.laneW ≤ lane then .rejected
    else
      match i / 256 with
      | 0 => .ok ((laneAt x.mx.p lane).setWidth 64)
      | 1 => .ok ((laneAt x.mx.a lane).setWidth 64)
      | _ => .ok (x.mx.w[lane]?.getD 0)
  | _ => .rejected

/-- A lane of a vector of words replaced. -/
def putLane (v : Lanes) (i : Nat) (w : Word) : Lanes := if h : i < 64 then v.set i w h else v

/-- The row at a new PC: the word it had fetched, and what that word waited for, are gone. -/
def Row.atPc (x : Row) (pc : Dword) : Row :=
  { x with pc := pc, ibuf := none, ctl := { x.ctl with barrier := none, lnch := none, evsig := none, wait := none } }

/-- An item written (R410): what replaces a lane with a parity error is sound (R404). -/
def writeItem (s : State) (r : RowId) (x : Row) (b : Band) (k : Sel) (v : Dword) : Item State :=
  let i := k.index
  let lane := i % 64
  let w : Word := v.setWidth 32
  let put (y : Row) : Item State := .ok (s.setRow r y)
  match k.space with
  | 0 => if 2 ^ 13 ≤ i ∨ i / 64 % 4 ≠ 0 ∨ 28 ≤ i / 256 ∨ b.laneW ≤ lane then .rejected
      else put (x.vset (BitVec.ofNat 5 (i / 256)) (1#64 <<< lane) (putLane zeroLanes lane w))
  | 1 => if 32 ≤ i then .rejected else put (x.sset (BitVec.ofNat 5 i) v)
  | 2 => if 8 ≤ i then .rejected
      else
        let m := BitVec.ofNat 3 i
        put (x.mset m ((v &&& laneMask b.laneW) ||| (x.mget m &&& ~~~laneMask b.laneW)))
  | 3 => if 2 ^ 12 ≤ i ∨ csrListed (BitVec.ofNat 12 i) = false then .rejected
      else .ok (csrWrite s r x b (BitVec.ofNat 12 i) v)
  | 4 =>
    match i with
    | 0 => if v.extractLsb' 0 2 ≠ 0 then .rejected else put (x.atPc v)
    | 3 => put { x with hints := keepHints x.hints v }
    | _ => .rejected
  | 5 =>
    match sideItem s r b i true with
    | .ok key => .ok { s with mem := memWrite s.mem key (leBytes 4 w.toNat) }
    | .rejected => .rejected
    | .waits => .waits
    | .bad => .bad
  | 6 =>
    if 2 ^ 10 ≤ i ∨ i / 64 % 4 ≠ 0 ∨ 3 ≤ i / 256 ∨ b.laneW ≤ lane then .rejected
    else
      match i / 256 with
      | 0 => put { x with mx := { x.mx with p := putLane x.mx.p lane w, pbad := x.mx.pbad &&& ~~~(1#64 <<< lane) } }
      | 1 => put { x with mx := { x.mx with a := putLane x.mx.a lane w, abad := x.mx.abad &&& ~~~(1#64 <<< lane) } }
      | _ => put { x with mx := { x.mx with
          w := if h : lane < 64 then x.mx.w.set lane v h else x.mx.w
          wbad := x.mx.wbad &&& ~~~(1#64 <<< lane) } }
  | _ => .rejected

/-- An access of a row's item waits: of memory, while a range holds back an earlier write of the row, after which it comes in
program order (R161, R332); of a floating-point CSR, for the row's flag-raising instructions (R100, R410). -/
def itemWaits (s : State) (x : Row) (k : Sel) : Bool :=
  (k.space == 5 && (postedHold s x).isSome) || (k.space == 3 && csrWaits x (BitVec.ofNat 12 k.index))

/-- What an access of an item comes to, where it may have to wait first. -/
def Item.after {α : Type} (waits : Bool) : Item α → Item α
  | .rejected => .rejected
  | i => if waits then .waits else i

/-- The row that a selector names, its posted writes performed where its memory is named and nothing holds one of them; none
where the selector is rejected: a reserved bit, no leased row, or in handler mode another row than the trapped one (R411).
DEDUCED: log entry 85. -/
def selRow (s : State) (g : CoreId) (k : Sel) (handler : Bool) : Option (State × Row × Band) :=
  if k.reserved || (handler && (s.core g).mon.row != some k.row) then none
  else
    let s := if k.space = 5 && (s.row? k.row).all (fun x => (postedHold s x).isNone) then flushPosted s k.row else s
    match s.row? k.row with
    | none => none
    | some x => (s.band? x.band).map (fun b => (s, x, b))

/-- KRDR's access (R410, R411). -/
def krdrItem (s : State) (g : CoreId) (v : Dword) (handler : Bool) : Item (State × Dword) :=
  match selRow s g (selOf g v) handler with
  | none => .rejected
  | some (s, x, b) =>
    match (readItem s (selOf g v).row x b (selOf g v)).after (itemWaits s x (selOf g v)) with
    | .ok d => .ok (s, d)
    | .rejected => .rejected
    | .waits => .waits
    | .bad => .bad

/-- KWRR's access (R410, R411). -/
def kwrrItem (s : State) (g : CoreId) (v d : Dword) (handler : Bool) : Item State :=
  match selRow s g (selOf g v) handler with
  | none => .rejected
  | some (s, x, b) => (writeItem s (selOf g v).row x b (selOf g v) d).after (itemWaits s x (selOf g v))

/-! ### KRSM and KKIL (R412, R413) -/

/-- The trap of a row steps past its word when it is resumed: SKIP, USER_TRAP, or BREAKPOINT by BKPT. -/
def resumeSkips (t : TrapRec) (skip : Bool) : Bool := skip || t.cause == 0x14 || (t.cause == 0x0E && t.detail == 0)

/-- A trapped row resumed. -/
def resumeRow (s : State) (r : RowId) (x : Row) (t : TrapRec) (skip : Bool) : State :=
  let y := if resumeSkips t skip then nextWord (x.atPc x.pc) (x.pc + 4) else x
  untrap (s.setRow r { y with ctl := { y.ctl with exempt := true, debugHeld := false, wait := none } }) r

/-- KRSM's selector is well formed. -/
def krsmOk (k : Sel) : Bool := !k.reserved && k.space == 0 && decide (k.index ≤ 1)
/-- KKIL's selector is well formed. -/
def kkilOk (k : Sel) : Bool := !k.reserved && k.space == 0 && k.index == 0

/-- KRSM of a row (R404, R412): none where it acts as KRET. -/
def krsmRow (s : State) (k : Sel) : Option State :=
  match s.row? k.row with
  | none => some s
  | some x =>
    match x.ctl.trap with
    | none => some s
    | some t => if t.cause = 0x16 then none else some (resumeRow s k.row x t (k.index = 1))

/-- The band of a row ended as by KKIL. -/
def kkilRow (s : State) (r : RowId) : State :=
  match s.row? r with
  | some x =>
    match s.band? x.band with
    | some b => killUnit s b
    | none => s
  | none => s

/-! ### The instructions -/

/-- A 0xEF word: of a row it traps with PRIVILEGE (R58 step 3, R273), of the monitor it acts. -/
def monOnly (s : State) (f : CoreId → Monitor → Out) : Out :=
  match s.active with
  | .monitor g =>
    let m := (s.core g).mon
    if m.imx1.isSome || m.imx2.isSome then monReject s g else f g m
  | .row r =>
    match s.row? r with
    | some x => applyAct r s x (.stop privilege)
    | none => .fault .noActiveAgent
  | _ => .fault .noActiveAgent

/-- The monitor's mode is handler mode. -/
def Monitor.handles (m : Monitor) : Bool := m.mode == .handler

/-- The monitor goes on to its next word. -/
def monNext (s : State) (g : CoreId) : State := s.modMon g (fun m => m.advance (m.pc + 4))

/-- KRDR (R411). -/
def execKrdr (d a : Reg) (s : State) : Out :=
  monOnly s (fun g m =>
    let put (s : State) (v : Dword) : Out := .next (s.modMon g (fun m => (m.sset d v).advance (m.pc + 4)))
    match krdrItem s g (m.sget a) m.handles with
    | .ok (s, v) => put s v
    | .waits => .next s
    | .rejected | .bad => if m.handles then monReject s g else put s (BitVec.allOnes 64))

/-- KWRR (R403, R411). -/
def execKwrr (a b : Reg) (s : State) : Out :=
  monOnly s (fun g m =>
    match kwrrItem s g (m.sget a) (m.sget b) m.handles with
    | .ok s => .next (monNext s g)
    | .waits => .next s
    | .rejected | .bad => if m.handles then monReject s g else .next (monNext s g))

/-- KRSM (R412). -/
def execKrsm (a : Reg) (s : State) : Out :=
  monOnly s (fun g m =>
    let k := selOf g (m.sget a)
    if m.handles then
      if !krsmOk k || m.row != some k.row then monReject s g
      else
        match krsmRow s k with
        | some t => .next (monIdle t g)
        | none => .next (monRet s g)
    else if !krsmOk k then .next (monNext s g)
    else
      match krsmRow s k with
      | some t => .next (monNext t g)
      | none => .next (monRet s g))

/-- KKIL (R413). -/
def execKkil (a : Reg) (s : State) : Out :=
  monOnly s (fun g m =>
    let k := selOf g (m.sget a)
    if m.handles then
      if !kkilOk k || m.row != some k.row then monReject s g
      else .next (kkilRow (monIdle s g) k.row)
    else if !kkilOk k then .next (monNext s g)
    else .next (kkilRow (monNext s g) k.row))

/-- KRET (R414). -/
def execKret (s : State) : Out := monOnly s (fun g _ => .next (monRet s g))

/-! ### Dispatch (R399, R406, R407) -/

/-- A trap that a debugger has claimed (R448). -/
def debugClaims (s : State) (r : RowId) (b : Band) (t : TrapRec) : Bool :=
  let c := (s.core r.core).dbg.dclaim
  (t.cause == 0x0E || t.cause == 0x0F) && tst c 0 && decide (fld c 6 1 = (s.bandAsid b).toNat)

/-- The monitor at the first word of a user handler (R407). -/
def handlerStart (r : RowId) (x : Row) (t : TrapRec) (pc : Dword) : Monitor :=
  let z : Vector Dword 32 := Vector.replicate 32 0
  { mode := .handler
    pc := pc
    s := (((z.set 1 t.info).set 2 t.targ).set 3 (selBase r)).set 4 x.pc
    imx1 := none
    imx2 := none
    count := 0
    row := some r }

/-- The next trapped row of a core that the monitor takes: those left to a debugger, and those of a unit being
pre-empted, are passed over (R406, R419). -/
def nextTrapped (s : State) (g : CoreId) : Option RowId :=
  (s.core g).trapQ.find? (fun r =>
    match s.row? r with
    | some x => !x.ctl.debugHeld && !preempting s x
    | none => false)

/-- MONITOR_TRAP_DISPATCH (R406). -/
def execMonitorTrapDispatch (g : CoreId) (s : State) : Out :=
  if (s.core g).mon.mode != .idle then eventNext s
  else
    match nextTrapped s g with
    | none => eventNext s
    | some r =>
      match s.row? r with
      | none => eventNext s
      | some x =>
        match x.ctl.trap, s.band? x.band with
        | some t, some b =>
          if debugClaims s r b t then .next (s.setRow r { x with ctl := { x.ctl with debugHeld := true } })
          else
            let h := (s.launch? b.launch).elim 0 Launch.handler
            if t.cause != 0x16 && h != 0 then .next (s.modMon g (fun _ => handlerStart r x t h))
            else .next (defaultAction s r)
        | _, _ => eventNext s

/-- The instructions of one handler run (R408). -/
def handlerLimit : Nat := 2 ^ 20

/-- HANDLER_INSTRUCTION_LIMIT (R408): the 2^20th instruction of a run is a handler fault. -/
def execHandlerInstructionLimit (g : CoreId) (s : State) : Out :=
  let m := (s.core g).mon
  if m.handles && decide (handlerLimit ≤ m.count + 1) then .next (monRet s g) else eventNext s

/-! ### Debug commands (R448) -/

/-- The debug block of a core changed. -/
def State.modDbg (s : State) (g : CoreId) (f : Debug → Debug) : State := s.modCore g (fun k => { k with dbg := f k.dbg })

/-- A debug command of a code pending on a core is done. -/
def dbgDone (s : State) (g : CoreId) (rej : Bool) : State :=
  s.modDbg g (fun d => { d with dcmd := none, rej := rej })

/-- A debug command runs where its code is pending. DEDUCED: log entry 74. -/
def dbgRun (s : State) (g : CoreId) (code : BitVec 2) (f : Dword → Out) : Out :=
  if (s.core g).dbg.dcmd = some code then f (s.core g).dbg.dsel else eventNext s

/-- DCMD_KRDR (R448): the value goes to DDATA. -/
def execDcmdKrdr (g : CoreId) (s : State) : Out :=
  dbgRun s g 0 (fun v =>
    match krdrItem s g v false with
    | .ok (s, d) => .next (dbgDone (s.modDbg g (fun k => { k with ddata := d })) g false)
    | .waits => .next s
    | .rejected | .bad => .next (dbgDone (s.modDbg g (fun k => { k with ddata := BitVec.allOnes 64 })) g true))

/-- DCMD_KWRR (R448). -/
def execDcmdKwrr (g : CoreId) (s : State) : Out :=
  dbgRun s g 1 (fun v =>
    match kwrrItem s g v (s.core g).dbg.ddata false with
    | .ok s => .next (dbgDone s g false)
    | .waits => .next s
    | .bad => .next (dbgDone s g false)
    | .rejected => .next (dbgDone s g true))

/-- DCMD_KRSM (R448): of a row with PARITY it acts as KRET, and the band ends under R406 (R404).
DEDUCED: log entry 74. -/
def execDcmdKrsm (g : CoreId) (s : State) : Out :=
  dbgRun s g 2 (fun v =>
    let k := selOf g v
    if !krsmOk k || (s.row? k.row).isNone then .next (dbgDone s g true)
    else
      match krsmRow s k with
      | some t => .next (dbgDone t g false)
      | none => .next (dbgDone (defaultAction s k.row) g false))

/-- DCMD_KKIL (R448). -/
def execDcmdKkil (g : CoreId) (s : State) : Out :=
  dbgRun s g 3 (fun v =>
    let k := selOf g v
    if !kkilOk k || (s.row? k.row).isNone then .next (dbgDone s g true)
    else .next (dbgDone (kkilRow s k.row) g false))

end Sys2Proof.Machine
end

