-- ==== Sys2Proof/Machine/Complete.lean ====
section
/-! DEFINITION. Events of a row and its core: producers, posted writes, ports, YIELD, watchdogs, fetches and illegal words,
PC samples (R58, R99, R100, R222, R239, R268, R270, R302, R394, R395, R403, R449). -/
namespace Sys2Proof.Machine

/-! ### Producers (R221, R222) -/

/-- The row with a producer's destination written and full, and its flags raised (R40, R100). -/
def Row.finish (x : Row) (p : Producer) : Row :=
  let y : Row := match p.dest with
    | .vec d k v => (x.vset d k v).markV d true
    | .sca d v => (x.sset d v).markS d true
  if p.fold then y.fold p.fl else y.raise p.fl

/-- A PARITY condition reported to a row: due at its next boundary, or a trap at the EXIT it has executed (R403). Of a posted
write of a row whose band is being pre-empted, it ends the unit; of a producer, it is kept (R419). DEDUCED: log entry 34. -/
def reportParity (s : State) (r : RowId) (x : Row) (posted : Bool) (t : Option Dword) : State :=
  match t with
  | none => s.setRow r x
  | some a =>
    if posted && preempting s x then endByParity s r x 6 a
    else if x.status = .exited ∧ x.ctl.trap = none then takeTrap s r x 0x16 6 0 a
    else s.setRow r (x.dueParity (some a))

/-- A range holds back a step of a row's atomics (R161). -/
def stepsHeld (s : State) (r : RowId) : Bool :=
  match s.row? r with
  | none => false
  | some x => (wordsHold s x.stepWords).isSome

/-- The steps of a row's atomics made, and a failure reported (R240, R403). -/
def endSteps (s : State) (r : RowId) : State :=
  match s.row? r with
  | none => s
  | some x => let (t, ps, bad) := finishAtoms s x.prods; reportParity t r { x with prods := ps } false bad

/-- PRODUCER_COMPLETE (R221): producer n of a row completes, whatever holds the row (R222); the steps of the row's atomics
have been made (R240), unless a range holds one back (R161). DESIGN CHOICE: log entry 21. -/
def execProducerComplete (r : RowId) (n : Nat) (s : State) : Out :=
  if stepsHeld s r then eventNext s else
  let s := endSteps s r
  match s.row? r with
  | none => eventNext s
  | some x =>
    match x.prods[n]? with
    | none => eventNext s
    | some p =>
      let y := { x with prods := x.prods.eraseIdx n }.finish p
      let t := reportParity s r y false p.parity
      .next (if x.status = .exited then sweepBands (dropIfDone t r) else t)

/-- The next step of a row's atomics made, with a failure: the first step left of its oldest producer that has one (R240); none
while a range holds it back (R161). DESIGN CHOICE: log entry 86. -/
def stepFirst (s : State) : List Producer → State × List Producer × Option Dword
  | [] => (s, [], none)
  | p :: ps =>
    match p.todo with
    | t :: l =>
      if (wordHold s t.word).isSome then (s, p :: ps, none)
      else let (s, q, a) := stepAtom s p t; (s, { q with todo := l } :: ps, a)
    | [] => let (s, qs, a) := stepFirst s ps; (s, p :: qs, a)

/-- A turn of a row's atomic: one step, indivisible (R240). DESIGN CHOICE: log entry 86. -/
def atomTurn (s : State) (r : RowId) : State :=
  match s.row? r with
  | none => s
  | some x => let (t, ps, bad) := stepFirst s x.prods; reportParity t r { x with prods := ps } false bad

/-- A lane of a posted write is held back (R161, R351). -/
def Posted.blocked (s : State) (p : Posted) : Bool := (wordsHold s p.words).isSome

/-- REMOTE_WRITE_PERFORM (R239): the oldest posted write of a row is performed, once no range at its target holds it back
(R161). -/
def execRemoteWritePerform (r : RowId) (s : State) : Out :=
  match s.row? r with
  | none => eventNext s
  | some x =>
    match x.posted with
    | [] => eventNext s
    | p :: l =>
      if p.blocked s then eventNext s else
      let (t, bad) := performLanes (s.setRow r { x with posted := l }) p.core p.lanes
      match t.row? r with
      | some y => .next (sweepBands (reportParity t r y true bad))
      | none => .next t

/-- PORT_ENTRY_ARRIVE (R302): the oldest entry in transit enters a port that has room. -/
def execPortEntryArrive (r : RowId) (s : State) : Out :=
  eventNext (s.modRow r (fun x =>
    match x.north.transit with
    | e :: l =>
      if x.north.fifo.length < 8 then { x with north := { x.north with fifo := x.north.fifo ++ [e], transit := l } } else x
    | [] => x))

/-! ### YIELD and watchdogs -/

/-- YIELD_INTERVAL_END (R270). -/
def execYieldIntervalEnd (r : RowId) (s : State) : Out :=
  eventNext (s.modRow r (fun x =>
    if x.ctl.yieldLeft = 1 then { x with ctl := { x.ctl with yieldLeft := 0 } } else x))

/-- A row that takes part in nothing now: it has exited, is trapped, held for pace or by a debugger, or its band is being
pre-empted or staged. -/
def rowHeld (s : State) (r : RowId) (x : Row) : Bool :=
  x.status != .running || x.ctl.trap.isSome || x.ctl.debugHeld || paceHeld s r x || preempting s x

/-- The trap of a PARITY that has been reported to a row and not yet taken (R403). -/
def takeParity (s : State) (r : RowId) (x : Row) : Option State :=
  x.ctl.parityDue.map (fun p => takeTrap s r { x with ctl := { x.ctl with parityDue := none } } 0x16 p.1 0 p.2)

/-- WATCHDOG (R395): the row traps at the waiting instruction, before it takes effect. An LNCH or EVSIG that waits is
given up with it. A PARITY that is due is taken in its place (R399). DEDUCED: log entry 76. -/
def execWatchdog (r : RowId) (s : State) : Out :=
  match s.row? r with
  | none => eventNext s
  | some x =>
    match watchdogDue x with
    | none => eventNext s
    | some (dom, l) =>
      if rowHeld s r x then eventNext s
      else
        let y := { x with ctl := { x.ctl with lnch := none, evsig := none } }
        .next ((takeParity s r y).getD (takeTrap s r y 0x10 dom.num 0 (dw l)))

/-! ### Fetch and decode (R58, R268) -/

/-- ILLEGAL_ENCODING (R58): the active row traps at the step of R58 that fails: PRIVILEGE at step 3, ILLEGAL at others. -/
def execIllegalEncoding (st : Nat) (s : State) : Out :=
  match s.active with
  | .row r =>
    match s.row? r with
    | some x => applyAct r s x (.stop (if st = 3 then privilege else illegalAt (BitVec.ofNat 8 st) x.pc))
    | none => .fault .noActiveAgent
  | _ => .fault .noActiveAgent

/-- The requester of the instruction fetches of a core (R268). -/
def fetchRequester (s : State) (g : CoreId) (asid : BitVec 6) : Requester :=
  ⟨[.cluster (clusterOf g)], some (dieOf g), asid, none, g, s.crossFail⟩

/-- The word at a device virtual address, or the status of the fetch. -/
def fetchWord (s : State) (g : CoreId) (asid : BitVec 6) (pc : Dword) : State × Except Byte Word :=
  if fld pc 63 52 ≠ 0 then (s, .error stRange)
  else
    let q := fetchRequester s g asid
    match readAddr s q pc 4 with
    | (t, .ok bs) => (t, .ok (BitVec.ofNat 32 (leNat bs)))
    | (t, .error f) => (t, .error f.status)

/-- The fetch of a word waits at the memory (R107, R118). -/
def fetchHeld (s : State) (g : CoreId) (asid : BitVec 6) (pc : Dword) : Bool :=
  decide (fld pc 63 52 = 0) && accessHeld s (fetchRequester s g asid) .read pc 4

/-- A row holds no word, and the fetch of its next one waits. -/
def rowFetchHeld (s : State) (r : RowId) (x : Row) : Bool :=
  x.ibuf.isNone && (match s.band? x.band with
    | some b => fetchHeld s r.core (s.bandAsid b) x.pc
    | none => false)

/-- INSTRUCTION_FETCH_COMPLETE (R268): a row that runs and holds no word receives the word at its PC; a failing fetch traps
with ILLEGAL, its status in DETAIL and the PC in TARG; with a PARITY that is due in its place (R399). -/
def execInstructionFetchComplete (r : RowId) (s : State) : Out :=
  match s.row? r with
  | none => eventNext s
  | some x =>
    if rowHeld s r x || x.ibuf.isSome || rowFetchHeld s r x then eventNext s
    else
      match s.band? x.band with
      | none => eventNext s
      | some b =>
        match fetchWord s r.core (s.bandAsid b) x.pc with
        | (t, .ok w) => .next (t.setRow r { x with ibuf := some w })
        | (t, .error st) =>
          .next ((takeParity t r x).getD (takeTrap t r x 0x01 st 0 x.pc))

/-! ### PC samples (R449) -/

/-- The stall reason of a row that did not issue in the V-cycle of the sample; what its next instruction waits for has been
found before the sample is taken. -/
def stallReason (s : State) (r : RowId) (x : Row) : Nat :=
  if x.ctl.trap.isSome then 13
  else if paceHeld s r x then 12
  else if x.ctl.yieldLeft ≠ 0 then 14
  else x.ctl.stall

/-- The place of a row in the order of a sampler: physical row, then pane. DESIGN CHOICE: log entry 10. -/
def sampleKey (r : RowId) : Nat := r.prow.toNat * 4 + r.pane.toNat

/-- The least of a list of rows in the order of a sampler. -/
def leastRow (l : List RowId) : Option RowId :=
  l.foldl (fun m r => match m with
    | some q => if sampleKey r < sampleKey q then some r else some q
    | none => some r) none

/-- The next leased row of a partition after a sampler's position, wrapping around. DESIGN CHOICE: log entry 10. -/
def nextSampled (s : State) (g : CoreId) (p : Nat) (pos : Nat) : Option RowId :=
  let l := (s.rows.map (fun q : RowId × Row => q.1)).filter (fun r => r.core == g && r.prow.toNat / 16 == p)
  match leastRow (l.filter (fun r => decide (pos ≤ sampleKey r))) with
  | some r => some r
  | none => leastRow l

/-- PC_SAMPLE (R449): with sampling on, the sampler of a partition takes its next row; the sample is a trace record of a
launch with TRACE. A row has issued in that V-cycle where its latest issue has the stamp of the cycle.
DESIGN CHOICE: log entry 10. -/
def execPcSample (g : CoreId) (p : Nat) (s : State) : Out :=
  if !(s.die (dieOf g)).trSmp then eventNext s
  else
    match nextSampled s g p ((s.core g).sampler[p]?.getD 0) with
    | none => eventNext s
    | some r =>
      match s.row? r with
      | none => eventNext s
      | some x =>
        let s := s.modCore g (fun k => { k with sampler := if h : p < 6 then k.sampler.set p (sampleKey r + 1) h else k.sampler })
        let reason := if x.ctl.stamp = s.stampAt r then 0 else stallReason s r x
        match s.band? x.band with
        | some b => .next (traceRecord s b.launch g (some r) 7 (x.pc.toNat) reason)
        | none => eventNext s

/-- A die's ring holds a record that the port has not sent. -/
def Die.hasRecord (k : Die) : Bool := k.trRd != k.trWr

/-- The die whose record the trace port sends next: the dies take turns, one record at a time (R451). -/
def nextTraced (s : State) : Option DieId :=
  ((List.range 4).map (fun i => s.tracePort + BitVec.ofNat 2 i)).find? (fun d => (s.die d).hasRecord)

/-- TRACE_PORT_SEND (R451): the next record of a die's ring leaves, when it is the die's turn. -/
def execTracePortSend (d : DieId) (s : State) : Out :=
  if nextTraced s = some d
  then .next { s.modDie d (fun k => { k with trRd := k.trRd + 1 }) with tracePort := d + 1 }
  else eventNext s

end Sys2Proof.Machine
end

