-- ==== Sys2Proof/Machine/Context.lean ====
section
/-! DEFINITION. Pre-emption: its request and steps, the save area, KSAV and KLOD (R416 to R427). -/
namespace Sys2Proof.Machine

/-! ### The request and the steps (R416 to R419) -/

/-- The unit of a band may be pre-empted: its launch is PREEMPTIBLE, there is a pool, and none of it is being staged or
already pre-empted (R416, R422). -/
def canPreempt (s : State) (b : Band) : Bool :=
  (match s.launch? b.launch with
    | some l => l.preemptible && !l.ended
    | none => false)
  && fld s.regs.ctxpool 63 40 != 0
  && (unitOf s b).all (fun k => k.staged && k.preempt.isNone)

/-- A row stops at its boundary, which is a boundary point (R384, R387): an instruction that waits is not completed, one at a
barrier keeps its token only, an LNCH not yet taken is abandoned (R374, R417). -/
def stopRow (s : State) (g : CoreId) (x : Row) : Row :=
  let token (w : BarWait) : BarWait := if w.gbar then w else { w with result := none }
  let y := x.leaveWait
  { y with ctl := { y.ctl with wait := none, lnch := none, barrier := y.ctl.barrier.map token } }.seePace s g

/-- A handler that runs for a row of a band is abandoned (R419). -/
def abandonHandler (s : State) (b : Nat) (g : CoreId) : State :=
  match (s.core g).mon.mode, (s.core g).mon.row with
  | .handler, some r =>
    match s.row? r with
    | some x => if x.band = b then monIdle s g else s
    | none => s
  | _, _ => s

/-- A band of a unit being pre-empted stops. -/
def stopBand (s : State) (b : Band) : State :=
  let s := abandonHandler s b.id b.core
  (s.mapRows (fun r x => if x.band = b.id then stopRow s r.core x else x)).modBand b.id
    (fun k => { k with preempt := some .requested })

/-- A row of a unit holds a PARITY trap (R419). -/
def parityRow (s : State) (u : List Band) : Option RowId :=
  (s.rows.find? (fun p => u.any (fun b => b.id == p.2.band) &&
    (match p.2.ctl.trap with
      | some t => t.cause == 0x16
      | none => false))).map (fun p => p.1)

/-- Pre-emption of the unit of a band is requested; a row that holds a PARITY trap ends it (R416, R419). -/
def requestPreempt (s : State) (b : Band) : State :=
  let u := unitOf s b
  match parityRow s u with
  | some r => defaultAction s r
  | none => u.foldl stopBand s

/-- PREEMPT_REQUEST: the management processor's own request (R416); the distributor's is a part of SKEIN_RESERVATION (R368). -/
def execPreemptRequest (bd : Nat) (s : State) : Out :=
  match s.band? bd with
  | some b => if canPreempt s b then .next (requestPreempt s b) else eventNext s
  | none => eventNext s

/-- The running stream of a row can make a step or complete now. -/
def streamCanStep (s : State) (x : Row) (b : Band) (t : Stream) : Bool :=
  t.done || (t.north && stepDue x t && x.northOver) ||
    (stepReady s x b t && (!t.north || !x.north.fifo.isEmpty) && (t.terminal || x.south.orphan || !southFull s x))

/-- STREAM_STARVED (R417): in a pre-emption, a stream that can make no step stops at its boundary. -/
def execStreamStarved (r : RowId) (s : State) : Out :=
  match s.row? r with
  | none => eventNext s
  | some x =>
    match x.mx.running, s.band? x.band with
    | some t, some b =>
      if b.preempt = some .requested ∧ streamCanStep s x b t = false
      then .next (s.setRow r { x with mx := { x.mx with running := some { t with starved := true } } })
      else eventNext s
    | _, _ => eventNext s

/-- Step 5 holds for a command: lines in flight are complete, and a running walk has no emission left (R418). -/
def cmdSettled (s : State) (k : Cmd) : Bool :=
  k.sent.all (fun l => k.done.contains l)
    && (let w := s.walker (clusterOf k.core)
        w.cmd != some k.id || (w.emis.isEmpty && w.stop.isNone))

/-- A band has completed steps 1 to 5; its rows in another step of the save do not count. -/
def bandStopped (s : State) (b : Band) : Bool :=
  b.preempt == some .saved ||
    (b.preempt == some .requested && bandQuiet s b && (s.cmds.filter (fun k => k.band == b.id)).all (cmdSettled s))

/-! ### Remote operations aimed at a band (R239, R240) -/

/-- Posted writes performed in order, but for those held back and those that meet a word of one held back: the ones that remain,
and the TARG of the first bad word. -/
def performOpen (s : State) (kept : List Posted) : List Posted → State × List Posted × Option Dword
  | [] => (s, kept, none)
  | p :: ps =>
    if p.blocked s || p.words.any (fun w => kept.any (fun k => k.words.contains w)) then performOpen s (kept ++ [p]) ps
    else
      let (s, a) := performLanes s p.core p.lanes
      let (s, l, b) := performOpen s kept ps
      (s, l, firstOf a b)

/-- The steps of one atomic made in order up to the first that is held back. -/
def openSteps (s : State) (p : Producer) : List AtomStep → State × Producer × Option Dword
  | [] => (s, { p with todo := [] }, none)
  | t :: l =>
    if (wordHold s t.word).isSome then (s, { p with todo := t :: l }, none)
    else
      let (s, q, a) := stepAtom s p t
      let (s, q, b) := openSteps s q l
      (s, q, firstOf a b)

/-- The steps of a row's atomics made in order up to the first that is held back. -/
def openAtoms (s : State) : List Producer → State × List Producer × Option Dword
  | [] => (s, [], none)
  | p :: ps =>
    let (s, q, a) := openSteps s p p.todo
    if q.todo.isEmpty then
      let (s, qs, b) := openAtoms s ps
      (s, q :: qs, firstOf a b)
    else (s, q :: ps, a)

/-- What a row owes is performed as far as nothing holds it back. -/
def drainRow (s : State) (r : RowId) : State :=
  match s.row? r with
  | none => s
  | some x =>
    let (t, l, bad) := performOpen s [] x.posted
    let (t, ps, sick) := openAtoms t x.prods
    let y := { x with posted := l, prods := ps }
    match bad with
    | some _ => reportParity t r y true bad
    | none => reportParity t r y false sick

/-- Remote operations aimed at the window of a band are performed before it is saved, as far as nothing holds them back
(R239, R351; DEDUCED, log entry 95). -/
def drainAimed (s : State) (b : Band) : State :=
  ((s.rows.filter (fun p => p.2.aimsAt b.id)).map (fun p => p.1)).foldl drainRow s

/-! ### The save area (R423 to R425) -/

/-- A size rounded up to 64. -/
def up64 (n : Nat) : Nat := (n + 63) / 64 * 64

/-- Bytes followed by what the manual leaves open, up to a size; a is the physical address of the first. -/
def fillTo (a n : Nat) (bs : List Byte) : List Byte :=
  bs ++ (List.range (n - bs.length)).map (fun i => Config.savedFill (a + bs.length + i))

/-- Lanes 0 to w - 1 of a register. -/
def lanesBytes (w : Nat) (v : Lanes) : List Byte := (List.range w).flatMap (fun i => leBytes 4 (laneAt v i).toNat)
/-- Lanes 0 to w - 1 of an entry. -/
def entryBytes (w : Nat) (e : Entry) : List Byte := (List.range w).flatMap (fun i => leBytes 8 (entryAt e i))

/-- Size of a row record. -/
def rowRecLen (w : Nat) : Nat := 1024 + 232 * w

/-- The row of a band at an index. -/
def Band.rowName (b : Band) (i : Nat) : RowId := ⟨b.core, b.pane, BitVec.ofNat 7 (b.row0 + i)⟩

/-- The row receives its entries across the selvedge: the top row of the top core of D2 or D3, its north port not open
(R302, R423). -/
def Row.seam (x : Row) (r : RowId) : Bool :=
  r.prow == 0 && !x.north.isOpen && coreRow r.core == 0 && decide (2 ≤ (dieOf r.core).toNat)

/-- The metadata of an MMAS, which the save area holds (R423). -/
def Stream.metadata (t : Stream) : List Byte :=
  match t.kind with
  | .mmas => packMasks (cardM t.cardBytes) t.masks
  | _ => []

/-- A stream that a pre-emption saves: the starved one, or the queued one. -/
def starvedOf (x : Row) : Option Stream := x.mx.running
/-- Metadata that the streams of a row hold. -/
def rowMetadata (x : Row) : List Byte :=
  (starvedOf x).elim [] Stream.metadata ++ x.mx.queued.elim [] Stream.metadata

/-- A stream record (R425), its metadata at an offset of the stream masks. DESIGN CHOICE: log entry 30. -/
def streamRecord (o : Option Stream) (off : Nat) : List Byte :=
  match o with
  | none => List.replicate 64 0
  | some t =>
    leBytes 8 (t.word.toNat + t.modp.toNat * 2 ^ 32) ++ leBytes 8 t.grant.toNat ++ leBytes 8 t.base ++ leBytes 8 t.stride
      ++ leBytes 8 (t.step % 2 ^ 12 + t.remaining % 2 ^ 16 * 2 ^ 16) ++ leBytes 8 t.lanes.toNat ++ leBytes 8 t.card.toNat
      ++ leBytes 8 ((if t.metadata.isEmpty then 0 else off) + t.metadata.length * 2 ^ 32)

/-- A hint's payload. -/
def hintNat (o : Option (BitVec 24)) : Nat := o.elim 0 BitVec.toNat

/-- The hints of a row record. -/
def hintsNat (h : Hints) : Nat :=
  hintNat h.imx1 + hintNat h.imx2 * 2 ^ 24 + hintNat h.rep * 2 ^ 48 + hintNat h.modp * 2 ^ 72 + hintNat h.schd * 2 ^ 96
    + hintBits h * 2 ^ 120

/-- The doubleword at 0x18 of a row record. -/
def miscNat (x : Row) : Nat :=
  x.repix.toNat + x.stack.length * 2 ^ 8 + x.csr.bwany.toNat * 2 ^ 16 + b2n x.fp.mi * 2 ^ 20 + b2n x.fp.mo * 2 ^ 21
    + b2n x.fp.ftz * 2 ^ 24 + x.fp.rmode.toNat * 2 ^ 26 + x.fp.en.toNat * 2 ^ 32
    + (x.fp.flags.toNat + b2n x.fp.pend * 2 ^ 8) * 2 ^ 40

/-- An entry of the mask stack. -/
def maskEntryBytes (e : MaskEntry) : List Byte :=
  leBytes 8 (b2n e.isLoop + 2 * b2n e.elseDone) ++ leBytes 8 e.saved.toNat ++ leBytes 8 e.pend.toNat

/-- The rows of a launch's skein, those whose entries have been freed among them. -/
def skeinRows (s : State) (b : Band) : List Row :=
  let l := s.bands.filter (fun k => k.launch == b.launch && k.skein == b.skein)
  (s.rows.filter (fun p => l.any (fun k => k.id == p.2.band))).map (fun p => p.2)
    ++ l.flatMap (fun k => (k.held ++ k.freed).map (fun p => p.2))

/-- ORPHAN on the north port of a row of a band: the row above it finds it gone (R224). -/
def northOrphan (s : State) (b : Band) (r : RowId) : Bool :=
  (skeinRows s b).any (fun x => x.south.dest == some r && x.south.orphan)

/-- The north port's entries that the row record holds. -/
def northEntries (x : Row) (r : RowId) : List Entry := x.north.fifo ++ (if x.seam r then [] else x.north.transit)

/-- The word at 0x3A8 of a row record. -/
def rowFlags (s : State) (b : Band) (r : RowId) (x : Row) : Nat :=
  x.mx.latch.length % 2 ^ 10 + x.mx.rq.length * 2 ^ 16 + (northEntries x r).length * 2 ^ 24 + b2n x.north.closed * 2 ^ 28
    + b2n (northOrphan s b r) * 2 ^ 29 + b2n x.north.isOpen * 2 ^ 30 + b2n (x.status == .exited) * 2 ^ 32
    + b2n x.ctl.trap.isSome * 2 ^ 33

/-- The first 1,024 bytes of the record of a row; of the mask stack, whose order R424 leaves open, the bottom entry comes first.
DESIGN CHOICE: log entry 30. -/
def rowHead (s : State) (r : RowId) (x : Row) (b : Band) (a off : Nat) : List Byte :=
  leBytes 8 x.pc.toNat ++ leBytes 16 (hintsNat x.hints) ++ leBytes 8 (miscNat x) ++ leBytes 8 (2 ^ 64 - 1)
    ++ leBytes 8 x.csr.wdlim.toNat ++ leBytes 8 (bstatWord s r x b).toNat ++ leBytes 8 x.mx.shape.toNat
    ++ streamRecord (starvedOf x) off
    ++ streamRecord x.mx.queued (off + ((starvedOf x).elim [] Stream.metadata).length)
    ++ (List.range 32).flatMap (fun i => leBytes 8 (x.sget (BitVec.ofNat 5 i)).toNat)
    ++ fillTo (a + 0x1C0) 384 (x.stack.reverse.flatMap maskEntryBytes)
    ++ x.regs.m.toList.flatMap (fun m => leBytes 8 m.toNat)
    ++ x.cls.toList.flatMap (fun c => leBytes 8 c.counter)
    ++ leBytes 8 (rowFlags s b r x)
    ++ (match x.ctl.trap with
        | some t => leBytes 8 t.info.toNat ++ leBytes 8 t.targ.toNat
        | none => fillTo (a + 0x3B0) 16 [])
    ++ x.cls.toList.flatMap (fun c => leBytes 8 (c.covered % 2 ^ 32)) ++ List.replicate 24 0

/-- The north port section of a row record. -/
def northSection (x : Row) (r : RowId) (w a : Nat) : List Byte :=
  fillTo (a + 1024 + 168 * w) (64 * w) ((northEntries x r).flatMap (entryBytes w))

/-- The lane sections of a row record before the north port. -/
def laneSections (x : Row) (w a : Nat) : List Byte :=
  (List.range 28).flatMap (fun i => lanesBytes w (x.vget (BitVec.ofNat 5 i)))
    ++ fillTo (a + 1024 + 112 * w) (8 * w) [] ++ lanesBytes w laneIndex ++ lanesBytes w zeroLanes
    ++ lanesBytes w x.mx.p ++ lanesBytes w x.mx.a ++ entryBytes w x.mx.w
    ++ fillTo (a + 1024 + 144 * w) (8 * w) x.mx.latch
    ++ fillTo (a + 1024 + 152 * w) (16 * w) (x.mx.rq.flatMap (lanesBytes w))

/-- A row of a band at a place, or as it stood when its lease entry was freed (R360). -/
def Band.lastRow (s : State) (b : Band) (i : Nat) : Option Row :=
  match (s.row? (b.rowName i)).filter (fun x => x.band == b.id) with
  | some x => some x
  | none => (b.freed.find? (fun p => p.1 == b.rowName i)).map (fun p => p.2)

/-- The record of row i of a band at a physical address (R424). -/
def rowRecord (s : State) (b : Band) (i a off : Nat) : List Byte :=
  let w := b.laneW
  let gone (flags : Nat) (north : List Byte) : List Byte :=
    fillTo (a + 0x3B0) (1024 + 168 * w - 0x3B0) [] |>.append north |> (fun t => fillTo a 0x3A8 [] ++ leBytes 8 flags ++ t)
  match b.lastRow s i with
  | none => gone (2 ^ 32) (fillTo (a + 1024 + 168 * w) (64 * w) [])
  | some x =>
    if x.status = .exited
    then gone (rowFlags s b (b.rowName i) x) (northSection x (b.rowName i) w a)
    else rowHead s (b.rowName i) x b a off ++ laneSections x w a ++ northSection x (b.rowName i) w a

/-- The rows of a band in order. -/
def bandRows (s : State) (b : Band) : List (RowId × Row) :=
  (List.range b.height).filterMap (fun i => (s.row? (b.rowName i)).map (fun x => (b.rowName i, x)))

/-- The offset of row i's metadata in the stream masks. -/
def maskOffset (s : State) (b : Band) (i : Nat) : Nat :=
  ((List.range i).map (fun j => ((s.row? (b.rowName j)).elim [] rowMetadata).length)).sum

/-- The stream masks of a band. -/
def streamMasks (s : State) (b : Band) : List Byte := (bandRows s b).flatMap (fun p => rowMetadata p.2)

/-- Entries of the selvedge transit section: those on their way to the top row across the seam. -/
def seamEntries (s : State) (b : Band) : List Entry :=
  match s.row? (b.rowName 0) with
  | some x => if x.seam (b.rowName 0) then x.north.transit else []
  | none => []

/-- The selvedge transit section exists. -/
def hasSeam (s : State) (b : Band) : Bool :=
  match s.row? (b.rowName 0) with
  | some x => x.seam (b.rowName 0)
  | none => false

/-- A GATH or SCAT with its indices in registers. -/
def Cmd.keepsIndices (k : Cmd) : Bool :=
  match k.instr with
  | .gath _ _ _ _ ixr | .scat _ _ _ _ ixr => ixr
  | _ => false

/-- The row of a band that issued a command. -/
def Cmd.rowIndex (k : Cmd) (b : Band) : Nat :=
  match k.src with
  | .row r => r.prow.toNat - b.row0
  | .staging _ => 0

/-- A command record (R425). -/
def cmdRecord (b : Band) (k : Cmd) : List Byte :=
  leBytes 8 ((clsIx k.cls).val + (if k.batch.isSome then 8 else 0) + k.rowIndex b * 2 ^ 8 + (k.batch.getD 0) % 2 ^ 32 * 2 ^ 32)
    ++ leBytes 8 k.ticket.toNat
    ++ leBytes 8 (((encode k.instr).getD 0).toNat + (if k.bar then k.gen.toNat else 0) * 2 ^ 32)
    ++ (List.range 4).flatMap (fun i => leBytes 8 (k.op i).toNat) ++ leBytes 8 k.b.toNat
    ++ (if k.keepsIndices then (List.range k.count).flatMap (fun p => leBytes 8 (k.idx.getD p 0)) else [])

/-- The commands of a band that a save holds, in issue order. -/
def bandCmds (s : State) (b : Band) : List Cmd := s.cmds.filter (fun k => k.band == b.id)

/-- A batch record (R425). -/
def batchRecord (i : Nat) (c : BClass) (k : ClassState) (n state : Nat) : List Byte :=
  let st (v : Dword) : Nat := if state = 0 then v.toNat % 2 ^ 62 else v.toNat
  leBytes 8 (n % 2 ^ 32 + (clsIx c).val * 2 ^ 32 + i * 2 ^ 40 + state * 2 ^ 48) ++ leBytes 8 (st (k.wstat n false))
    ++ leBytes 8 (k.wstat n true).toNat ++ leBytes 8 0

/-- The batch records of a class of a row. -/
def classRecords (i : Nat) (c : BClass) (k : ClassState) : List (List Byte) :=
  ((k.batches.filter (fun q => decide (0 < q.ncmd) && !batchExpired k.batches q.num)).map
      (fun q => batchRecord i c k q.num (if q.complete then 2 else 1)))
    ++ (if 0 < k.openB.ncmd then [batchRecord i c k (k.counter + 1) 0] else [])

/-- The batch records of a band, those of its exited rows among them. -/
def batchRecords (s : State) (b : Band) : List (List Byte) :=
  (List.range b.height).flatMap (fun i =>
    match b.lastRow s i with
    | some x => allClasses.flatMap (fun c => classRecords i c (x.clsOf c))
    | none => [])

/-- The walk of a band that the walker record describes: the running one, or the first queued. -/
def bandWalk (s : State) (b : Band) : Option (Cmd × Bool) :=
  let ws := (bandCmds s b).filter (fun k => k.cls == .wk)
  match ws.find? (fun k => (s.walker (clusterOf b.core)).cmd == some k.id) with
  | some k => some (k, true)
  | none => ws.head?.map (fun k => (k, false))

/-- The walker record (R425). -/
def walkerRecord (s : State) (b : Band) : List Byte :=
  match bandWalk s b with
  | none => []
  | some (k, run) =>
    let w := s.walker (clusterOf b.core)
    let v (n : Nat) : Nat := if run then n else 0
    leBytes 8 (v (w.pc % 2 ^ 12) + b2n run * 2 ^ 16) ++ leBytes 8 (v w.count)
      ++ (List.range 16).flatMap (fun i => leBytes 8 (v (w.get (BitVec.ofNat 4 i)).toNat)) ++ leBytes 8 k.ticket.toNat
      ++ List.replicate 40 0

/-- The header of a save area. -/
def areaHeader (s : State) (b : Band) : List Byte :=
  let g := b.core.toNat
  leBytes 8 (b.height + b.laneW * 2 ^ 8 + (b.wsize / 4096 - 1) * 2 ^ 16 + b.nb * 2 ^ 24 + b.bandIx * 2 ^ 28
      + b.row0 * 2 ^ 32 + b.pane.toNat * 2 ^ 40 + g % 4 * 2 ^ 44 + g / 4 % 16 * 2 ^ 46 + g / 64 * 2 ^ 50)
    ++ leBytes 8 b.wid0.toNat ++ leBytes 8 b.serial.toNat ++ leBytes 8 b.pacereq.toNat
    ++ leBytes 8 ((bandCmds s b).length + (seamEntries s b).length * 2 ^ 16 + b2n (bandWalk s b).isSome * 2 ^ 20
      + (streamMasks s b).length * 2 ^ 32)
    ++ leBytes 8 (batchRecords s b).length ++ List.replicate 208 0

/-- Where the sections of an area begin after the header: rows, selvedge transit, window, commands, batches, masks,
walker, and the end. -/
structure AreaMap where
  rows : Nat
  seam : Nat
  window : Nat
  cmds : Nat
  batches : Nat
  masks : Nat
  walker : Nat
  stop : Nat
  deriving DecidableEq, Repr

/-- The sections of an area from their sizes (R423). -/
def areaMap (height w seam window cmds batches masks walker : Nat) : AreaMap :=
  let r := 256
  let e := up64 (r + height * rowRecLen w)
  let n := up64 (e + seam)
  let c := up64 (n + window)
  let t := up64 (c + cmds)
  let m := up64 (t + batches)
  let k := up64 (m + masks)
  ⟨r, e, n, c, t, m, k, up64 (k + walker)⟩

/-- The map of the area that a band would need. -/
def bandMap (s : State) (b : Band) : AreaMap :=
  areaMap b.height b.laneW (if hasSeam s b then 64 * b.laneW else 0) b.wsize
    ((bandCmds s b).map (fun k => (cmdRecord b k).length)).sum (32 * (batchRecords s b).length)
    (streamMasks s b).length (walkerRecord s b).length

/-- The size of a band's save area (R423). -/
def areaSize (s : State) (b : Band) : Nat := (bandMap s b).stop

/-- The bytes of the save area of a band at a physical address (R423). -/
def areaBytes (s : State) (b : Band) (a : Nat) : List Byte :=
  let m := bandMap s b
  let w := b.laneW
  let rows := (List.range b.height).flatMap (fun i => rowRecord s b i (a + 256 + i * rowRecLen w) (maskOffset s b i))
  let seam := if hasSeam s b then fillTo (a + m.seam) (64 * w) ((seamEntries s b).flatMap (entryBytes w)) else []
  let put (acc : List Byte) (start : Nat) (bs : List Byte) : List Byte := fillTo a start acc ++ bs
  let l := put (put (areaHeader s b) m.rows rows) m.seam seam
  let l := put l m.window (memRead s.mem (sideKey b.core.toNat b.wbase) b.wsize)
  let l := put (put l m.cmds ((bandCmds s b).flatMap (cmdRecord b))) m.batches (batchRecords s b).flatten
  fillTo a m.stop (put (put l m.masks (streamMasks s b)) m.walker (walkerRecord s b))

/-! ### KSAV (R404, R426) -/

/-- The structure of R400 whose parity a save of a row meets first (R404). -/
def rowParity (x : Row) : Option Byte :=
  if x.status = .exited then (if x.north.bad.isEmpty then none else some 2)
  else if x.regs.vbad.any (fun k => k != 0) then some 0
  else if x.regs.sbad ≠ 0 then some 1
  else if !x.north.bad.isEmpty then some 2
  else if !x.mx.latchBad.isEmpty then some 3
  else if x.mx.pbad ||| x.mx.abad ||| x.mx.wbad ≠ 0 then some 4
  else if !x.mx.rqBad.isEmpty then some 5 else none

/-- The first row of a band that a save finds in error. DESIGN CHOICE: log entry 58. -/
def bandParity (s : State) (b : Band) : Option (RowId × Byte) :=
  (bandRows s b).findSome? (fun p => (rowParity p.2).map (fun k => (p.1, k)))

/-- A transfer of an area of n bytes at an address by the shuttle of a core crosses a link that fails (R131, R402). -/
def areaLink (s : State) (g : CoreId) (a n : Nat) : Bool :=
  s.crossFail && (List.range (n / 64)).any (fun i => hbmDie (a + 64 * i) != dieOf g)

/-- What a save of an area of n bytes at an address fails: alignment and the pool (R426), the window's words, the
channels of the area, the links to it (R131). DESIGN CHOICE: log entry 58. -/
def saveFails (s : State) (b : Band) (a n : Nat) : Option Byte :=
  let base := fld s.regs.ctxpool 39 12 * 4096
  if a % 4096 ≠ 0 || a < base || base + fld s.regs.ctxpool 63 40 * 4096 < a + n || hbmEnd < a + n then some stRange
  else if !(badWordsIn s (sideKey b.core.toNat b.wbase) b.wsize).isEmpty then some stUncorrectable
  else if (List.range (n / 64)).any (fun i => s.paFailed (a + 64 * i)) then some stUncorrectable
  else if areaLink s b.core a n then some stLink
  else none

/-- A walker without the commands of a band (R418). -/
def Walker.leave (w : Walker) (ids : List Nat) : Walker :=
  let v := { w with queue := w.queue.filter (fun c => !ids.contains c), resume := w.resume.filter (fun k => !ids.contains k.cmd) }
  match w.cmd with
  | some c => if ids.contains c then v.idle else v
  | none => v

/-- Whether the walk of a band that runs has discarded a credit. -/
def walkStale (s : State) (b : Band) : Bool :=
  match bandWalk s b with
  | some (_, true) => (s.walker (clusterOf b.core)).stale
  | _ => false

/-- The band saved: its rows and commands leave the machine and are kept with it. DESIGN CHOICE: log entry 30. -/
def shelveBand (s : State) (b : Band) (a : Nat) : State :=
  let cs := bandCmds s b
  let keep := { b with
    preempt := some .saved
    saveArea := some a
    saveLen := areaSize s b
    savedAt := (s.bands.map Band.savedAt).foldl max 0 + 1
    held := bandRows s b
    heldCmds := cs
    heldStale := walkStale s b }
  let s := s.modBand b.id (fun _ => keep)
  let s := { s with
    rows := s.rows.filter (fun p => p.2.band != b.id)
    cmds := s.cmds.filter (fun k => k.band != b.id)
    notes := s.notes.filter (fun w => !cs.any (fun k => k.id == w.cmd)) }
  let s := s.modWalker (clusterOf b.core) (fun w => w.leave (cs.map Cmd.id))
  s.modCore b.core (fun k => { k with trapQ := k.trapQ.filter (fun r => !(keep.held.any (fun p => p.1 == r))) })

/-- A band that has completed its steps saved at an address: the state and the status (R426). A failure ends the unit. -/
def saveStopped (s : State) (b : Band) (a : Nat) : State × Byte :=
    match bandParity s b, saveFails s b a (areaSize s b) with
    | some (r, k), _ =>
      match s.row? r with
      | some x => (defaultAction (takeTrap s r x 0x16 k 0 0) r, stUncorrectable)
      | none => (endLaunch s b.launch, stUncorrectable)
    | none, some st => (endLaunch s b.launch, st)
    | none, none =>
      let lines := List.range (areaSize s b / 64)
      let bs := areaBytes s b a
      let s := shelveBand s b a
      (lines.foldl (fun s i => placeWrite s (.hbm (a + 64 * i)) ((bs.drop (64 * i)).take 64)) s, stOk)

/-- KSAV of a band at an address (R426): remote operations aimed at its window come before the save. -/
def saveBand (s : State) (b : Band) (a : Nat) : State × Byte :=
  if b.preempt != some .requested || !(unitOf s b).all (bandStopped s) then (s, stRange)
  else
    let s := drainAimed s b
    match s.band? b.id with
    | some k => if k.preempt = some .requested then saveStopped s k a else (s, stRange)
    | none => (s, stRange)

/-! ### KLOD (R427) -/

/-- A doubleword of an area. -/
def areaDw (m : Memory) (a : Nat) : Dword := memDword m (hbmKey a)

/-- w lanes of 32 bits at an address, the others kept. -/
def lanesAt (m : Memory) (a w : Nat) (old : Lanes) : Lanes :=
  Vector.ofFn (fun i : Fin 64 => if i.val < w then memWord m (hbmKey (a + 4 * i.val)) else old[i.val])
/-- w lanes of 64 bits at an address. -/
def entryFrom (m : Memory) (a w : Nat) : Entry :=
  Vector.ofFn (fun i : Fin 64 => if i.val < w then areaDw m (a + 8 * i.val) else 0)

/-- The hints of a row record. -/
def hintsAt (m : Memory) (a : Nat) : Hints :=
  let n := leNat (memRead m (hbmKey a) 16)
  let f (i : Nat) : Option (BitVec 24) := if Nat.testBit n (120 + i) then some (BitVec.ofNat 24 (n / 2 ^ (24 * i))) else none
  ⟨f 0, f 1, f 2, f 3, f 4⟩

/-- A stream from its record, over what was kept of it. -/
def streamAt (m : Memory) (a masks : Nat) (old : Option Stream) : Option Stream :=
  let w := areaDw m a
  if w.extractLsb' 0 32 = 0 then none
  else
    old.map (fun t =>
      let c := areaDw m (a + 32)
      let k := areaDw m (a + 56)
      let md := memRead m (hbmKey (masks + fld k 31 0)) (fld k 63 32)
      { t with
        word := w.extractLsb' 0 32
        modp := w.extractLsb' 32 24
        grant := areaDw m (a + 8)
        base := (areaDw m (a + 16)).toNat
        stride := (areaDw m (a + 24)).toNat
        step := fld c 11 0
        remaining := fld c 31 16
        lanes := areaDw m (a + 40)
        card := areaDw m (a + 48)
        masks := if t.kind = .mmas then (List.range t.masks.length).map (metaMask (cardM t.cardBytes) md) else t.masks
        starved := false })

/-- The mask stack of a row record, its top first. -/
def stackAt (m : Memory) (a n : Nat) : List MaskEntry :=
  ((List.range (min n 16)).map (fun i =>
    (⟨tst (areaDw m (a + 24 * i)) 0, tst (areaDw m (a + 24 * i)) 1, areaDw m (a + 24 * i + 8), areaDw m (a + 24 * i + 16)⟩ :
      MaskEntry))).reverse

/-- A trap record of a row record; the trap is taken again after the restore (R399, R419). -/
def trapAt (m : Memory) (a : Nat) (old : Option TrapRec) (now : Dword) : TrapRec :=
  let i := areaDw m a
  { cause := i.extractLsb' 56 8
    detail := i.extractLsb' 48 8
    code := i.extractLsb' 34 14
    targ := areaDw m (a + 8)
    word := old.elim 0 (fun t => t.word)
    cycle := now }

/-- A batch with the contents of its record. -/
def batchAt (m : Memory) (a : Nat) (q : BatchRec) : BatchRec :=
  let v := areaDw m (a + 8)
  { q with
    ncmd := fld v 31 16
    nfail := fld v 47 40
    sum := v.setWidth 8
    first := if fld v 47 40 = 0 then none else some (fld v 39 32, BitVec.ofNat 8 (fld v 55 48), areaDw m (a + 16))
    complete := decide (fld (areaDw m a) 49 48 = 2) }

/-- The batches of a class with the record at an address, where it is of that class and row. -/
def classAt (m : Memory) (i : Nat) (c : BClass) (k : ClassState) (a : Nat) : ClassState :=
  let v := areaDw m a
  if fld v 46 40 ≠ i ∨ fld v 34 32 ≠ (clsIx c).val then k
  else if fld v 49 48 = 0 then { k with openB := batchAt m a k.openB }
  else { k with batches := k.batches.map (fun q => if q.num = fld v 31 0 then batchAt m a q else q) }

/-- The batches of a row restored: counters, marks and records. -/
def batchesAt (m : Memory) (a rec n i : Nat) (x : Row) : Vector ClassState 5 :=
  Vector.ofFn (fun c : Fin 5 =>
    let cl := allClasses.getD c.val .mx
    let k := x.cls[c.val]
    let k := { k with
      counter := fld (areaDw m (a + 0x380 + 8 * c.val)) 63 0
      covered := fld (areaDw m (a + 0x3C0 + 8 * c.val)) 31 0 }
    (List.range n).foldl (fun k j => classAt m i cl k (rec + 32 * j)) k)

/-- Where the records of an area lie, and how many there are. -/
structure AreaView where
  mem : Memory
  base : Nat
  map : AreaMap
  nbatch : Nat

/-- The registers of a row record. -/
def regsAt (m : Memory) (a w : Nat) (x : Row) : Regs :=
  { x.regs with
    s := Vector.ofFn (fun i : Fin 32 => if i.val = 0 then x.regs.s[0] else areaDw m (a + 0xC0 + 8 * i.val))
    v := Vector.ofFn (fun i : Fin 28 => lanesAt m (a + 1024 + 4 * w * i.val) w x.regs.v[i.val])
    m := Vector.ofFn (fun i : Fin 8 => areaDw m (a + 0x340 + 8 * i.val))
    vfull := (areaDw m (a + 0x20)).setWidth 32
    sfull := (areaDw m (a + 0x20)).extractLsb' 32 32 }

/-- The matrix unit of a row record. -/
def matrixAt (v : AreaView) (a w : Nat) (flags : Dword) (x : Row) : Matrix :=
  let m := v.mem
  let lanes := a + 1024
  let run := streamAt m (a + 0x40) (v.base + v.map.masks) x.mx.running
  let que := streamAt m (a + 0x80) (v.base + v.map.masks) x.mx.queued
  { x.mx with
    p := lanesAt m (lanes + 128 * w) w x.mx.p
    a := lanesAt m (lanes + 132 * w) w x.mx.a
    w := entryFrom m (lanes + 136 * w) w
    latch := memRead m (hbmKey (lanes + 144 * w)) (fld flags 9 0)
    rq := (List.range (fld flags 18 16)).map (fun i => lanesAt m (lanes + 152 * w + 4 * w * i) w zeroLanes)
    shape := areaDw m (a + 0x38)
    running := if run.isSome then run else que
    queued := if run.isSome then que else none }

/-- The north port of a row record, with the selvedge transit of a top row. -/
def northAt (v : AreaView) (a w : Nat) (flags : Dword) (r : RowId) (x : Row) : NorthPort :=
  let m := v.mem
  let n := fld (areaDw m (v.base + 0x20)) 19 16
  { fifo := (List.range (fld flags 27 24)).map (fun i => entryFrom m (a + 1024 + 168 * w + 8 * w * i) w)
    transit := if x.seam r then (List.range n).map (fun i => entryFrom m (v.base + v.map.seam + 8 * w * i) w) else []
    closed := tst flags 28
    isOpen := tst flags 30 }

/-- The floating-point state of a row record. -/
def fpAt (misc : Dword) : FpState :=
  { flags := BitVec.ofNat 5 (fld misc 44 40)
    pend := tst misc 48
    en := BitVec.ofNat 5 (fld misc 36 32)
    rmode := BitVec.ofNat 2 (fld misc 27 26)
    ftz := tst misc 24
    mi := tst misc 20
    mo := tst misc 21 }

/-- The streams of an exited row go on where they stood: its record does not hold them (R424; DESIGN CHOICE, log entry 30). -/
def Matrix.restart (m : Matrix) : Matrix :=
  let go (t : Stream) : Stream := { t with starved := false }
  match m.running with
  | some t => { m with running := some (go t) }
  | none => { m with running := m.queued, queued := none }

/-- Row i of a band restored from its record, over what was kept of it. DESIGN CHOICE: log entry 30. -/
def rowAt (v : AreaView) (now : Dword) (b : Band) (i : Nat) (r : RowId) (x : Row) : Row :=
  let m := v.mem
  let w := b.laneW
  let a := v.base + 256 + i * rowRecLen w
  let flags := areaDw m (a + 0x3A8)
  let north := northAt v a w flags r x
  if x.status = .exited then { x with north := north, mx := x.mx.restart }
  else
    let misc := areaDw m (a + 0x18)
    let bstat := areaDw m (a + 0x30)
    { x with
      pc := areaDw m a
      ibuf := if x.ctl.barrier.isSome || x.ctl.trap.isSome then x.ibuf else none
      regs := regsAt m a w x
      hints := hintsAt m (a + 8)
      repix := BitVec.ofNat 6 (fld misc 5 0)
      stack := stackAt m (a + 0x1C0) (fld misc 12 8)
      fp := fpAt misc
      csr := { x.csr with
        wdlim := areaDw m (a + 0x28)
        bslot := BitVec.ofNat 6 (fld bstat 13 8)
        blast := bstat.setWidth 8
        bwany := BitVec.ofNat 3 (fld misc 18 16) }
      north := north
      mx := matrixAt v a w flags x
      cls := batchesAt m a (v.base + v.map.batches) v.nbatch i x
      ctl := { x.ctl with trap := if tst flags 33 then some (trapAt m (a + 0x3B0) x.ctl.trap now) else none } }

/-- The index list of a gather or scatter read again (R176, R418). -/
def listIndices (s : State) (k : Cmd) : List Nat :=
  (List.range k.count).map (fun p =>
    let pl := cmdPlace s k (k.ixOff + p * k.ixSize)
    if readFails s pl k.ixSize then badIndex else leNat (placeBytes s pl k.ixSize))

/-- A command restarted from its record at an address: nothing of it is done, and what it has written may be observed (R418). -/
def cmdAt (m : Memory) (a : Nat) (k : Cmd) : Cmd :=
  let w := areaDw m (a + 16)
  let k := { k with
    instr := match decodeRow (w.extractLsb' 0 32) with
      | .ok i => i
      | .error _ => k.instr
    gen := if k.bar then w.extractLsb' 32 16 else k.gen
    ops := (List.range 4).map (fun i => areaDw m (a + 24 + 8 * i))
    b := areaDw m (a + 56)
    done := []
    fails := []
    groups := []
    combined := false
    sent := [] }
  { k with idx := if k.keepsIndices then (List.range k.count).map (fun p => (areaDw m (a + 64 + 8 * p)).toNat) else k.idx }

/-- The commands of an area restored in order. -/
def cmdsAt (m : Memory) : Nat → List Cmd → List Cmd
  | _, [] => []
  | a, k :: l => cmdAt m a k :: cmdsAt m (a + 64 + (if k.keepsIndices then 8 * k.count else 0)) l

/-- Lists of indices that stand in the window are read again. -/
def reread (s : State) (k : Cmd) : Cmd :=
  if k.cls = .gs && !k.ixr then { k with idx := listIndices s k } else if k.sparse then { k with idx := [] } else k

/-- The walk that a walker record continues. -/
def walkAt (m : Memory) (a : Nat) (cs : List Cmd) (stale : Bool) : List SavedWalk :=
  let h := areaDw m a
  match cs.find? (fun k => k.ticket == areaDw m (a + 0x90)) with
  | some k =>
    if tst h 16 then
      [{ cmd := k.id
         pc := fld h 11 0
         count := (areaDw m (a + 8)).toNat
         w := Vector.ofFn (fun i : Fin 16 => if i.val = 0 then 0 else areaDw m (a + 16 + 8 * i.val))
         stale := stale }]
    else []
  | none => []

/-- The lane widths of a core's partitions once h physical rows from row0 on have lane width w (R21, R360). -/
def takeWidth (pw : Vector Nat 6) (row0 h w : Nat) : Vector Nat 6 :=
  Vector.ofFn (fun p : Fin 6 => if row0 / 16 ≤ p.val ∧ p.val ≤ (row0 + h - 1) / 16 then w else pw[p.val])

/-- A PREEMPT of the mailbox holds a band: it is saved, and RESUME has not restored it (R479). DEDUCED: log entry 73. -/
def Band.isHeld (b : Band) : Bool := b.hostHeld && b.preempt == some .saved

/-- A run needs an entry or a granule of a band. -/
def ReservedRun.meets (r : ReservedRun) (b : Band) : Bool :=
  r.core == b.core
    && ((r.pane == b.pane && decide (r.row0 < b.row0 + b.height) && decide (b.row0 < r.row0 + r.height))
      || (decide (r.wbase < b.wbase + b.wsize) && decide (b.wbase < r.wbase + r.wsize)))

/-- The launch that claims may take the place of a saved band: it has a reservation, its PRIO is higher, no PREEMPT of
the mailbox holds the band, and no band that shares its window is in place (R367, R368, R479; DESIGN CHOICE, log entry 32). -/
def mayTake (s : State) (claim : Option Launch) (b : Band) : Bool :=
  match claim, s.launch? b.launch with
  | some l, some k => !l.reserved.isEmpty && decide (k.prio < l.prio) && !b.hostHeld && b.gone s
  | _, _ => false

/-- A partition of a core holds a lane width, or may take it again: none of its entries is leased, or reserved by a launch
(R21, R360). Entries kept for another saved band do not fix it (R417; DESIGN CHOICE, log entry 58). -/
def partHolds (s : State) (g : CoreId) (p w : Nat) : Bool :=
  (s.core g).partW[p]?.getD 0 == w
    || (!s.rows.any (fun r => r.1.core == g && r.1.prow.toNat / 16 == p)
      && !s.launches.any (fun l => l.reserved.any (fun r =>
        r.core == g && decide (r.row0 / 16 ≤ p) && decide (p ≤ (r.row0 + r.height - 1) / 16))))

/-- The rows, with their lane width, and the window of a saved band are free for it (R427), and no reservation that may take
its place waits for them (R364, R368). DESIGN CHOICE: log entry 58. -/
def leasable (s : State) (b : Band) : Bool :=
  (List.range b.height).all (fun i => (s.row? (b.rowName i)).isNone
      && partHolds s b.core ((b.row0 + i) / 16) b.laneW)
    && !s.bands.any (fun k => k.owner != b.owner && k.core == b.core && k.preempt != some .saved
      && decide (k.wbase < b.wbase + b.wsize) && decide (b.wbase < k.wbase + k.wsize))
    && !s.launches.any (fun l => mayTake s (some l) b && l.reserved.any (fun r => r.meets b))

/-- The view of the area of a saved band. DESIGN CHOICE: log entry 58. -/
def areaView (s : State) (b : Band) (a : Nat) : AreaView :=
  let n := fld (areaDw s.mem (a + 0x28)) 31 0
  let seam := match b.held.head? with
    | some (r, x) => if r = b.rowName 0 ∧ x.seam r = true then 64 * b.laneW else 0
    | none => 0
  let cmds := (b.heldCmds.map (fun k => 64 + (if k.keepsIndices then 8 * k.count else 0))).sum
  ⟨s.mem, a, areaMap b.height b.laneW seam b.wsize cmds (32 * n) (fld (areaDw s.mem (a + 0x20)) 63 32)
    (if tst (areaDw s.mem (a + 0x20)) 20 then 192 else 0), n⟩

/-- A line of main memory cannot be read (R110, R112). -/
def lineSick (s : State) (a : Nat) : Bool := s.paFailed a || s.paBad a

/-- The bytes that a restore from an area reads: its header alone, where that cannot be read. -/
def viewLen (s : State) (b : Band) (a : Nat) : Nat :=
  if (List.range 4).any (fun i => lineSick s (a + 64 * i)) then 256 else (areaView s b a).map.stop

/-- The bytes of a window as its band's restore leaves them: those in place, where a band that shares it is; else those of the
newest save area of the bands that share it (R367, R427). DEDUCED: log entry 95. -/
def windowImage (s : State) (b : Band) (v : AreaView) : List Byte :=
  let own := sideKey b.core.toNat b.wbase
  if !b.gone s then memRead s.mem own b.wsize
  else
    let newest := (s.bands.filter (fun k => k.owner == b.owner)).foldl (fun m k => if m.savedAt < k.savedAt then k else m) b
    match newest.saveArea with
    | some a => if newest.id = b.id then memRead v.mem (hbmKey (v.base + v.map.window)) b.wsize
      else memRead s.mem (hbmKey (a + (areaView s newest a).map.window)) b.wsize
    | none => memRead v.mem (hbmKey (v.base + v.map.window)) b.wsize

/-- The band in its place again: the window, the rows, which read the grants in force, the walk, the commands (R387, R427),
the lane width of its partitions (R21). -/
def unshelve (s : State) (b : Band) (v : AreaView) : State :=
  let m := v.mem
  let a := v.base
  let win := sideKey b.core.toNat b.wbase
  let bad := if b.gone s then badWordsIn s win b.wsize else []
  let s := { s with
    mem := memWrite s.mem win (windowImage s b v)
    badWords := s.badWords.filter (fun w => !bad.contains w) }
  let now := (s.core b.core).cycle
  let rows := b.held.map (fun p : RowId × Row =>
    (p.1, (rowAt v now b (p.1.prow.toNat - b.row0) p.1 p.2).seePace s b.core))
  let cs := (cmdsAt m (a + v.map.cmds) b.heldCmds).map (reread s)
  let walks := (cs.filter (fun k => k.cls == .wk)).map Cmd.id
  let resume := if tst (areaDw m (a + 0x20)) 20 then walkAt m (a + v.map.walker) cs b.heldStale else []
  let s := { s with rows := s.rows ++ rows, cmds := s.cmds ++ cs }
  let s := s.modWalker (clusterOf b.core) (fun w => { w with queue := walks ++ w.queue, resume := resume ++ w.resume })
  let s := s.modBand b.id (fun k => { k with
    wid0 := areaDw m (a + 8)
    serial := (areaDw m (a + 0x10)).setWidth 32
    pacereq := areaDw m (a + 0x18)
    preempt := some .restored
    saveArea := none
    saveLen := 0
    savedAt := 0
    held := []
    heldCmds := []
    heldStale := false
    hostHeld := false })
  let s := (rows.filter (fun p => p.2.ctl.trap.isSome)).foldl (fun s p =>
    s.modCore b.core (fun k => { k with trapQ := queueTrap s p.1 now k.trapQ })) s
  s.modCore b.core (fun k => { k with partW := takeWidth k.partW b.row0 b.height b.laneW })

/-- The rows of a unit become ready together once every band of it is restored (R427). DESIGN CHOICE: log entry 32. -/
def readyUnit (s : State) (b : Band) : State :=
  let u := unitOf s b
  if u.all (fun k => k.preempt == some .restored)
  then s.mapBands (fun k => if u.any (fun j => j.id == k.id) then { k with preempt := none } else k) else s

/-- KLOD of a band from an address: the state and the status (R427). A failure ends the launch.
DESIGN CHOICE: log entry 30. -/
def loadBand (s : State) (b : Band) (a : Nat) : State × Byte :=
  if b.preempt != some .saved || !leasable s b then (s, stRange)
  else
    let n := viewLen s b a
    let lines := List.range (n / 64)
    let t := lines.foldl (fun s i => noteLineRead s (a + 64 * i)) s
    if a % 4096 ≠ 0 || hbmEnd < a + n then (endLaunch s b.launch, stRange)
    else if lines.any (fun i => lineSick s (a + 64 * i)) then (endLaunch t b.launch, stUncorrectable)
    else if areaLink s b.core a n then (endLaunch t b.launch, stLink)
    else
      let v := areaView s b a
      let s := unshelve t b v
      match s.band? b.id with
      | some k => (readyUnit s k, stOk)
      | none => (s, stOk)

/-! ### The pool (R421, R422) -/

/-- Bytes of the pool that some bands would need, in whole pages. -/
def poolNeed (s : State) (l : List Band) : Nat := (l.map (fun b => (areaSize s b + 4095) / 4096 * 4096)).sum

/-- Bytes of the pool that save areas take: those in use, and those of bands whose pre-emption has been requested (R422). -/
def poolUsed (s : State) : Nat :=
  (s.bands.map (fun b => if b.saveArea.isSome then (b.saveLen + 4095) / 4096 * 4096 else 0)).sum
  + poolNeed s (s.bands.filter (fun b => b.preempt == some .requested))

/-- The pool can hold the save areas of some bands too. -/
def poolHolds (s : State) (l : List Band) : Bool :=
  decide (poolUsed s + poolNeed s l ≤ fld s.regs.ctxpool 63 40 * 4096)

/-! ### The instructions -/

/-- The band that a selector of KSAV or KLOD names, by any of its rows (DEDUCED, log entry 31). -/
def selBand (s : State) (k : Sel) : Option Band :=
  if k.reserved || k.space != 0 || k.index != 0 then none
  else s.bands.find? (fun b => b.core == k.row.core && b.pane == k.row.pane && decide (b.row0 ≤ k.row.prow.toNat)
    && decide (k.row.prow.toNat < b.row0 + b.height) && b.preempt.isSome)

/-- KSAV and KLOD in privileged mode: the status in sD; a word of handler mode is a handler fault (R408). While a line of
the n bytes at the address waits (R107, R118), the word waits. DEDUCED: log entries 31 and 68. DEDUCED: log entry 68. -/
def contextWord (s : State) (d a b : Reg) (n : Band → Nat → Nat) (f : State → Band → Nat → State × Byte) : Out :=
  monOnly s (fun g m =>
    if m.handles then monReject s g
    else if (selBand s (selOf g (m.sget a))).any (fun k => physHeld s (fld (m.sget b) 39 0) (n k (fld (m.sget b) 39 0)))
    then .next s
    else
      let (t, st) := match selBand s (selOf g (m.sget a)) with
        | some k => f s k (fld (m.sget b) 39 0)
        | none => (s, stRange)
      .next (t.modMon g (fun m => (m.sset d (st.setWidth 64)).advance (m.pc + 4))))

/-- KSAV (R426). -/
def execKsav (d a b : Reg) (s : State) : Out := contextWord s d a b (fun k _ => areaSize s k) saveBand
/-- KLOD (R427). -/
def execKlod (d a b : Reg) (s : State) : Out := contextWord s d a b (fun k adr => viewLen s k adr) loadBand

end Sys2Proof.Machine
end

