-- ==== Sys2Proof/Machine/Launch.lean ====
section
/-! DEFINITION. Launches: the queues, acceptance and its checks, placement, reservations, staging, completion, parked
continuations (R136 to R144, R214, R277, R352 to R368, R279). -/
namespace Sys2Proof.Machine

/-! ### Queues (R352, R353) -/

/-- The state with a queue changed. -/
def State.modQueue (s : State) (q : BitVec 4) (f : LaunchQueue → LaunchQueue) : State :=
  { s with dist := { s.dist with queues := s.dist.queues.set q.toNat (f s.dist.queues[q.toNat]) } }
/-- A queue. -/
def State.queue (s : State) (q : BitVec 4) : LaunchQueue := s.dist.queues[q.toNat]

/-- Entries of the ring; 0 where the queue is disabled (R352). -/
def LaunchQueue.ring (k : LaunchQueue) : Nat := if 1 ≤ k.size.toNat ∧ k.size.toNat ≤ 12 then 2 ^ k.size.toNat else 0
/-- Blocks published and not accepted. -/
def LaunchQueue.count (k : LaunchQueue) : Nat := (k.tail.toNat + k.ring - k.head.toNat % k.ring) % k.ring
/-- Physical address of entry i. -/
def LaunchQueue.entryPa (k : LaunchQueue) (i : Nat) : Nat := k.base.toNat * 256 + i * 256

/-- TAIL written: ignored where it would pass HEAD or names no entry (R353). -/
def LaunchQueue.putTail (k : LaunchQueue) (v : BitVec 12) : LaunchQueue :=
  if k.ring = 0 then { k with tail := v }
  else
    let n := k.ring
    let step := (v.toNat + n - k.tail.toNat % n) % n
    if n ≤ v.toNat ∨ n ≤ k.count + step then k else { k with tail := v }

/-- QTAIL_WRITE (R353): ignored in recovery mode (R475). DEDUCED: log entry 60. -/
def execQtailWrite (q : BitVec 4) (v : BitVec 64) (s : State) : Out :=
  if s.mgmt.bootState = 2 then eventNext s else .next (s.modQueue q (fun k => k.putTail (v.setWidth 12)))

/-- An error record of a queue (R352): MSI-X q where VALID rises. -/
def recordError (s : State) (q : BitVec 4) (st : Byte) (src region entry : Nat) (wid : Dword) : State :=
  let k := s.queue q
  let v := dw (2 ^ 63 + entry * 2 ^ 32 + region * 2 ^ 16 + src * 2 ^ 8 + st.toNat)
  let s1 := s.modQueue q (fun k => { k with err0 := v, err1 := wid })
  if tst k.err0 63 then s1 else raiseMsix s1 q.toNat

/-- A launch that failed is counted (R352). -/
def countError (s : State) (q : BitVec 4) : State :=
  s.modQueue q (fun k => { k with nerr := if k.nerr = BitVec.allOnes 32 then k.nerr else k.nerr + 1 })

/-- HEAD advances past a block; the next head has not been looked at. -/
def LaunchQueue.pass (k : LaunchQueue) : LaunchQueue :=
  { k with head := BitVec.ofNat 12 ((k.head.toNat + 1) % max 1 k.ring), ready := false, failing := false }

/-- The requester of the distributor, on the link die (R354, R358). -/
def distRequester (s : State) (asid : BitVec 6) : Requester := netRequester s asid none 0

/-- The block of an LNCH is one its launch may enqueue: the launch's ASID, and no higher PRIO (R277). -/
def lnchAllowed (s : State) (x : Row) (o : LnchOp) : Bool :=
  match s.band? x.band with
  | none => false
  | some b =>
    match s.launch? b.launch with
    | none => false
    | some l =>
      let h := bytesDw o.block 0
      BitVec.ofNat 6 (fld h 61 56) == l.asid && decide (fld h 50 48 ≤ l.prio)

/-- The distributor's answer to an LNCH: the new state and sD (R277, R353). A block that the launch may not enqueue, on a queue that
is full or disabled, is answered PERMISSION, with FULL 0: the order is the model's choice. DEDUCED: log entry 61. -/
def lnchAnswer (s : State) (x : Row) (o : LnchOp) : State × Dword :=
  let k := s.queue o.queue
  let pa := k.entryPa k.tail.toNat
  if !lnchAllowed s x o then (s, stPermission.setWidth 64)
  else if k.ring = 0 || k.ring ≤ k.count + 1 then (s, dw 0x100)
  else if hbmEnd < pa + 256 then (s, stRange.setWidth 64)
  else if (List.range 4).any (fun i => s.paFailed (pa + 64 * i)) then (s, stUncorrectable.setWidth 64)
  else if s.crossFail then (s, stLink.setWidth 64)
  else
    let t := (List.range 4).foldl (fun s i => placeWrite s (.hbm (pa + 64 * i)) ((o.block.drop (64 * i)).take 64)) s
    (t.modQueue o.queue (fun k => k.putTail (BitVec.ofNat 12 ((k.tail.toNat + 1) % k.ring))), dw (k.tail.toNat * 2 ^ 32))

/-- The distributor's writes of a block wait at the memory (R107, R118). -/
def lnchHeld (s : State) (x : Row) (o : LnchOp) : Bool :=
  let k := s.queue o.queue
  lnchAllowed s x o && physHeld s (k.entryPa k.tail.toNat) 256

/-- LNCH_BLOCK_TAKEN (R277): the block is enqueued or refused, and sD receives the answer. DEDUCED: log entry 61. -/
def execLnchBlockTaken (r : RowId) (s : State) : Out :=
  match s.row? r with
  | none => eventNext s
  | some x =>
    match x.ctl.lnch, x.ctl.trap with
    | some o, none =>
      if lnchHeld s x o || (watchdogDue x).isSome then eventNext s else
      let (t, v) := lnchAnswer s x o
      .next (completeWait t r { x with ctl := { x.ctl with lnch := none } } x.waitD v)
    | _, _ => eventNext s

/-- A wait event is met: whether the slot has reached its value, or the status of its read (R354). -/
def waitMet (s : State) (asid : BitVec 6) (a v : Dword) : State × Except Byte Bool :=
  if a = 0 then (s, .ok true)
  else if !slotAddrOk a then (s, .error stRange)
  else
    match readAddr s (distRequester s asid) a 8 with
    | (s, .ok bs) => (s, .ok (decide (v.toNat ≤ leNat bs)))
    | (s, .error f) => (s, .error f.status)

/-- A wait event's read waits at the memory (R107, R118). -/
def waitHeld (s : State) (asid : BitVec 6) (a : Dword) : Bool :=
  a != 0 && slotAddrOk a && accessHeld s (distRequester s asid) .read a 8

/-- The reads of a queue's head and of its wait slots wait. -/
def pollHeld (s : State) (q : BitVec 4) : Bool :=
  let k := s.queue q
  let a := k.entryPa k.head.toNat
  physHeld s a 256 || (match readPhys s a 256 with
    | (_, .ok bs) =>
      let asid := BitVec.ofNat 6 (fld (bytesDw bs 0) 61 56)
      waitHeld s asid (bytesDw bs 14) || waitHeld s asid (bytesDw bs 16)
    | (_, .error _) => false)

/-- EVENT_SLOT_POLL (R354): the wait slots of a queue's head are read; a block that cannot be read is ready, and is then
rejected (R358). -/
def execEventSlotPoll (q : BitVec 4) (s : State) : Out :=
  let k := s.queue q
  if !k.en || k.ring = 0 || k.count = 0 || pollHeld s q then eventNext s
  else
    match readPhys s (k.entryPa k.head.toNat) 256 with
    | (s, .error _) => .next (s.modQueue q (fun k => { k with ready := true }))
    | (s, .ok bs) =>
      let asid := BitVec.ofNat 6 (fld (bytesDw bs 0) 61 56)
      let (s, w0) := waitMet s asid (bytesDw bs 14) (bytesDw bs 15)
      let (s, w1) := waitMet s asid (bytesDw bs 16) (bytesDw bs 17)
      let fail (st : Byte) : State :=
        let s := if k.failing then s else recordError s q st 2 0 k.head.toNat 0
        s.modQueue q (fun k => { k with ready := false, failing := true })
      match w0, w1 with
      | .error st, _ => .next (fail st)
      | .ok _, .error st => .next (fail st)
      | .ok a, .ok b => .next (s.modQueue q (fun k => { k with ready := a && b, failing := false }))

/-! ### The fields of a launch (R357) -/

/-- LW: the lane width. -/
def Launch.laneW (l : Launch) : Nat := 8 * 2 ^ fld (l.dw 0) 17 16
/-- HEIGHT. -/
def Launch.height (l : Launch) : Nat := fld (l.dw 0) 30 24 + 1
/-- NBS: bands per skein. -/
def Launch.nbs (l : Launch) : Nat := fld (l.dw 0) 43 40 + 1
/-- CLEN: skeins per chain. -/
def Launch.clen (l : Launch) : Nat := fld (l.dw 0) 46 44 + 1
/-- SELV. -/
def Launch.selv (l : Launch) : Bool := tst (l.dw 0) 13
/-- ONEPC. -/
def Launch.onepc (l : Launch) : Bool := tst (l.dw 0) 12
/-- Window size in bytes. -/
def Launch.side (l : Launch) : Nat := (fld (l.dw 1) 7 0 + 1) * 4096
/-- NREG. -/
def Launch.nreg (l : Launch) : Nat := fld (l.dw 1) 12 8
/-- The rows with park rights (R357). -/
def Launch.parks (l : Launch) : List Nat :=
  ([0, 1, 2, 3] : List Nat).filterMap (fun n =>
    if tst (l.dw 1) (23 + 8 * n) then some (fld (l.dw 1) (22 + 8 * n) (16 + 8 * n)) else none)
/-- w_i. -/
def Launch.width (l : Launch) (i : Nat) : Nat := fld (l.dw 6) (8 * i + 7) (8 * i)
/-- extent_i. -/
def Launch.extent (l : Launch) (i : Nat) : Nat := (l.dw (7 + i)).toNat + 1
/-- The skeins of the launch (R359). -/
def Launch.skeins (l : Launch) : Nat := l.extent 2 * l.extent 3 * l.extent 4 * l.extent 5
/-- The pace request (R357). -/
def Launch.request (l : Launch) : Dword := l.dw 13

/-- The coordinates of skein k, fields 2 to 5 (R359). -/
def Launch.coord (l : Launch) (k i : Nat) : Nat :=
  match i with
  | 2 => k % l.extent 2
  | 3 => k / l.extent 2 % l.extent 3
  | 4 => k / (l.extent 2 * l.extent 3) % l.extent 4
  | _ => k / (l.extent 2 * l.extent 3 * l.extent 4)

/-- WID of row 0 of band b of skein k (R359). -/
def Launch.wid (l : Launch) (k b : Nat) : Dword :=
  let w := l.width
  BitVec.ofNat 64 (b * 2 ^ w 0 + l.coord k 2 * 2 ^ (w 0 + w 1) + l.coord k 3 * 2 ^ (w 0 + w 1 + w 2)
    + l.coord k 4 * 2 ^ (w 0 + w 1 + w 2 + w 3) + l.coord k 5 * 2 ^ (w 0 + w 1 + w 2 + w 3 + w 4))

/-! ### Regions (R140 to R142) -/

/-- A region entry (R140). -/
structure Region where
  src : Dword
  stride : Nat
  dst : Nat
  rows : Nat
  bytes : Nat
  xf : Nat
  esz : Nat
  bstep : Dword
  reserved : Bool

/-- The fields of a region entry of four doublewords. -/
def regionOf (d : List Dword) : Region :=
  let a := d.getD 1 0
  let b := d.getD 2 0
  { src := d.getD 0 0
    stride := fld a 31 0
    dst := fld a 51 32
    rows := fld b 15 0 + 1
    bytes := fld b 51 32 + 1
    xf := fld b 57 56
    esz := 2 ^ fld b 59 58
    bstep := d.getD 3 0
    reserved := fld a 63 52 != 0 || fld b 31 16 != 0 || fld b 55 52 != 0 || fld b 63 60 != 0 }

/-- A region passes R142. -/
def Region.ok (g : Region) (wsize : Nat) : Bool :=
  let tag := fld g.src 63 61
  !g.reserved && g.xf != 3 && (tag == 0 || tag == 1 || tag == 2 || tag == 6)
    && (g.xf == 2 || decide (g.dst + g.rows * g.bytes ≤ wsize))
    && (g.xf != 0 || g.bytes % 4 == 0) && (g.xf != 1 || g.bytes % g.esz == 0)
    && (g.xf != 2 || (g.rows == 1 && g.stride == 0)) && g.dst % 64 == 0

/-! ### Occupation of the cores (R360, R361) -/

/-- What is taken: entries, the recorded lane width of each partition, windows, bands and rows with park rights of each
core. -/
structure Occ where
  ents : List RowId
  width : CoreId → Nat → Nat
  wins : List (CoreId × Nat × Nat)
  bands : List CoreId
  parks : List CoreId

/-- A run of entries with its window. -/
abbrev Run := ReservedRun

/-- The entries of a run. -/
def ReservedRun.ents (r : ReservedRun) : List RowId :=
  (List.range r.height).map (fun i => ⟨r.core, r.pane, BitVec.ofNat 7 (r.row0 + i)⟩)

/-- A run covers a row of a partition of a core. -/
def ReservedRun.spans (r : ReservedRun) (g : CoreId) (part : Nat) : Bool :=
  r.core == g && decide (r.row0 / 16 ≤ part) && decide (part ≤ (r.row0 + r.height - 1) / 16)

/-- What a run takes: the partitions it touches have its lane width. -/
def Occ.add (o : Occ) (r : Run) (w parks : Nat) : Occ :=
  { ents := r.ents ++ o.ents
    width := fun g p => if r.spans g p then w else o.width g p
    wins := (r.core, r.wbase, r.wsize) :: o.wins
    bands := r.core :: o.bands
    parks := List.replicate parks r.core ++ o.parks }

/-- An empty package. -/
def Occ.empty : Occ := ⟨[], fun _ _ => 64, [], [], []⟩

/-- The runs of saved bands, whose places stay theirs (R417, R479). -/
def heldRuns (s : State) (p : Band → Bool) : List Run :=
  (s.bands.filter (fun b => b.preempt == some .saved && p b)).map (fun b =>
    ⟨b.core, b.pane, b.row0, b.height, b.wbase, b.wsize⟩)

/-- The recorded lane width of a partition (R360). -/
def State.partWidth (s : State) (g : CoreId) (part : Nat) : Nat := (s.core g).partW[part]?.getD 0

/-- The rows of a band that have park rights and have not exited (R361). -/
def liveParks (s : State) (b : Band) : List Nat :=
  b.parks.filter (fun i => match s.row? (b.rowName i) with
    | some x => x.band == b.id && x.live
    | none => false)

/-- What is taken from the point of view of a launch: leased entries and windows, places of saved bands, and the
reservations of other launches. Entries kept for a saved band (R417) stop a launch that may not take them, and do not fix the
width of their partition for one that may, or for a reservation of higher PRIO whose runs do not cover them (R21; DESIGN CHOICE,
DESIGN CHOICE, log entry 58). -/
def occOf (s : State) (claim : Option Launch) : Occ :=
  let held := heldRuns s (fun b => !mayTake s claim b)
  let others := s.launches.filter (fun k => match claim with | some l => k.id != l.id | none => true)
  let resv := others.flatMap Launch.reserved
  let wins := s.bands.filter (fun b => b.parent.isNone && !(b.preempt == some .saved && mayTake s claim b))
  let resident := s.bands.filter (fun b => b.resident s)
  { ents := s.rows.map (fun p => p.1) ++ (held ++ resv).flatMap ReservedRun.ents
    width := s.partWidth
    wins := wins.map (fun b => (b.core, b.wbase, b.wsize)) ++ resv.map (fun r => (r.core, r.wbase, r.wsize))
    bands := resident.map Band.core
    parks := resident.flatMap (fun b => (liveParks s b).map (fun _ => b.core)) }

/-- A partition of a core has a lane width, or all its entries are free and unreserved and it may take it (R360). -/
def Occ.widthOk (o : Occ) (g : CoreId) (part w : Nat) : Bool :=
  o.width g part == w || o.ents.all (fun p => p.core != g || p.prow.toNat / 16 != part)

/-- Physical rows start to start + h - 1 of a pane are free and of a lane width. -/
def Occ.rowsOk (o : Occ) (g : CoreId) (pane : BitVec 2) (start h w : Nat) : Bool :=
  (List.range h).all (fun i => o.widthOk g ((start + i) / 16) w
    && !o.ents.any (fun p => p.core == g && p.pane == pane && p.prow.toNat == start + i))

/-- FitWindow: the lowest run of free granules of z bytes (R137, R361). -/
def Occ.window (o : Occ) (g : CoreId) (z : Nat) : Option Nat :=
  ((List.range ((2 ^ 20 - z) / 4096 + 1)).map (fun i => i * 4096)).find? (fun a =>
    !o.wins.any (fun w => w.1 == g && decide (w.2.1 < a + z) && decide (a < w.2.1 + w.2.2)))

/-- A core takes one more band, and its rows with park rights (R158, R361). -/
def Occ.coreOk (o : Occ) (g : CoreId) (parks : Nat) : Bool :=
  decide ((o.bands.filter (fun c => c == g)).length < 48)
    && decide ((o.parks.filter (fun c => c == g)).length + parks ≤ 4)

/-- The candidates of FitBand in order: start row, then pane. -/
def runStarts (h w : Nat) : List (Nat × BitVec 2) :=
  ((List.range ((96 - h) / 4 + 1)).map (fun i => i * 4)).flatMap (fun st =>
    (List.range (64 / w)).map (fun p => (st, BitVec.ofNat 2 p)))

/-- FitBand (R361). -/
def Occ.fit (o : Occ) (g : CoreId) (h w z parks : Nat) : Option Run :=
  if !o.coreOk g parks || 96 < h then none
  else
    match o.window g z with
    | none => none
    | some a =>
      ((runStarts h w).find? (fun p => o.rowsOk g p.2 p.1 h w)).map (fun p => ⟨g, p.2, p.1, h, a, z⟩)

/-- The core of a number in a cluster. -/
def clusterCore (cl : ClusterId) (k : Nat) : CoreId := cl ++ BitVec.ofNat 2 k

/-- One band placed on the lowest core of a cluster that takes it (R362). -/
def placeBand (o : Occ) (l : Launch) (cl : ClusterId) : Option Run :=
  ([0, 1, 2, 3] : List Nat).findSome? (fun k => o.fit (clusterCore cl k) l.height l.laneW l.side l.parks.length)

/-- Bands placed one after another. -/
def placeBands (l : Launch) (cl : ClusterId) : Nat → Occ → Option (List Run × Occ)
  | 0, o => some ([], o)
  | n + 1, o =>
    match placeBand o l cl with
    | none => none
    | some r => (placeBands l cl n (o.add r l.laneW l.parks.length)).map (fun p => (r :: p.1, p.2))

/-- The clusters in the order in which a launch tries them (R362). DEDUCED: log entry 63. -/
def clusterOrder (order : Nat) : List ClusterId :=
  (List.range 4).flatMap (fun i => (List.range 16).map (fun c => BitVec.ofNat 6 ((order + i) % 4 * 16 + c)))

/-- A skein placed (R362). avoid holds the clusters that take no band. -/
def placeSkein (o : Occ) (l : Launch) (avoid : ClusterId → Bool) : Option (List Run × Occ) :=
  (clusterOrder l.order).findSome? (fun cl => if avoid cl then none else placeBands l cl l.nbs o)

/-! ### Chains (R366) -/

/-- Band j of a chain that starts at a row of a core column of a die: its core and first row; none past the column, or
past the selvedge's reach. -/
def chainBand (l : Launch) (die col start : Nat) (pane : BitVec 2) (j : Nat) : Option (CoreId × BitVec 2 × Nat) :=
  let a := start + j * l.height
  if a < 768 then some (coreAt die (a / 96) col, pane, a % 96)
  else if l.selv && die < 2 && a < 1536 then some (coreAt (die + 2) ((a - 768) / 96) col, pane, a % 96)
  else none

/-- Each skein of a chain lies in one cluster. -/
def chainAligned (l : Launch) (start : Nat) : Bool :=
  (List.range l.clen).all (fun k =>
    (start + k * l.nbs * l.height) / 192 == (start + (k + 1) * l.nbs * l.height - 1) / 192)

/-- The bands of a chain placed at the places given, or none. -/
def chainRuns (l : Launch) (avoid : ClusterId → Bool) : List (Option (CoreId × BitVec 2 × Nat)) → Occ → Option (List Run × Occ)
  | [], o => some ([], o)
  | none :: _, _ => none
  | some (g, p, r) :: rest, o =>
    if avoid (clusterOf g) || !o.coreOk g l.parks.length || !o.rowsOk g p r l.height l.laneW then none
    else
      match o.window g l.side with
      | none => none
      | some a =>
        let run : Run := ⟨g, p, r, l.height, a, l.side⟩
        (chainRuns l avoid rest (o.add run l.laneW l.parks.length)).map (fun q => (run :: q.1, q.2))

/-- The starts of a chain in order: die, core column, start row, pane. DEDUCED: log entry 63. -/
def chainStarts (l : Launch) : List (Nat × Nat × Nat × BitVec 2) :=
  (List.range 4).flatMap (fun d => (List.range 8).flatMap (fun c =>
    (List.range (768 / l.height)).flatMap (fun i =>
      (List.range (64 / l.laneW)).map (fun p => (d, c, i * l.height, BitVec.ofNat 2 p)))))

/-- A chain placed at the lowest place where all of it fits. -/
def placeChain (o : Occ) (l : Launch) (avoid : ClusterId → Bool) : Option (List Run × Occ) :=
  (chainStarts l).findSome? (fun q =>
    if !chainAligned l q.2.2.1 then none
    else chainRuns l avoid ((List.range (l.clen * l.nbs)).map (chainBand l q.1 q.2.1 q.2.2.1 q.2.2.2)) o)

/-- Skeins placed in one step: one, or those of a chain. -/
def Launch.group (l : Launch) : Nat := if l.isChain then l.clen else 1

/-- The next skein or chain of a launch placed. -/
def placeNext (o : Occ) (l : Launch) (avoid : ClusterId → Bool) : Option (List Run × Occ) :=
  if l.isChain then placeChain o l avoid else placeSkein o l avoid

/-- Every skein of a GANG launch placed. -/
def placeAll (l : Launch) (avoid : ClusterId → Bool) : Nat → Occ → Option (List Run × Occ)
  | 0, o => some ([], o)
  | n + 1, o =>
    match placeNext o l avoid with
    | none => none
    | some (r, o) => (placeAll l avoid n o).map (fun p => (r ++ p.1, p.2))

/-- What a launch places in one step. -/
def placeStep (o : Occ) (l : Launch) (avoid : ClusterId → Bool) : Option (List Run × Occ) :=
  if l.gang then placeAll l avoid (l.skeins / l.group) o else placeNext o l avoid

/-! ### Acceptance (R355, R358) -/

/-- A reserved field of the block is nonzero (R357). -/
def blockReserved (l : Launch) : Bool :=
  let a := l.dw 0
  tst a 15 || fld a 23 18 != 0 || tst a 31 || tst a 39 || tst a 47 || tst a 51 || fld a 63 62 != 0
    || fld (l.dw 1) 15 13 != 0 || fld (l.dw 1) 63 48 != 0 || fld (l.dw 6) 63 48 != 0 || fld (l.dw 13) 63 49 != 0
    || fld (l.dw 21) 7 5 != 0 || fld (l.dw 21) 11 10 != 0 || fld (l.dw 21) 63 13 != 0
    || (List.range 10).any (fun i => l.dw (22 + i) != 0)

/-- An address is a multiple of n below 2^52. DEDUCED: log entry 80. -/
def addrOk (a : Dword) (n : Nat) : Bool := a.toNat % n == 0 && decide (a.toNat < 2 ^ 52)

/-- The checks that need the block only, in order (R358). DEDUCED: log entry 60. -/
def blockCheck (s : State) (l : Launch) : Option Byte :=
  if fld (l.dw 0) 7 0 ≠ 1 || blockReserved l || fld (l.dw 0) 17 16 = 0 || 96 < l.height
      || l.height ≤ fld (l.dw 0) 38 32 || 16 < l.nreg || fld (l.dw 0) 55 52 ≠ l.queue.toNat then some stRange
  else if !addrOk (l.dw 2) (if l.onepc then 4 else 8) || !addrOk (l.dw 4) 8
      || (l.nreg ≠ 0 && !addrOk (l.dw 3) 32) || !addrOk (l.dw 5) 4 || !addrOk (l.dw 18) 8 then some stRange
  else if !tst (s.root l.asid) 0 then some stTranslation
  else none

/-- A chain obeys R366. -/
def chainOk (l : Launch) : Bool :=
  let hs : List Nat := [4, 8, 12, 16, 24, 32, 48, 96]
  if !l.isChain then l.clen == 1
  else l.extent 2 % l.clen == 0 && hs.contains l.height
    && (if l.clen = 1 then decide (l.nbs * l.height ≤ 192)
        else l.nbs * l.height == 192 && (l.selv || decide (l.clen ≤ 4)))

/-- The valid PARKn agree with PARK, name rows of the band, and differ (R358). DEDUCED: log entry 80. -/
def parkOk (l : Launch) : Bool :=
  tst (l.dw 0) 9 == !l.parks.isEmpty && l.parks.all (fun r => decide (r < l.height))
    && l.parks.all (fun r => (l.parks.filter (fun q => q == r)).length == 1)

/-- A region's address is not above 2^52. -/
def regionAddrOk (d : List Dword) : Bool :=
  let a := d.getD 0 0
  fld a 63 61 != 0 || decide (a.toNat ≤ 2 ^ 52)

/-- The checks after the reads, in order (R358). -/
def launchCheck (l : Launch) : Option Byte :=
  let ws := (List.range 6).map l.width
  if 64 < ws.sum || (List.range 6).any (fun i => decide (2 ^ l.width i < l.extent i)) || l.extent 0 ≠ l.height
      || l.extent 1 ≠ l.nbs then some stRange
  else if !parkOk l then some stRange
  else if l.pcs.any (fun p => p.toNat % 4 != 0 || decide (2 ^ 52 < p.toNat)) || !l.regions.all regionAddrOk then some stRange
  else if tst l.request 48 && !paceLegal l.request then some stRange
  else if !l.regions.all (fun d => (regionOf d).ok l.side) then some stRange
  else if !chainOk l then some stRange
  else if (placeBands l 0 l.nbs Occ.empty).isNone then some stRange
  else if l.gang && (placeStep Occ.empty l (fun _ => false)).isNone then some stRange
  else none

/-- Doublewords of some bytes. -/
def dwordsOf (bs : List Byte) (n : Nat) : List Dword := (List.range n).map (bytesDw bs)

/-- A table of n bytes at a virtual address read by the distributor. -/
def distRead (s : State) (l : Launch) (a : Dword) (n : Nat) : State × Except Byte (List Byte) :=
  match readLines s (distRequester s l.asid) a (pieces a n) with
  | (s, .ok bs) => (s, .ok bs)
  | (s, .error e) => (s, .error e.1)

/-- The entry table, the argument block and the region list, read once each (R358). -/
def readTables (s : State) (l : Launch) : State × Except Byte Launch :=
  let (s, p) := if l.onepc then (s, .ok []) else distRead s l (l.dw 2) (8 * l.height)
  match p with
  | .error st => (s, .error st)
  | .ok pb =>
    let (s, a) := if l.dw 4 = 0 then (s, .ok []) else distRead s l (l.dw 4) 120
    match a with
    | .error st => (s, .error st)
    | .ok ab =>
      let (s, g) := if l.nreg = 0 then (s, .ok []) else distRead s l (l.dw 3) (32 * l.nreg)
      match g with
      | .error st => (s, .error st)
      | .ok gb =>
        (s, .ok { l with
          pcs := if l.onepc then [] else dwordsOf pb l.height
          args := dwordsOf ab 15
          regions := (List.range l.nreg).map (fun i => dwordsOf (gb.drop (32 * i)) 4) })

/-- A launch of a block, before its tables are read. -/
def launchOf (s : State) (q : BitVec 4) (bs : List Byte) : Launch :=
  { id := s.nextId
    queue := q
    entry := (s.queue q).head.toNat
    order := s.dist.accepted
    block := dwordsOf bs 32
    pcs := []
    args := []
    regions := []
    nextSkein := 0
    gbarSeq := 0
    gbarOut := []
    waited := 0
    reserved := []
    ended := false }

/-- A head block is rejected (R352, R355). -/
def rejectHead (s : State) (q : BitVec 4) (st : Byte) (src : Nat) : State :=
  (countError (recordError s q st src 0 (s.queue q).head.toNat 0) q).modQueue q LaunchQueue.pass

/-- A head block is read, checked, and accepted or rejected (R355, R358). -/
def takeHead (s : State) (q : BitVec 4) : State :=
  match readPhys s ((s.queue q).entryPa (s.queue q).head.toNat) 256 with
  | (s, .error st) => rejectHead s q st 2
  | (s, .ok bs) =>
    let l := launchOf s q bs
    match blockCheck s l with
    | some st => rejectHead s q st 0
    | none =>
      match readTables s l with
      | (s, .error st) => rejectHead s q st 2
      | (s, .ok l) =>
        match launchCheck l with
        | some st => rejectHead s q st 0
        | none =>
          let s := { s with launches := s.launches ++ [l], dist := { s.dist with accepted := s.dist.accepted + 1 } }
          (s.modQueue q (fun k => { k with nacc := k.nacc + 1 }.pass)).bump

/-- A queue has a ready head that may be accepted (R354, R355). DEDUCED: log entry 60. -/
def headReady (s : State) (q : BitVec 4) : Bool :=
  let k := s.queue q
  k.en && k.ring != 0 && k.count != 0 && k.ready
    && !s.launches.any (fun l => l.queue == q && l.entry == k.head.toNat)

/-- PRIO of the head block of a queue; 0, the lowest, where the block cannot be read: beyond main memory, in a failed channel,
or through an uncorrectable line (R104, R110, R112). DEDUCED: log entry 60. -/
def headPrio (s : State) (q : BitVec 4) : Nat :=
  let k := s.queue q
  match (readPhys s (k.entryPa k.head.toNat) 256).2 with
  | .ok bs => fld (bytesDw bs 0) 50 48
  | .error _ => 0

/-- The queues by number. -/
def allQueues : List (BitVec 4) := (List.range 16).map (BitVec.ofNat 4)

/-- The best of some queues: the highest PRIO, then the lowest number (R355). -/
def bestQueue (s : State) : List (BitVec 4) → Option (BitVec 4)
  | [] => none
  | q :: l =>
    match bestQueue s l with
    | none => some q
    | some p => if headPrio s q < headPrio s p then some p else some q

/-- The queue whose head is accepted next, and its class (R355). -/
def nextHead (s : State) : Option (BitVec 4 × BitVec 2) :=
  ((List.range 4).map (fun i => s.dist.rr + BitVec.ofNat 2 i)).findSome? (fun c =>
    (bestQueue s (allQueues.filter (fun q => (s.queue q).cls == c && headReady s q))).map (fun q => (q, c)))

/-- A table of n bytes that the distributor reads at a virtual address waits at the memory. -/
def tableHeld (s : State) (l : Launch) (a : Dword) (n : Nat) : Bool :=
  (pieces a n).any (fun p => accessHeld s (distRequester s l.asid) .read (a + dw p.1) p.2)

/-- The reads of a head block and of its tables wait at the memory (R107, R118). -/
def headHeld (s : State) (q : BitVec 4) : Bool :=
  let a := (s.queue q).entryPa (s.queue q).head.toNat
  physHeld s a 256 || (match readPhys s a 256 with
    | (_, .ok bs) =>
      let l := launchOf s q bs
      (blockCheck s l).isNone && ((!l.onepc && tableHeld s l (l.dw 2) (8 * l.height))
        || (l.dw 4 != 0 && tableHeld s l (l.dw 4) 120) || (l.nreg != 0 && tableHeld s l (l.dw 3) (32 * l.nreg)))
    | (_, .error _) => false)

/-- LAUNCH_ACCEPT (R355). DEDUCED: log entry 60. -/
def execLaunchAccept (s : State) : Out :=
  if 64 ≤ s.launches.length || s.mgmt.bootState ≠ 1 then eventNext s
  else
    match nextHead s with
    | none => eventNext s
    | some (q, c) => if headHeld s q then eventNext s else .next (takeHead { s with dist := { s.dist with rr := c + 1 } } q)

/-! ### The start of a row (R214, R279) -/

/-- Where a row's ports lead (R224, R302). -/
structure Links where
  northOpen : Bool
  south : Option RowId
  cap : Nat

/-- A row at its start. -/
def startRow (s : State) (l : Launch) (b : Nat) (r : RowId) (ix : Nat) (lw : Nat) (pc wid : Dword) (sv : Vector Dword 32)
    (k : Links) (st : RowStatus) : Row :=
  let f := l.dw 21
  { band := b
    inBand := BitVec.ofNat 7 ix
    status := st
    pc := pc
    ibuf := none
    regs :=
      { s := sv
        v := Vector.replicate 28 zeroLanes
        m := (Vector.replicate 8 0).set 0 (laneMask lw)
        sfull := BitVec.allOnes 32
        vfull := BitVec.allOnes 32
        sbad := 0
        vbad := Vector.replicate 28 0 }
    hints := {}
    repix := 0
    stack := []
    fp := ⟨0, false, BitVec.ofNat 5 (fld f 4 0), BitVec.ofNat 2 (fld f 9 8), tst f 12, false, false⟩
    csr := ⟨wid, pacegWord s r.core, 0, l.dw 20 &&& wdlimFields, 0, 0, 0⟩
    north := ⟨[], [], k.northOpen, false, []⟩
    south := ⟨k.south, k.cap, k.south.isNone, false⟩
    mx := Matrix.start
    prods := []
    posted := []
    cls := Vector.replicate 5 ClassState.start
    ctl := RowCtl.start }

/-- s1 to s15 from the argument block (R214). -/
def Launch.sregs (l : Launch) : Vector Dword 32 :=
  Vector.ofFn (fun i : Fin 32 => if i.val = 0 ∨ 15 < i.val then 0 else l.args.getD (i.val - 1) 0)

/-- The start PC of a row of the band. -/
def Launch.pcOf (l : Launch) (i : Nat) : Dword := if l.onepc then l.dw 2 else l.pcs.getD i 0

/-! ### Staging (R141, R143, R144) -/

/-- A staging command that fails as a whole has no line left. -/
def Cmd.failWhole (k : Cmd) (st : Byte) : Cmd :=
  let k := { k with fails := [(0, st, 0)] }
  if k.sparse then { k with combined := true, ops := k.ops.take 4 ++ [0, 0, 32] }
  else { k with done := k.lines.map (fun p => lineOrder p.1 p.2) }

/-- The command that stages region i of a band (R141). DESIGN CHOICE: log entry 103. -/
def stageCmd (s : State) (l : Launch) (b : Band) (i : Nat) : Cmd :=
  let g := regionOf (l.regions.getD i [])
  let src := g.src + g.bstep * (b.wid0 >>> l.width 0)
  let dst := dw (7 * 2 ^ 61 + b.wbase + g.dst)
  let (instr, ops) : Instr × List Dword := match g.xf with
    | 0 => (.shcp 0 0 0 false false, [dst, src, dw (g.bytes - 1 + (g.rows - 1) * 2 ^ 24), dw (g.bytes * 2 ^ 32 + g.stride)])
    | 1 =>
      let e := match g.esz with | 1 => 0 | 2 => 1 | 4 => 2 | _ => 3
      (.shtr 0 0 false false false,
        [dst, src, dw (e * 2 ^ 32), dw (g.rows * g.esz * 2 ^ 32 + g.stride), dw g.rows, dw (g.bytes / g.esz)])
    | _ => (.shtr 0 0 false false true, [dst, src, 0, 0])
  let k : Cmd :=
    { id := s.nextId
      instr := instr
      src := .staging i
      band := b.id
      launch := l.id
      core := b.core
      cls := .sh
      pos := 0
      ticket := 0
      ops := ops
      b := 0
      idx := []
      gen := 0
      batch := none
      done := []
      fails := []
      sb := []
      groups := []
      combined := false
      sent := []
      timer := 0 }
  let bad := match g.xf with
    | 0 => copyCheck s k
    | 1 => trCheck s k
    | _ => spCheck s k
  match bad with
  | some st => k.failWhole st
  | none => k

/-- Staging of region i begins, or the rows start after the last (R143). -/
def stageNext (s : State) (l : Launch) (b : Band) (i : Nat) : State :=
  if i < l.nreg then
    ({ s with cmds := s.cmds ++ [stageCmd s l b i] } : State).bump.modBand b.id (fun b => { b with region := i })
  else
    let s := s.mapRows (fun r x =>
      if x.band = b.id
      then { x with
        status := .running
        csr := { x.csr with paceg := pacegWord s r.core, paceev := 0 }
        ctl := { x.ctl with hnDue := 0 } } else x)
    s.modBand b.id (fun b => { b with region := i, staged := true })

/-- A staging failure (R144): the launch ends, and the failure is recorded, counted and logged. -/
def stageFail (s : State) (l : Launch) (b : Band) (i : Nat) (st : Byte) : State :=
  let s := recordError (countError s l.queue) l.queue st 1 i l.entry b.wid0
  let s := logRecord s (0x80 + st.toNat * 2 ^ 8 + l.logName + i * 2 ^ 32) b.wid0 0 0 0 0 0
  endLaunch s l.id

/-- The staging command of a band. -/
def stagingOf (s : State) (b : Nat) : Option (Cmd × Nat) :=
  s.cmds.findSome? (fun k =>
    match k.src with
    | .staging i => if k.band = b then some (k, i) else none
    | .row _ => none)

/-- A staging command has done all its lines; of a sparse SHTR, its reading too. -/
def Cmd.stagedOut (k : Cmd) : Bool := k.linesLeft.isEmpty && (!k.sparse || k.combined)

/-- STAGING_REGION_RETIRE (R143, R144). -/
def execStagingRegionRetire (bd : Nat) (s : State) : Out :=
  match stagingOf s bd, s.band? bd with
  | some (k, i), some b =>
    if !k.stagedOut then eventNext s
    else
      let t := { s with cmds := s.cmds.filter (fun c => c.id != k.id), notes := settledNotes k.id [] s.notes }
      match s.launch? b.launch with
      | none => .next (sweepBands t)
      | some l =>
        if l.ended || b.killed then .next (sweepBands t)
        else if k.outcome.1 ≠ stOk then .next (stageFail t l b i k.outcome.1)
        else .next (stageNext t l b (i + 1))
  | _, _ => eventNext s

/-! ### Leasing (R137, R143, R362) -/

/-- Bytes of a window filled with zeros: every cell of it is removed. -/
def memClear (m : Memory) (lo n : Nat) : Memory := m.filter (fun c => decide (c.1 < lo) || decide (lo + n ≤ c.1))

/-- The words of a memory range become good. -/
def clearWindow (s : State) (g : CoreId) (base n : Nat) : State :=
  let k := sideKey g.toNat base
  let bad := badWordsIn s k n
  { s with mem := memClear s.mem k n, badWords := s.badWords.filter (fun w => !bad.contains w) }

/-- The rows that are joined to row i of a run: its north port is fed, its south port leads on (R21, R224, R302). prev and
next are the runs joined by CHAIN. -/
def rowLinks (run : Run) (prev next : Option Run) (i : Nat) : Links :=
  let below : Option RowId :=
    if i + 1 < run.height then some ⟨run.core, run.pane, BitVec.ofNat 7 (run.row0 + i + 1)⟩
    else next.map (fun n => ⟨n.core, n.pane, BitVec.ofNat 7 n.row0⟩)
  let seam := match next with
    | some n => i + 1 == run.height && dieOf n.core != dieOf run.core
    | none => false
  ⟨i == 0 && prev.isNone, below, if seam then 16 else 8⟩

/-- A band leased: its window cleared, its rows created, its staging begun. k is the skein, ix the band in it, chain the
number of its chain. -/
def leaseBand (s : State) (l : Launch) (k ix : Nat) (chain : Option Nat) (run : Run) (prev next : Option Run) : State :=
  let id := s.nextId
  let b : Band :=
    { id := id
      launch := l.id
      skein := k
      bandIx := ix
      nb := l.nbs - 1
      core := run.core
      pane := run.pane
      row0 := run.row0
      height := run.height
      laneW := l.laneW
      wbase := run.wbase
      wsize := run.wsize
      wid0 := l.wid k ix
      lead := fld (l.dw 0) 38 32
      parks := l.parks
      chain := chain
      parent := none
      serial := 0
      pacereq := l.request
      region := 0
      staged := false
      age := s.nextId
      preempt := none
      saveArea := none
      held := []
      heldCmds := []
      heldStale := false
      killed := false
      hostHeld := false }
  let rows := (List.range run.height).map (fun i =>
    let r : RowId := ⟨run.core, run.pane, BitVec.ofNat 7 (run.row0 + i)⟩
    (r, startRow s l id r i l.laneW (l.pcOf i) (b.wid0 + dw i) l.sregs (rowLinks run prev next i) .staging))
  let s := clearWindow s run.core run.wbase run.wsize
  let s := { s with bands := s.bands ++ [b], rows := s.rows ++ rows }
  let s := s.modCore run.core (fun c => { c with partW := takeWidth c.partW run.row0 run.height l.laneW })
  stageNext s.bump l b 0

/-- The bands of runs leased in order, starting at band n of the launch's order. -/
def leaseRuns (l : Launch) (n : Nat) (prev : Option Run) : List Run → State → State
  | [], s => s
  | run :: rest, s =>
    let k := n / l.nbs
    let chain := if l.isChain then some (k / l.clen) else none
    let joins (m : Nat) : Bool := l.isChain && m / l.nbs / l.clen == k / l.clen
    let nx := if joins (n + 1) then rest.head? else none
    let pv := if n = 0 then none else if joins (n - 1) then prev else none
    leaseRuns l (n + 1) (some run) rest (leaseBand s l k (n % l.nbs) chain run pv nx)

/-- A parked continuation that can start now: its place (R367); it takes the park rights of the row that parked, and waits while
the window that it shares is away (R351). DEDUCED: log entry 62. DEDUCED: log entry 95. -/
def contPlace (s : State) (c : Continuation) : Option (RowId × Nat) :=
  if c.result.isNone || (s.band? c.band).any (Band.gone s) then none
  else
    let o := occOf s none
    if 48 ≤ (o.bands.filter (fun g => g == c.core)).length then none
    else
      ((List.range 24).flatMap (fun i => (List.range (64 / c.laneW)).map (fun p => (4 * i, BitVec.ofNat 2 p)))).findSome?
        (fun q => if o.rowsOk c.core q.2 q.1 1 c.laneW then some (⟨c.core, q.2, BitVec.ofNat 7 q.1⟩, q.1) else none)

/-- A pace change is pending in the cluster: no band is placed there (R385). -/
def placeAvoid (s : State) (cl : ClusterId) : Bool := paceBusy s cl

/-- A launch has a skein to place, and may place it now. -/
def wantsPlace (s : State) (l : Launch) : Bool :=
  !l.ended && decide (l.nextSkein < l.skeins) && !(s.bandsOf l.id).any Band.isHeld

/-- The runs of a reservation fit now, one after another (R361, R364). -/
def runsFit (l : Launch) (avoid : ClusterId → Bool) : List Run → Occ → Bool
  | [], _ => true
  | r :: rest, o =>
    !avoid (clusterOf r.core) && o.coreOk r.core l.parks.length && o.rowsOk r.core r.pane r.row0 r.height l.laneW
      && !o.wins.any (fun w => w.1 == r.core && decide (w.2.1 < r.wbase + r.wsize) && decide (r.wbase < w.2.1 + w.2.2))
      && runsFit l avoid rest (o.add r l.laneW l.parks.length)

/-- The runs that a launch's next step of placement takes now: of its reservation, once all of it is free, or those of
R362. -/
def placeRuns (s : State) (l : Launch) : Option (List Run) :=
  if !wantsPlace s l then none
  else
    let o := occOf s (some l)
    if l.reserved.isEmpty then (placeStep o l (placeAvoid s)).map (fun p => p.1)
    else if runsFit l (placeAvoid s) l.reserved o then some l.reserved else none

/-- Launches that the distributor offers a resource before launch l (R363). -/
def launchesAhead (s : State) (l : Launch) : List Launch :=
  s.launches.filter (fun k => decide (l.prio < k.prio) || (k.prio == l.prio && decide (k.id < l.id)))

/-- SKEIN_PLACE (R362): every band of the next skein, chain or GANG launch is leased in one step. Continuations and the
launches ahead come first (R363, R367). -/
def execSkeinPlace (l : Nat) (s : State) : Out :=
  match s.launch? l with
  | none => eventNext s
  | some k =>
    if s.conts.any (fun c => (contPlace s c).isSome) || (launchesAhead s k).any (fun a => (placeRuns s a).isSome)
    then eventNext s
    else
      match placeRuns s k with
      | none => eventNext s
      | some runs =>
        let n := if k.gang then k.skeins else k.group
        let s := s.modLaunch l (fun k => { k with nextSkein := k.nextSkein + n, waited := 0, reserved := [] })
        .next (leaseRuns k (k.nextSkein * k.nbs) none runs s)

/-! ### Reservations (R364, R368) -/

/-- The distributor's cycles after which a launch reserves (R364). -/
def reserveAfter : Nat := 2 ^ 16

/-- What no reservation may use: the reservations of others; leased entries and windows count as free, and so do the resident bands
and park-right rows that the limits of a core count (R361, R364; DESIGN CHOICE, log entry 32). -/
def occReserved (s : State) (l : Launch) (taken : List Run) : Occ :=
  let others := s.launches.filter (fun k => k.id != l.id)
  let resv := others.flatMap Launch.reserved
  taken.foldl (fun o r => o.add r l.laneW l.parks.length)
    { ents := resv.flatMap ReservedRun.ents
      width := s.partWidth
      wins := resv.map (fun r => (r.core, r.wbase, r.wsize))
      bands := []
      parks := [] }

/-- Leased entries that a run covers. -/
def runCost (s : State) (r : Run) : Nat :=
  (s.rows.filter (fun p => p.1.core == r.core && p.1.pane == r.pane && decide (r.row0 ≤ p.1.prow.toNat)
    && decide (p.1.prow.toNat < r.row0 + r.height))).length

/-- The cheaper of two, the first among equals. -/
def cheaper {α : Type} (a b : Option (Nat × α)) : Option (Nat × α) :=
  match a, b with
  | some x, some y => if y.1 < x.1 then some y else some x
  | some x, none => some x
  | none, y => y

/-- The cheapest of a list, the first among equals. -/
def cheapest {α : Type} (l : List (Nat × α)) : Option (Nat × α) := l.foldl (fun m x => cheaper m (some x)) none

/-- The run of a core with the fewest leased entries (R364). -/
def reserveRun (s : State) (o : Occ) (l : Launch) (g : CoreId) : Option (Nat × Run) :=
  match (if o.coreOk g l.parks.length then o.window g l.side else none) with
  | none => none
  | some a => cheapest (((runStarts l.height l.laneW).filter (fun p => o.rowsOk g p.2 p.1 l.height l.laneW)).map (fun p =>
      let r : Run := ⟨g, p.2, p.1, l.height, a, l.side⟩
      (runCost s r, r)))

/-- Bands of a skein reserved in a cluster, on the lowest core that takes each, and the entries they cover. -/
def reserveBands (s : State) (l : Launch) (cl : ClusterId) : Nat → Occ → Option (Nat × List Run)
  | 0, _ => some (0, [])
  | n + 1, o =>
    match ([0, 1, 2, 3] : List Nat).findSome? (fun k => reserveRun s o l (clusterCore cl k)) with
    | none => none
    | some (c, r) => (reserveBands s l cl n (o.add r l.laneW l.parks.length)).map (fun p => (c + p.1, r :: p.2))

/-- A cluster holds another launch's reservation. -/
def reservedByOther (s : State) (l : Launch) (cl : ClusterId) : Bool :=
  s.launches.any (fun k => k.id != l.id && k.reserved.any (fun r => clusterOf r.core == cl))

/-- The runs a launch would reserve for a skein or a chain; open excludes clusters held by others.
DEDUCED: log entry 63. -/
def reserveNext (s : State) (l : Launch) (taken : List Run) (skip : Bool) : Option (List Run) :=
  let o := occReserved s l taken
  let avoid (cl : ClusterId) : Bool := skip && reservedByOther s l cl
  if l.isChain then
    (cheapest ((chainStarts l).filterMap (fun q =>
      if !chainAligned l q.2.2.1 then none
      else (chainRuns l avoid ((List.range (l.clen * l.nbs)).map (chainBand l q.1 q.2.1 q.2.2.1 q.2.2.2)) o).map
        (fun p => ((p.1.map (runCost s)).sum, p.1))))).map (fun p => p.2)
  else
    (cheapest ((List.range 64).filterMap (fun c =>
      let cl : ClusterId := BitVec.ofNat 6 c
      if avoid cl then none else reserveBands s l cl l.nbs o))).map (fun p => p.2)

/-- Runs for every skein of a GANG launch, or the runs that it would choose where no cluster free of other reservations
takes the next skein (R364). -/
def reserveAll (s : State) (l : Launch) : Nat → List Run → Except (List Run) (List Run)
  | 0, acc => .ok acc
  | n + 1, acc =>
    match reserveNext s l acc true with
    | none => .error ((reserveNext s l acc false).getD [])
    | some r => reserveAll s l n (acc ++ r)

/-- The runs that a launch due to reserve would choose, and whether it may have them where no older launch queues for their
clusters (R364). DEDUCED: log entry 63. -/
def reserveWish (s : State) (l : Launch) : List Run × Bool :=
  if l.gang then
    match reserveAll s l (l.skeins / l.group) [] with
    | .ok r => (r, true)
    | .error r => (r, false)
  else
    match reserveNext s l [] false with
    | some r => (r, r.all (fun x => !reservedByOther s l (clusterOf x.core)))
    | none => ([], false)

/-- A launch is due to reserve. -/
def reserveDue (s : State) (l : Launch) : Bool :=
  wantsPlace s l && l.reserved.isEmpty && decide (reserveAfter ≤ l.waited)

/-- A launch due to reserve has waited longer than another: it stands before it in the queue for a cluster (R364).
DEDUCED: log entry 63. -/
def queuesBefore (j k : Launch) : Bool := decide (k.waited < j.waited) || (j.waited == k.waited && decide (j.id < k.id))

/-- The runs that a launch reserves now: those it chooses, in clusters that hold no other reservation and for which no older
launch queues (R364). -/
def reserveNow (s : State) (k : Launch) : Option (List Run) :=
  let (runs, free) := reserveWish s k
  let first := s.launches.all (fun j => !(j.id != k.id && reserveDue s j && queuesBefore j k
    && (reserveWish s j).1.any (fun a => runs.any (fun r => clusterOf r.core == clusterOf a.core))))
  if reserveDue s k && free && !runs.isEmpty && first then some runs else none

/-- A band is in the way of a reservation of a launch and is pre-empted for it: it is resident in its runs, of a PREEMPTIBLE
launch of lower PRIO, and no pre-emption of it has been requested (R368). -/
def blocks (s : State) (l : Launch) (b : Band) : Bool :=
  b.resident s && b.preempt.isNone && l.reserved.any (fun r => r.meets b) && (match s.launch? b.launch with
    | some k => k.preemptible && decide (k.prio < l.prio)
    | none => false)

/-- A unit has an NRED in flight (R420). -/
def unitReduces (s : State) (b : Band) : Bool :=
  s.cmds.any (fun k => k.nredOp.isSome && (unitOf s b).any (fun u => u.id == k.band))

/-- The distributor requests pre-emption of every blocker of a launch's reservation together, the whole chain of a band in a
chain, once each may be pre-empted, none has an NRED in flight, and the pool holds all their areas (R368, R420, R421).
DEDUCED: log entry 96. -/
def requestBlockers (s : State) (id : Nat) : State :=
  match s.launch? id with
  | none => s
  | some l =>
    let bs := s.bands.filter (blocks s l)
    let units := s.bands.filter (fun u => bs.any (fun b => (unitOf s b).any (fun k => k.id == u.id)))
    if bs.all (fun b => canPreempt s b && !unitReduces s b) && poolHolds s units
    then bs.foldl (fun s b => match s.band? b.id with
      | some k => if k.preempt.isNone then requestPreempt s k else s
      | none => s) s
    else s

/-- A launch reserves runs, and what is in their way is pre-empted (R364, R368). -/
def reserveFor (s : State) (k : Launch) : Out :=
  match reserveNow s k with
  | none => eventNext s
  | some runs => .next (requestBlockers (s.modLaunch k.id (fun k => { k with reserved := runs })) k.id)

/-- SKEIN_RESERVATION (R364, R368). -/
def execSkeinReservation (l : Nat) (s : State) : Out :=
  match s.launch? l with
  | none => eventNext s
  | some k => if k.gang then eventNext s else reserveFor s k

/-- GANG_RESERVATION (R364, R368): runs for every skein at once. -/
def execGangReservation (l : Nat) (s : State) : Out :=
  match s.launch? l with
  | none => eventNext s
  | some k => if k.gang then reserveFor s k else eventNext s

/-! ### Completion (R356) and continuations (R367) -/

/-- A launch has nothing left to do. -/
def launchDone (s : State) (l : Launch) : Bool :=
  (l.ended || decide (l.skeins ≤ l.nextSkein)) && (s.bandsOf l.id).isEmpty && !s.cmds.any (fun k => k.launch == l.id)
    && !s.conts.any (fun k => k.launch == l.id)

/-- The signal of a launch that has completed. -/
def launchSignal (s : State) (l : Launch) : State :=
  if l.ended || l.dw 18 = 0 then s
  else
    let (t, st) := updateSlot s (distRequester s l.asid) (l.dw 18) (l.dw 19) false
    if st = stOk then t else recordError t l.queue st 2 0 l.entry 0

/-- LAUNCH_COMPLETE (R356, R371): the signal is made and the launch's slots lose their owner. -/
def execLaunchComplete (l : Nat) (s : State) : Out :=
  let s := sweepBands s
  match s.launch? l with
  | none => eventNext s
  | some k =>
    if !launchDone s k || (!k.ended && k.dw 18 != 0 && slotHeld s (distRequester s k.asid) (k.dw 18) false) then eventNext s
    else
      let s := launchSignal s k
      let s := { s with launches := s.launches.filter (fun j => j.id != l) }
      let s := ownerDone s l
      .next { s with clusters := s.clusters.map (fun c => { c with stale := c.stale.filter (fun p => p.1 != l) }) }

/-- A continuation starts as a band of one row (R367). DEDUCED: log entry 62. -/
def startCont (s : State) (l : Launch) (b : Band) (c : Continuation) (r : RowId) : State :=
  let id := s.nextId
  let nb : Band := { b with
    id := id
    core := r.core
    pane := r.pane
    row0 := r.prow.toNat
    height := 1
    laneW := c.laneW
    wid0 := c.wid
    lead := 0
    parks := if c.park then [0] else []
    chain := none
    parent := some (b.parent.getD b.id)
    serial := 0
    pacereq := l.request
    staged := true
    age := s.nextId
    preempt := none
    saveArea := none
    held := []
    heldCmds := []
    heldStale := false
    killed := false
    hostHeld := false }
  let sv : Vector Dword 32 := Vector.ofFn (fun i : Fin 32 => if i.val = 0 ∨ 15 < i.val then 0 else c.s[i.val])
  let x := startRow s l id r 0 c.laneW c.pc c.wid sv ⟨true, none, 8⟩ .running
  let x := { x with csr := { x.csr with blast := c.last } }
  let s := { s with conts := s.conts.filter (fun k => k.id != c.id), bands := s.bands ++ [nb], rows := s.rows ++ [(r, x)] }
  (s.modCore r.core (fun k => { k with partW := takeWidth k.partW r.prow.toNat 1 c.laneW })).bump

/-- CONTINUATION_START (R367). DEDUCED: log entry 62. -/
def execContinuationStart (k : Nat) (s : State) : Out :=
  match s.conts.find? (fun c => c.id == k) with
  | none => eventNext s
  | some c =>
    match contPlace s c, s.launch? c.launch, s.band? c.band with
    | some (r, _), some l, some b =>
      if paceBusy s (clusterOf c.core) then eventNext s else .next (startCont s l b c r)
    | _, _, _ => eventNext s

end Sys2Proof.Machine
end

