-- ==== Sys2Proof/Machine/Pace.lean ====
section
/-! DEFINITION. The pace arbiter, pace changes, rationing and pulse skipping (R379 to R393). -/
namespace Sys2Proof.Machine

/-! ### Points and requests (R380, R382) -/

/-- Of two points the lower: less power, then less M, then less V (R380). -/
def lowerPoint (a b : FusedPoint) : FusedPoint :=
  if a.mw < b.mw ∨ (a.mw = b.mw ∧ (a.m < b.m ∨ (a.m = b.m ∧ a.v ≤ b.v))) then a else b

/-- The lowest point of a table (R380). -/
def Pace.lowest (p : Pace) : FusedPoint :=
  match p.fuses with
  | [] => ⟨p.m, p.v, p.mv, 0⟩
  | f :: l => l.foldl lowerPoint f

/-- The resident bands of a cluster. -/
def residents (s : State) (cl : ClusterId) : List Band :=
  s.bands.filter (fun b => clusterOf b.core == cl && b.resident s)

/-- All clusters. -/
def allClusters : List ClusterId := (List.range 64).map (BitVec.ofNat 6)
/-- All dies. -/
def allDies : List DieId := [0, 1, 2, 3]

/-- PREQ of a request (R391). -/
def preq (v : Dword) : Bool := tst v 48

/-- Priority and age of a band's launch, for the choice of R382: PRIO, then the earliest accepted. -/
def Band.rank (s : State) (b : Band) : Nat × Nat :=
  match s.launch? b.launch with
  | some l => (l.prio, l.order)
  | none => (0, 0)

/-- The band whose request decides for a cluster (R382); of bands of one launch the first placed (DESIGN CHOICE, log entry 105). -/
def decidingBand (s : State) (l : List Band) : Option Band :=
  (l.filter (fun b => preq b.pacereq)).foldl (fun m b => match m with
    | some c =>
      let x := b.rank s
      let y := c.rank s
      if y.1 < x.1 ∨ (x.1 = y.1 ∧ x.2 < y.2) then some b else some c
    | none => some b) none

/-- The request of a cluster: M, V and their weights (R382). -/
def clusterRequest (s : State) (cl : ClusterId) : Nat × Nat × Nat × Nat :=
  match decidingBand s (residents s cl) with
  | some b => (fld b.pacereq 7 0, fld b.pacereq 15 8, fld b.pacereq 35 32, fld b.pacereq 39 36)
  | none =>
    let p := (s.cluster cl).pace
    (p.m, p.v, 1, 1)

/-- The highest value of a field of the requests of some bands, or none (R382). -/
def highestRequest (l : List Band) (hi lo : Nat) : Option Nat :=
  (l.filter (fun b => preq b.pacereq)).foldl (fun m b => some (max (m.getD 0) (fld b.pacereq hi lo))) none

/-- The N request of the package (R382). -/
def requestN (s : State) : Nat := (highestRequest (s.bands.filter (fun b => b.resident s)) 23 16).getD s.n
/-- The H request of a die (R382). -/
def requestH (s : State) (d : DieId) : Nat :=
  (highestRequest (s.bands.filter (fun b => dieOf b.core == d && b.resident s)) 31 24).getD (s.die d).h

/-- A stack of a die is High (R117). -/
def dieHigh (s : State) (d : DieId) : Bool :=
  (List.range 3).any (fun i => (s.hbmStacks[3 * d.toNat + i]?.getD ⟨false, false⟩).high)

/-! ### The arbiter (R383) -/

/-- P_N in milliwatts. -/
def powerN (n : Nat) : Nat := 80000 + 10000 * n
/-- P_H of a stack in milliwatts. -/
def powerH (h : Nat) : Nat := if h ≤ 10 then 35000 else if h ≤ 12 then 40000 else 45000

/-- The clusters with a resident band. -/
def activeClusters (s : State) : List ClusterId := allClusters.filter (fun c => !(residents s c).isEmpty)

/-- What remains for the active clusters, in milliwatts, with N and the H of each die. DEDUCED: log entry 64. -/
def sharedPower (s : State) (active : Nat) (n : Nat) (h : DieId → Nat) : Int :=
  (s.mgmt.cap * 1000 : Int) - powerN n - ((allDies.map (fun d => 3 * powerH (h d))).sum : Nat)
    - (12000 * (64 - active) : Nat)

/-- Every active cluster finds a point within the share. -/
def solvable (s : State) (active : List ClusterId) (n : Nat) (h : DieId → Nat) : Bool :=
  let t := sharedPower s active.length n h
  active.all (fun c => decide (((s.cluster c).pace.lowest.mw * active.length : Nat) ≤ t))

/-- The N of the round: the highest value not above the request with a solution, every H at its lowest; else 8.
DEDUCED: log entry 64. -/
def decideN (s : State) (active : List ClusterId) : Nat :=
  (([16, 15, 14, 13, 12, 11, 10, 9, 8] : List Nat).find? (fun n =>
    decide (n ≤ requestN s) && solvable s active n (fun _ => 10))).getD 8

/-- The H values of the round, die by die in ascending order. DEDUCED: log entry 64. -/
def decideH (s : State) (active : List ClusterId) (n : Nat) : List DieId → (DieId → Nat) → DieId → Nat
  | [], h => h
  | d :: l, h =>
    let ok (v : Nat) := decide (v ≤ requestH s d) && (decide (v ≤ 10) || !dieHigh s d)
      && solvable s active n (fun e => if e = d then v else h e)
    let v := (([14, 12, 10] : List Nat).find? ok).getD 10
    decideH s active n l (fun e => if e = d then v else h e)

/-- The distance of two multipliers. -/
def distTo (a b : Nat) : Nat := (a - b) + (b - a)

/-- Of two points the better for a request: the smaller distance, then the higher M, then the higher V (R383). -/
def betterPoint (q : Nat × Nat × Nat × Nat) (a b : FusedPoint) : FusedPoint :=
  let d (p : FusedPoint) := q.2.2.1 * distTo p.m q.1 + q.2.2.2 * distTo p.v q.2.1
  if d a < d b ∨ (d a = d b ∧ (b.m < a.m ∨ (a.m = b.m ∧ b.v ≤ a.v))) then a else b

/-- The point of an active cluster (R383 step 4). -/
def decidePoint (s : State) (cl : ClusterId) (total : Int) (active : Nat) : FusedPoint :=
  let p := (s.cluster cl).pace
  match p.fuses.filter (fun f => decide (((f.mw * active : Nat) : Int) ≤ total)) with
  | [] => p.lowest
  | f :: l => l.foldl (fun a b => betterPoint (clusterRequest s cl) b a) f

/-- The waits of the rows held in a cluster begin again: the hold ends (R385, R395). The pending change is still set. -/
def releaseHeld (s : State) (cl : ClusterId) : State :=
  s.mapRows (fun r x =>
    if clusterOf r.core = cl ∧ paceHeld s r x then { x with ctl := { x.ctl with wait := x.ctl.wait.map (fun w => { w with count := 0 }) } }
    else x)

/-- The state with the pace of a cluster changed. -/
def State.modPace (s : State) (cl : ClusterId) (f : Pace → Pace) : State :=
  s.modCluster cl (fun c => { c with pace := f c.pace })

/-- A decision for a cluster's M and V: the grant in force withdraws a pending change; another becomes pending, or replaces
its target without starting its count again (R383, R385). While the clocks are stopped for a switch, the decision is kept
and taken when they restart. DEDUCED: log entry 87. -/
def decideCluster (s : State) (cl : ClusterId) (f : FusedPoint) : State :=
  let p := (s.cluster cl).pace
  if p.switching then s.modPace cl (fun p => { p with next := some (f.m, f.v) })
  else if f.m = p.m ∧ f.v = p.v then
    (if p.pending.isSome then (releaseHeld s cl).modPace cl (fun p => { p with pending := none, pendCount := 0 }) else s)
  else s.modPace cl (fun p => { p with
    pending := some (f.m, f.v)
    pendCount := if p.pending.isSome then p.pendCount else 0 })

/-- A round of the arbiter: N, each H, the shares and the points (R383). -/
def arbiterRound (s : State) : State :=
  let active := activeClusters s
  let n := decideN s active
  let h := decideH s active n allDies (fun _ => 10)
  let total := sharedPower s active.length n h
  let t := { s with pendingN := if n = s.n then none else some n }
  let t := allDies.foldl (fun t d => t.modDie d (fun k => { k with pendingH := if h d = k.h then none else some (h d) })) t
  allClusters.foldl (fun t c =>
    if active.contains c then
      decideCluster (t.modPace c (fun p => { p with shareNum := total.toNat, shareDen := active.length })) c
        (decidePoint s c total active.length)
    else decideCluster (t.modPace c (fun p => { p with shareNum := 0, shareDen := 0 })) c (s.cluster c).pace.lowest) t

/-- ARBITER_ROUND (R383), once the device is ready. DEDUCED: log entry 65. -/
def execArbiterRound (s : State) : Out :=
  if s.mgmt.bootState = 1 then .next (arbiterRound s) else eventNext s

/-! ### Applying a change (R384 to R388) -/

/-- A band stands at a boundary: every resident row is at a boundary point, or its pre-emption has been requested (R384). -/
def bandStands (s : State) (b : Band) : Bool :=
  b.preempt.isSome || (s.rowsOf b.id).all (fun p => !p.2.live || p.2.atBoundary)

/-- V-cycles after which a pending change is abandoned (R385). -/
def abandonAfter : Nat := 2 ^ 16

/-- PACE_SWITCH (R386): every resident band of the cluster stands at a boundary, within the V-cycles that R385 allows.
DEDUCED: log entry 65. -/
def execPaceSwitch (cl : ClusterId) (s : State) : Out :=
  let p := (s.cluster cl).pace
  if p.pending.isSome && !p.switching && decide (p.pendCount < abandonAfter) && (residents s cl).all (bandStands s)
  then .next (s.modPace cl (fun p => { p with switching := true })) else eventNext s

/-- The trace records of a switch or an abandonment: one for each launch with bands in the cluster, at the lowest core
that holds one. DEDUCED: log entry 48. -/
def tracePace (s : State) (cl : ClusterId) (gone : Nat) : State :=
  let bs := residents s cl
  (bs.map (fun b => b.launch)).dedup.foldl (fun s l =>
    let cores := (bs.filter (fun b => b.launch == l)).map (fun b => b.core.toNat)
    let g : CoreId := BitVec.ofNat 8 (cores.foldl min 255)
    traceRecord s l g none 5 (pacegWord s g).toNat gone) s

/-- The rail of a point of a table. -/
def Pace.railOf (p : Pace) (m v : Nat) : Nat :=
  match p.fuses.find? (fun f => f.m == m && f.v == v) with
  | some f => f.mv
  | none => p.mv

/-- A change of a domain of a cluster has been applied (R389). -/
def Pace.applied (p : Pace) : Pace := { p with seq := p.seq + 1 }

/-- Every resident row of a cluster reads the grants in force (R387). -/
def showPace (s : State) (cl : ClusterId) : State :=
  s.mapRows (fun r x => if clusterOf r.core = cl then x.seePace s r.core else x)

/-- PACE_SWITCH_COMPLETE (R387): the clocks restart at the new grant, every resident row reads it, held rows are released. -/
def execPaceSwitchComplete (cl : ClusterId) (s : State) : Out :=
  let p := (s.cluster cl).pace
  match p.pending with
  | some (m, v) =>
    if p.switching then
      let t := s.modPace cl (fun p => { p with
        m := m
        v := v
        mv := p.railOf m v
        seq := p.seq + 1 })
      let t := (releaseHeld (tracePace (showPace t cl) cl 0) cl).modPace cl (fun p => { p with
        pending := none
        pendCount := 0
        switching := false
        next := none })
      .next (match p.next with
        | some (m, v) => decideCluster t cl ⟨m, v, 0, 0⟩
        | none => t)
    else eventNext s
  | none => eventNext s

/-- PACE_CHANGE_ABANDON (R385). -/
def execPaceChangeAbandon (cl : ClusterId) (s : State) : Out :=
  let p := (s.cluster cl).pace
  if p.pending.isSome && !p.switching && decide (abandonAfter ≤ p.pendCount)
  then .next (tracePace ((releaseHeld s cl).modPace cl (fun p => { p with pending := none, pendCount := 0 })) cl 1)
  else eventNext s

/-- Every row whose core is of a kind, a saved one too, has an H or N change to see at its next boundary point (R387, R390). -/
def noteHN (s : State) (p : CoreId → Bool) (bit : BitVec 5) : State :=
  let note (r : RowId) (x : Row) : Row := if p r.core then { x with ctl := { x.ctl with hnDue := x.ctl.hnDue ||| bit } } else x
  (s.mapRows note).mapBands (fun b => { b with held := b.held.map (fun q : RowId × Row => (q.1, note q.1 q.2)) })

/-- An H change of a die applied; one above 10 waits while a stack of the die is High (R379). DEDUCED: log entry 64. -/
def applyH (s : State) (d : DieId) : State :=
  match (s.die d).pendingH with
  | some h =>
    if decide (10 < h) && dieHigh s d then s else
    let t := noteHN s (fun g => dieOf g == d) 8
    let t := t.modDie d (fun k => { k with h := h, pendingH := none })
    { t with clusters := Vector.ofFn (fun i : Fin 64 =>
        let c := t.clusters[i.val]
        if clusterDie (BitVec.ofNat 6 i.val) = d then { c with pace := c.pace.applied } else c) }
  | none => s

/-- An N change of the package applied. DEDUCED: log entry 64. -/
def applyN (s : State) : State :=
  match s.pendingN with
  | some n =>
    let s := noteHN s (fun _ => true) 4
    { s with n := n, pendingN := none, clusters := s.clusters.map (fun c => { c with pace := c.pace.applied }) }
  | none => s

/-- PACE_HN_APPLY (R387): pending changes of N and H take effect; a row sees them at its next boundary point. -/
def execPaceHnApply (s : State) : Out := eventNext (allDies.foldl applyH (applyN s))

/-! ### Rationing and skipping (R392, R393) -/

/-- RATION_MEASURE (R392): a cluster's measured power in milliwatts against its share. DEDUCED: log entry 64. -/
def execRationMeasure (cl : ClusterId) (mw : Nat) (s : State) : Out :=
  eventNext (s.modPace cl (fun p =>
    if p.shareDen = 0 then p
    else if p.shareNum < mw * p.shareDen then { p with ration := min 3 (p.ration + 1) }
    else if 10 * (mw * p.shareDen) < 9 * p.shareNum then { p with ration := p.ration - 1 } else p))

/-- Pulses are withheld in a cluster: THR is set in every resident row (R393). -/
def markSkipping (s : State) (cl : ClusterId) : State :=
  s.mapRows (fun r x =>
    if clusterOf r.core = cl then { x with csr := { x.csr with paceev := x.csr.paceev ||| 0x10 } } else x)

/-- Pulses are being withheld in a cluster. -/
def Pace.skips (p : Pace) : Bool := p.skip != 0 || p.overcurrent

/-- JUNCTION_THROTTLE (R393): level 0 ends skipping, 1 is one pulse in 2, 2 one pulse in 4; 3 names no threshold. -/
def execJunctionThrottle (cl : ClusterId) (lv : BitVec 2) (s : State) : Out :=
  if lv = 3 then eventNext s
  else
    let t := s.modPace cl (fun p => { p with skip := lv.toNat })
    .next (if lv = 0 then t else markSkipping t cl)

/-- OVERCURRENT (R393). -/
def execOvercurrent (cl : ClusterId) (s : State) : Out :=
  eventNext (markSkipping (s.modPace cl (fun p => { p with overcurrent := true })) cl)

/-- OVERCURRENT_END (R393). -/
def execOvercurrentEnd (cl : ClusterId) (s : State) : Out :=
  eventNext (s.modPace cl (fun p => { p with overcurrent := false }))

end Sys2Proof.Machine
end

