-- ==== Sys2Proof/Machine/Hbm.lean ====
section
/-! DEFINITION. HBM channels and stacks: retraining, replays, patrol scrub, temperature and the package freeze
(R106 to R120). -/
namespace Sys2Proof.Machine

/-! ### Channels (R107 to R110) -/

/-- A channel of the stack of channel ch is retraining. -/
def stackRetraining (s : State) (ch : Nat) : Bool :=
  (List.range 32).any (fun i => (s.chan (ch / 32 * 32 + i)).retraining)

/-- A channel that works: trained and not failed. -/
def Channel.works (c : Channel) : Bool := c.trained && !c.failed

/-- CHANNEL_RETRAIN (R107): one channel of a stack at a time, and none once a freeze has begun (R118).
DEDUCED: log entries 68 and 79. DEDUCED: log entry 79. -/
def execChannelRetrain (ch : Nat) (s : State) : Out :=
  if (s.chan ch).works && !stackRetraining s ch && s.freeze == .none
  then .next (s.modChan ch (fun c => { c with retraining := true })) else eventNext s

/-- A channel after a retraining: a second failure in a row marks it failed (R107). DEDUCED: log entry 72. -/
def Channel.retrained (c : Channel) (ok : Bool) : Channel :=
  if ok then { c with retraining := false, rtfail := false }
  else { c with retraining := false, failed := c.failed || c.rtfail, rtfail := true }

/-- RETRAIN_COMPLETE (R107). -/
def execRetrainComplete (ch : Nat) (ok : Bool) (s : State) : Out :=
  if (s.chan ch).retraining then .next (s.modChan ch (fun c => c.retrained ok)) else eventNext s

/-- A channel after an ALERT: the command is reissued, and the third failed reissue in a row marks the channel failed; a
command that has left the history cannot be reissued, and the channel is marked failed (R108, R109).
DEDUCED: log entry 72. -/
def Channel.alert (c : Channel) (ok hist : Bool) : Channel :=
  if !hist then { c with failed := true }
  else
    let c := { c with rpcnt := if c.rpcnt = 0xFF then 0xFF else c.rpcnt + 1 }
    if ok then { c with replays := 0 }
    else if 3 ≤ c.replays + 1 then { c with replays := 0, failed := true } else { c with replays := c.replays + 1 }

/-- COMMAND_PARITY_ALERT (R108): ok says that the reissue succeeds, hist that the command is in the history.
DEDUCED: log entry 72. -/
def execCommandParityAlert (ch : Nat) (ok hist : Bool) (s : State) : Out :=
  if (s.chan ch).works then .next (s.modChan ch (fun c => c.alert ok hist)) else eventNext s

/-! ### Patrol scrub (R114) -/

/-- Lines of a pseudo-channel. -/
def scrubLines : Nat := 12582912

/-- PATROL_SCRUB (R114): the next line of a pseudo-channel is read; a corrected line is written back, an uncorrectable one
is reported to the management processor with its address. DEDUCED: log entry 79. -/
def execPatrolScrub (pc : Nat) (s : State) : Out :=
  if h : pc < 768 then
    let pa := pseudoAddress pc (64 * s.scrub[pc])
    if s.paHeld pa then eventNext s else
    let t := noteLineRead { s with scrub := s.scrub.set pc ((s.scrub[pc] + 1) % scrubLines) h } pa
    if !s.paFailed pa && s.paBad pa then .next (logRecord t 0x84 0 0 0 0 (dw pa) 0) else .next t
  else eventNext s

/-! ### Temperature and the freeze (R117 to R119) -/

/-- The state with a stack changed. -/
def State.modStack (s : State) (k : Nat) (f : Stack → Stack) : State :=
  if h : k < 12 then { s with hbmStacks := s.hbmStacks.set k (f s.hbmStacks[k]) h } else s

/-- The round that a change of a stack's temperature or of the cap starts (R383): during a freeze it is put off until the
resume (R478), and before the device is ready there is none. DEDUCED: log entry 64. -/
def startRound (s : State) : State :=
  if s.mgmt.bootState ≠ 1 then s
  else if s.freeze = .none then arbiterRound s
  else { s with mgmt := { s.mgmt with roundDue := true } }

/-- STACK_HIGH_ENTER (R117), which starts a round (R383). DESIGN CHOICE: log entry 11. -/
def execStackHighEnter (st : Nat) (s : State) : Out := .next (startRound (s.modStack st (fun k => { k with high := true })))

/-- STACK_HIGH_LEAVE (R117), which starts a round (R383). -/
def execStackHighLeave (st : Nat) (s : State) : Out := .next (startRound (s.modStack st (fun k => { k with high := false })))

/-- The stacks are powered: bring-up has come to the training of their channels (R474, R475). DEDUCED: log entry 68. -/
def State.stacksUp (s : State) : Bool := decide (5 ≤ s.mgmt.step) && s.mgmt.bootState != 2

/-- PACKAGE_FREEZE (R118): a stack is Critical, and with it High, and the controllers issue no new DRAM command.
DEDUCED: log entry 68. -/
def execPackageFreeze (st : Nat) (s : State) : Out :=
  if st < 12 ∧ s.stacksUp = true then
    let t := s.modStack st (fun k => { k with high := true, critical := true })
    let t := if (s.hbmStacks[st]?.getD ⟨false, false⟩).high then t else startRound t
    .next (if t.freeze = .none then { t with freeze := .draining } else t)
  else eventNext s

/-- FREEZE_GATE (R118): no retraining and no pace switch is in progress, and every clock stops; MSI-X 17. The duration of
the freeze counts from here (R484). DEDUCED: log entry 68. -/
def execFreezeGate (s : State) : Out :=
  if s.freeze = .draining ∧ s.chans.toList.all (fun c => !c.retraining) ∧ s.clusters.toList.all (fun c => !c.pace.switching)
  then .next (raiseMsix { s with
    freeze := .gated
    mgmt := { s.mgmt with freezeAt := s.mgmt.refclk } } 17) else eventNext s

/-- FREEZE_RELEASE (R119): every stack is below 90 °C; the stacks leave self-refresh and every channel is retrained. -/
def execFreezeRelease (s : State) : Out :=
  if s.freeze = .gated then
    .next { s with
      freeze := .released
      hbmStacks := s.hbmStacks.map (fun k => { k with critical := false })
      chans := s.chans.map (fun c => if c.works then { c with retraining := true } else c) }
  else eventNext s

end Sys2Proof.Machine
end

