-- ==== Sys2Proof/Machine/Translate.lean ====
section
/-! DEFINITION. Translation caches: the end of a walk, and invalidation (R128, R129). -/
namespace Sys2Proof.Machine

/-- The die of the table walker that serves a cache; none is the network engine's own (R128). -/
def cacheWalker : CacheId → Option DieId
  | .shuttle g => some (dieOf g)
  | .cluster c => some (clusterDie c)
  | .network => none

/-- TRANSLATION_WALK_COMPLETE (R128): a walk for a cache ends, for an access that reads or writes; a table read that waits keeps
it in progress (R107). DESIGN CHOICE: log entry 12. -/
def execTranslationWalkComplete (k : CacheId) (asid : BitVec 6) (va : BitVec 52) (s : State) : Out :=
  if walkHeld s (cacheWalker k) s.crossFail asid va.toNat then eventNext s
  else .next (walkInto s (cacheWalker k) s.crossFail [k] asid va.toNat (fun e => leafAllows e .read || leafAllows e .write))

/-- XINVC written (R129): ASID and SCOPE are set; GO starts an invalidation unless one is in progress or SCOPE is 3. -/
def writeXinvc (s : State) (v : Dword) : State :=
  let s := { s with regs := { s.regs with xinvc := v &&& 0xFF0 } }
  if tst v 0 && s.regs.invalidating.isNone && decide (fld v 5 4 ≠ 3)
  then { s with regs := { s.regs with invalidating := some (s.regs.xinva, v) } } else s

/-- XINVC_GO (R129). -/
def execXinvcGo (v : BitVec 64) (s : State) : Out := eventNext (writeXinvc s v)

/-- A cached translation is named by an invalidation: every ASID, its ASID, or a page that overlaps the range. -/
def namedBy (a c : Dword) (t : Translation) : Bool :=
  let asid := decide (t.asid.toNat = fld c 11 6)
  let lo := fld a 51 16 * 2 ^ 16
  let hi := lo + (fld a 15 0 + 1) * 2 ^ 16
  match fld c 5 4 with
  | 0 => asid && decide (t.page * 2 ^ t.bits < hi) && decide (lo < (t.page + 1) * 2 ^ t.bits)
  | 1 => asid
  | _ => true

/-- INVALIDATION_DONE (R129): every cache has dropped the entries, and DONE is 1. -/
def execInvalidationDone (s : State) : Out :=
  match s.regs.invalidating with
  | none => eventNext s
  | some (a, c) =>
    .next { s with
      tcache := s.tcache.filter (fun p => !namedBy a c p.2)
      tables := s.tables.filter (fun t => !(decide (fld c 5 4 = 2) || decide (t.asid.toNat = fld c 11 6)))
      regs := { s.regs with invalidating := none } }

end Sys2Proof.Machine
end

