-- ==== Sys2Proof/Machine/Adapter.lean ====
section
/-! DEFINITION. The management space and its access codes, and the host's accesses through BAR0 and BAR2 (R8, R116, R125,
R129, R352, R422, R429 to R432, R435, R441, R445, R448, R450, R452, R476, R477). -/
namespace Sys2Proof.Machine

/-! ### The registers of the management space -/

/-- A register of the management space, or a byte of the mailbox buffer. -/
inductive MReg64
  | bootstat | mbcmd | mbstat
  | buffer (off : Nat)
  | root (n : Nat)
  | xinva | xinvc
  | channel (k : Nat)
  | queue (q : BitVec 4) (i : Nat)
  | ctxpool
  | group (g : Nat) (word : Nat)
  | devid | peerasid | nrto
  | route (d : Nat)
  | winbase | holdlim | adstat | dbgen
  | trace (d : DieId) (i : Nat)
  | debug (g : CoreId) (i : Nat)
  deriving DecidableEq, Repr

/-- The register whose first byte stands at an offset, with its size in bytes; none where there is none. -/
def regAt (off : Nat) : Option (MReg64 × Nat) :=
  if off = 0x00000 then some (.bootstat, 8)
  else if off = 0x00100 then some (.mbcmd, 8)
  else if off = 0x00108 then some (.mbstat, 8)
  else if 0x02000 ≤ off ∧ off < 0x04000 then some (.buffer (off - 0x2000), 1)
  else if 0x10000 ≤ off ∧ off < 0x10200 then (if off % 8 = 0 then some (.root ((off - 0x10000) / 8), 8) else none)
  else if off = 0x10200 then some (.xinva, 8)
  else if off = 0x10208 then some (.xinvc, 8)
  else if 0x20000 ≤ off ∧ off < 0x20C00 then
    (if off % 4 = 0 ∧ off % 0x100 < 0x80 then some (.channel ((off - 0x20000) / 0x100 * 32 + off % 0x100 / 4), 4) else none)
  else if 0x30000 ≤ off ∧ off < 0x30400 then
    (if off % 8 = 0 ∧ off % 0x40 < 0x38 then some (.queue (BitVec.ofNat 4 ((off - 0x30000) / 0x40)) (off % 0x40 / 8), 8) else none)
  else if off = 0x40000 then some (.ctxpool, 8)
  else if 0x50000 ≤ off ∧ off < 0x50100 then
    (if off % 8 = 0 then some (.group ((off - 0x50000) / 16) (off % 16 / 8), 8) else none)
  else if off = 0x51000 then some (.devid, 8)
  else if off = 0x51008 then some (.peerasid, 8)
  else if off = 0x51010 then some (.nrto, 8)
  else if 0x52000 ≤ off ∧ off < 0x53000 then some (.route (off - 0x52000), 1)
  else if off = 0x60000 then some (.winbase, 8)
  else if off = 0x60008 then some (.holdlim, 8)
  else if off = 0x60010 then some (.adstat, 8)
  else if off = 0x60018 then some (.dbgen, 8)
  else if 0x70000 ≤ off ∧ off < 0x70100 then
    (if off % 8 = 0 ∧ off % 0x40 < 0x18 then some (.trace (BitVec.ofNat 2 ((off - 0x70000) / 0x40)) (off % 0x40 / 8), 8) else none)
  else if 0x800000 ≤ off ∧ off < 0x900000 then
    (if off % 8 = 0 ∧ off % 0x1000 < 0x228 then some (.debug (BitVec.ofNat 8 ((off - 0x800000) / 0x1000)) (off % 0x1000 / 8), 8)
     else none)
  else none

/-! ### Reads -/

/-- The status register of a channel (R116). -/
def Channel.word (c : Channel) : Nat :=
  c.cecnt.toNat * 2 ^ 16 + c.rpcnt.toNat * 2 ^ 8 + c.uecnt.toNat * 2 ^ 4 + b2n c.rtfail * 4 + b2n c.failed * 2 + b2n c.trained

/-- A register of a launch queue (R352). -/
def LaunchQueue.reg (k : LaunchQueue) (i : Nat) : Dword :=
  match i with
  | 0 => dw (k.base.toNat * 2 ^ 8)
  | 1 => dw (k.size.toNat * 2 ^ 16 + k.cls.toNat * 2 ^ 8 + b2n k.en)
  | 2 => k.head.setWidth 64
  | 3 => k.tail.setWidth 64
  | 4 => k.err0
  | 5 => k.err1
  | _ => k.nerr ++ k.nacc

/-- A doubleword of a debug block (R445, R447, R448): DCMD reads as the code of the command that runs, 0 when none does
(DESIGN CHOICE, log entry 98). -/
def Debug.reg (k : Debug) (i : Nat) : Dword :=
  if i < 32 then
    match i % 4 with
    | 0 => k.bpaddr[i / 4]?.getD 0
    | 1 => k.bpctl[i / 4]?.getD 0
    | 2 => k.bplo[i / 4]?.getD 0
    | _ => k.bphi[i / 4]?.getD 0
  else if i < 40 then (if i % 2 = 0 then k.wpaddr[(i - 32) / 2]?.getD 0 else k.wpctl[(i - 32) / 2]?.getD 0)
  else
    match i with
    | 0x40 => k.dclaim
    | 0x41 => k.dsel
    | 0x42 => (match k.dcmd with | some c => c.setWidth 64 | none => 0)
    | 0x43 => k.ddata
    | 0x44 => dw (b2n k.rej * 2 + b2n k.dcmd.isSome)
    | _ => 0

/-- A trace register of a die (R450). -/
def Die.traceReg (k : Die) (i : Nat) : Dword :=
  match i with
  | 0 => dw (k.trSi.toNat * 2 ^ 8 + b2n k.trSmp * 2 + b2n k.trEn)
  | 1 => k.trWr ++ k.trRd
  | _ => k.trDrop

/-- The package is frozen: every clock has stopped (R118). DEDUCED: log entry 68. -/
def State.frozen (s : State) : Bool := s.freeze == .gated || s.freeze == .released

/-- The value of a register of the management space (R8). -/
def mgmtRead (s : State) (m : MReg64) : Dword :=
  match m with
  | .bootstat =>
    if s.mgmt.step = 0 then Config.unreadable
    else dw (s.mgmt.nfailch * 2 ^ 16 + s.mgmt.step * 2 ^ 8 + s.mgmt.bootState.toNat)
  | .mbcmd => 0
  | .mbstat => s.mgmt.mbstat ||| dw (b2n s.mgmt.mbBusy)
  | .buffer off => if s.mgmt.mbBusy then 0 else (memGet s.mem (mailboxKey off)).setWidth 64
  | .root n => s.regs.roots[n]?.getD 0
  | .xinva => s.regs.xinva
  | .xinvc => s.regs.xinvc ||| dw (b2n s.regs.invalidating.isNone * 2)
  | .channel k => dw (s.chan k).word
  | .queue q i => (s.queue q).reg i
  | .ctxpool => s.regs.ctxpool
  | .group g w => if w = 0 then s.net.grp0[g]?.getD 0 else s.net.grp1[g]?.getD 0
  | .devid => dw (b2n s.net.lock * 2 ^ 63 + s.net.devid.toNat)
  | .peerasid => dw (b2n s.net.peerEn * 2 ^ 8 + s.net.peerAsid.toNat)
  | .nrto => s.net.nrto.setWidth 64
  | .route d =>
    match s.net.route.find? (fun r => r.1 == d) with
    | some r => r.2.setWidth 64
    | none => 15
  | .winbase => s.regs.winbase.setWidth 64
  | .holdlim => s.regs.holdlim.setWidth 64
  | .adstat => dw (s.regs.nabort.toNat * 2 ^ 32 + b2n s.frozen * 2 + b2n s.treadle.down)
  | .dbgen => dw (b2n s.regs.dbgen)
  | .trace d i => (s.die d).traceReg i
  | .debug g i => (s.core g).dbg.reg i

/-! ### Writes -/

/-- The channel's status after a write: ones clear bits of the counters (R8, R116). DEDUCED: log entry 51. -/
def Channel.clear (c : Channel) (v : Dword) : Channel :=
  { c with
    cecnt := c.cecnt &&& ~~~v.extractLsb' 16 16
    rpcnt := c.rpcnt &&& ~~~v.extractLsb' 8 8
    uecnt := c.uecnt &&& ~~~v.extractLsb' 4 4 }

/-- A queue after a write of one of its registers (R352, R353). -/
def LaunchQueue.put (k : LaunchQueue) (i : Nat) (v : Dword) : LaunchQueue :=
  match i with
  | 0 => { k with base := v.extractLsb' 8 32 }
  | 1 => { k with
      size := v.extractLsb' 16 4
      cls := v.extractLsb' 8 2
      en := tst v 0 }
  | 3 => k.putTail (v.setWidth 12)
  | 4 => if tst v 63 then { k with err0 := k.err0 &&& ~~~(1#64 <<< 63) } else k
  | _ => k

/-- A vector with one element replaced where the index lies in it. -/
def setAt {n : Nat} {α : Type} (l : Vector α n) (i : Nat) (x : α) : Vector α n := if h : i < n then l.set i x h else l

/-- A debug block after a write of one of its doublewords; DCMD names a command and is ignored while one runs (R445, R447,
R448). DSEL keeps the reserved bits of a selector, for which a command is then rejected (R411; DESIGN CHOICE, log entry
99). DESIGN CHOICE: log entry 99. -/
def Debug.put (k : Debug) (i : Nat) (v : Dword) : Debug :=
  if i < 32 then
    match i % 4 with
    | 0 => { k with bpaddr := setAt k.bpaddr (i / 4) (v &&& 0xFFFFFFFFFFFFD) }
    | 1 => { k with bpctl := setAt k.bpctl (i / 4) (v &&& 0x3FF) }
    | 2 => { k with bplo := setAt k.bplo (i / 4) v }
    | _ => { k with bphi := setAt k.bphi (i / 4) (v &&& 0xFFFFFFFF) }
  else if i < 40 then
    (if i % 2 = 0 then { k with wpaddr := setAt k.wpaddr ((i - 32) / 2) (v &&& 0xFFFFF) }
     else { k with wpctl := setAt k.wpctl ((i - 32) / 2) (v &&& 0x3F0FFF3) })
  else
    match i with
    | 0x40 => { k with dclaim := v &&& 0x7F }
    | 0x41 => { k with dsel := v }
    | 0x42 => if k.dcmd.isNone && decide (v.toNat ≤ 3) then { k with dcmd := some (v.setWidth 2), rej := false } else k
    | 0x43 => { k with ddata := v }
    | _ => k

/-- A die after a write of a trace register (R450): EN keeps its value while an accepted launch is not complete. -/
def Die.tracePut (k : Die) (i : Nat) (v : Dword) (open' : Bool) : Die :=
  match i with
  | 0 => { k with
      trSi := v.extractLsb' 8 5
      trSmp := tst v 1
      trEn := if open' then k.trEn else tst v 0 }
  | 2 => { k with trDrop := k.trDrop &&& ~~~v }
  | _ => k

/-- The route table with the port of a device; a device that it does not list is at 15. -/
def putRoute (l : List (Nat × BitVec 4)) (d : Nat) (p : BitVec 4) : List (Nat × BitVec 4) :=
  let m := l.filter (fun r => r.1 != d)
  if p = 15 then m else (d, p) :: m

/-- The mask of word 0 of a reduction group (R441). -/
def groupMask : Dword := 0x8FFF0FFF

/-- A write of a register of the management space under its access codes (R8). -/
def mgmtWrite (s : State) (m : MReg64) (v : Dword) : State :=
  match m with
  | .bootstat | .mbstat => s
  | .mbcmd =>
    if s.mgmt.mbBusy then s
    else { s with mgmt := { s.mgmt with
      mbcmd := v &&& 0xFFFFFFFF0000FFFF
      mbBusy := true
      mbDone := false
      mbWork := none } }
  | .buffer off => if s.mgmt.mbBusy then s else { s with mem := memSet s.mem (mailboxKey off) (v.setWidth 8) }
  | .root n => { s with regs := { s.regs with roots := setAt s.regs.roots n (v &&& 0xFFFFFFF005) } }
  | .xinva => { s with regs := { s.regs with xinva := v &&& 0xFFFFFFFFFFFFF } }
  | .xinvc => writeXinvc s v
  | .channel k => s.modChan k (fun c => c.clear v)
  | .queue q i => if i = 3 ∧ s.mgmt.bootState = 2 then s else s.modQueue q (fun k => k.put i v)
  | .ctxpool => { s with regs := { s.regs with ctxpool := v &&& 0xFFFFFFFFFFFFF000 } }
  | .group g w =>
    { s with net := { s.net with
      grp0 := if w = 0 then setAt s.net.grp0 g (v &&& groupMask) else s.net.grp0
      grp1 := if w = 0 then s.net.grp1 else setAt s.net.grp1 g (v &&& 0xFFFFFFFFFF) } }
  | .devid => if s.net.lock then s else { s with net := { s.net with
      devid := v.setWidth 12
      lock := tst v 63 } }
  | .peerasid => { s with net := { s.net with
      peerEn := tst v 8
      peerAsid := v.setWidth 6 } }
  | .nrto => { s with net := { s.net with nrto := v.setWidth 5 } }
  | .route d => if s.net.lock then s else { s with net := { s.net with route := putRoute s.net.route d (v.setWidth 4) } }
  | .winbase => { s with regs := { s.regs with winbase := v.setWidth 4 } }
  | .holdlim => { s with regs := { s.regs with holdlim := v.setWidth 6 } }
  | .adstat => { s with regs := { s.regs with nabort := s.regs.nabort &&& ~~~v.extractLsb' 32 32 } }
  | .dbgen => { s with regs := { s.regs with dbgen := tst v 0 } }
  | .trace d i => s.modDie d (fun k => k.tracePut i v (!s.launches.isEmpty))
  | .debug g i => if s.regs.dbgen then s.modDbg g (fun k => k.put i v) else s

/-- REGISTER_WRITE (R8): a write of one register of the management space. -/
def execRegisterWrite (off : Nat) (v : BitVec 64) (s : State) : Out :=
  match regAt off with
  | some (m, _) => .next (mgmtWrite s m v)
  | none => eventNext s

/-! ### Accesses of a length in BAR0 -/

/-- The register that a byte of the management space belongs to, and the byte's place in it. -/
def regOfByte (off : Nat) : Option (MReg64 × Nat) :=
  match regAt off, regAt (off / 4 * 4), regAt (off / 8 * 8) with
  | some (m, _), _, _ => some (m, 0)
  | none, some (m, n), _ => if off % 4 < n then some (m, off % 4) else none
  | none, none, some (m, n) => if off % 8 < n then some (m, off % 8) else none
  | none, none, none => none

/-- A byte of the management space; 0 where there is no register. -/
def mgmtByte (s : State) (off : Nat) : Byte :=
  match regOfByte off with
  | some (m, i) => (mgmtRead s m).extractLsb' (8 * i) 8
  | none => 0

/-- A write of bytes to the management space: each register that it covers whole is written, in ascending order.
DEDUCED: log entry 69. -/
def mgmtWriteBytes (s : State) (off : Nat) (data : List Byte) : State :=
  (List.range data.length).foldl (fun s i =>
    match regAt (off + i) with
    | some (m, n) => if i + n ≤ data.length then mgmtWrite s m (dw (leNat ((data.drop i).take n))) else s
    | none => s) s

/-! ### Host accesses (R120, R430 to R432) -/

/-- NABORT counts one more read (R430). -/
def countAbort (s : State) : State :=
  { s with regs := { s.regs with nabort := if s.regs.nabort = BitVec.allOnes 32 then s.regs.nabort else s.regs.nabort + 1 } }

/-- The host receives a completion. -/
def replyHost (s : State) (d : HostReply) : State :=
  { s with mgmt := { s.mgmt with replies := s.mgmt.replies ++ [d] } }

/-- What becomes of a host access: served, held during a freeze, or not delivered. The registers of the adapter and of the
management processor are served during a freeze (R429, R477); main memory is reached once the device is ready. -/
inductive Reach
  | served | held | lost
  deriving DecidableEq, Repr

/-- How a host access fares (R120, R428, R432, R475). DEDUCED: log entry 69. -/
def hostReach (s : State) (a : HostAddr) : Reach :=
  match a with
  | .bar0 off =>
    if 2 ^ 25 ≤ off then .lost
    else if 0x60000 ≤ off ∧ off < 0x60018 then .served
    else if s.treadle.down then .lost
    else if s.freeze = .none ∨ off < 0x4000 then .served
    else .held
  | .bar2 off =>
    if 2 ^ 36 ≤ off ∨ s.treadle.down = true ∨ s.mgmt.bootState ≠ 1 then .lost
    else if s.freeze = .none then .served
    else .held

/-- A read of physical memory for the host: its bytes, or none for Completer Abort (R431). -/
def hostPhysRead (s : State) (pa n : Nat) : State × HostReply :=
  match readPhys s pa n with
  | (s, .ok bs) => (s, some bs)
  | (s, .error _) => (countAbort s, none)

/-- A write of physical memory for the host, line by line: one to a failed channel, or a part of an uncorrectable line, is
dropped (R431). -/
def hostPhysWrite (s : State) (pa : Nat) (data : List Byte) : State :=
  (pieces (dw pa) data.length).foldl (fun s p =>
    let q : Place := .hbm (pa + p.1)
    if hbmEnd < pa + p.1 + p.2 then s
    else if writeFails s q p.2 then (if s.paFailed (pa + p.1) then s else noteLineRead s (pa + p.1))
    else placeWrite s q ((data.drop p.1).take p.2)) s

/-- A host access of main memory waits at a retraining channel (R107), under the window base that it met on arrival. -/
def hostHeld (s : State) (a : HostAddr) (n : Nat) (win : BitVec 4) : Bool :=
  match a with
  | .bar0 _ => false
  | .bar2 off => decide (win.toNat ≤ 8) && physHeld s (win.toNat * 2 ^ 36 + off) n

/-- A host read performed: a window base above 8 reads all ones (R430). win is WINBASE as the access met it (R432).
DEDUCED: log entry 69. -/
def hostReadNow (s : State) (a : HostAddr) (n : Nat) (win : BitVec 4) : State :=
  let s := passTreadle s
  match a with
  | .bar0 off => replyHost s (some ((List.range n).map (fun i => mgmtByte s (off + i))))
  | .bar2 off =>
    if 8 < win.toNat then replyHost s (some (List.replicate n 0xFF))
    else
      let (t, d) := hostPhysRead s (win.toNat * 2 ^ 36 + off) n
      replyHost t d

/-- A host write performed: a window base above 8 drops it (R430). DEDUCED: log entry 69. -/
def hostWriteNow (s : State) (a : HostAddr) (data : List Byte) (win : BitVec 4) : State :=
  let s := passTreadle s
  match a with
  | .bar0 off => mgmtWriteBytes s off data
  | .bar2 off =>
    if 8 < win.toNat then s else hostPhysWrite s (win.toNat * 2 ^ 36 + off) data

/-- HOST_READ (R431): it meets the window base of its arrival (R432), and waits at a retraining channel (R107).
DEDUCED: log entry 69. -/
def execHostRead (a : HostAddr) (n : Nat) (s : State) : Out :=
  match hostReach s a with
  | .served => if hostHeld s a n s.regs.winbase then eventNext s else .next (hostReadNow s a n s.regs.winbase)
  | .held => .next { s with heldHost := s.heldHost ++ [.read a n s.regs.winbase] }
  | .lost => eventNext s

/-- The bytes of the held writes (R432). DEDUCED: log entry 68. -/
def heldBytes (s : State) : Nat :=
  (s.heldHost.map (fun h => match h with | .write _ d _ => d.length | .read .. => 0)).sum

/-- HOST_WRITE (R431): a held write that the buffer of 256 KiB cannot take is withheld by the host (R432). -/
def execHostWrite (a : HostAddr) (data : List Byte) (s : State) : Out :=
  match hostReach s a with
  | .served =>
    if hostHeld s a data.length s.regs.winbase then eventNext s else .next (hostWriteNow s a data s.regs.winbase)
  | .held =>
    if heldBytes s + data.length ≤ 2 ^ 18 then .next { s with heldHost := s.heldHost ++ [.write a data s.regs.winbase] }
    else eventNext s
  | .lost => eventNext s

/-- The held accesses without their oldest read; none where no read is held. -/
def dropRead : List HeldAccess → Option (List HeldAccess)
  | [] => none
  | .read .. :: l => some l
  | .write a d w :: l => (dropRead l).map (fun m => .write a d w :: m)

/-- HOST_READ_HOLD_TIMEOUT (R432): the oldest held read has waited HOLDLIM and completes with Completer Abort. -/
def execHostReadHoldTimeout (s : State) : Out :=
  match dropRead s.heldHost with
  | some l => .next (replyHost (countAbort { s with heldHost := l }) none)
  | none => eventNext s

/-- A held access performed after the resume. -/
def performHeld (s : State) (h : HeldAccess) : State :=
  match h with
  | .read a n w => hostReadNow s a n w
  | .write a d w => hostWriteNow s a d w

/-- FREEZE_RESUME (R119): retraining ends, the clocks restart at the grant in force before; the freeze is counted and
logged with its duration in reference cycles (R484), MSI-X 18 is raised, held host accesses are performed in order (R120,
R432), and a round that was put off takes place (R383, R478). The event names that duration, dur. -/
def execFreezeResume (dur : Nat) (s : State) : Out :=
  if s.freeze = .released ∧ dur = s.mgmt.refclk - s.mgmt.freezeAt then
    let t := { s with
      freeze := .none
      heldHost := []
      chans := s.chans.map (fun c => if c.retraining then c.retrained true else c)
      mgmt := { s.mgmt with
        freezes := s.mgmt.freezes + 1
        roundDue := false } }
    let t := raiseMsix (logRecord t 0x82 0 0 0 0 (dw dur) 0) 18
    let t := s.heldHost.foldl performHeld t
    .next (if s.mgmt.roundDue then startRound t else t)
  else eventNext s

end Sys2Proof.Machine
end

