-- ==== Sys2Proof/Machine/Mailbox.lean ====
section
/-! DEFINITION. The management and security processor: device reset, bring-up, the mailbox and its commands, quotes, firmware
and the thermal trip (R452 to R454, R473 to R484). -/
namespace Sys2Proof.Machine

/-! ### Device reset (R473) -/

/-- A range of the memories that a device reset leaves alone: flash, and host memory. DESIGN CHOICE: log entry 13. -/
def survives (k : Nat) : Bool := decide (2 ^ 50 ≤ k)

/-- The clusters after a reset: their fused tables survive (R380, R473). -/
def resetClusters (s : State) : Vector Cluster 64 :=
  s.clusters.map (fun c => { Cluster.reset with pace := { Pace.reset with fuses := c.pace.fuses } })

/-- The management processor after a reset: fuses, the log and the count of resets survive; the signature block in use is
abandoned; what the host has received stays with it (R428, R454, R473). -/
def resetMgmt (m : Mgmt) : Mgmt :=
  { Mgmt.reset with
    log := m.log
    resets := m.resets + 1
    sigBlocks := m.sigBlocks
    msix := m.msix
    replies := m.replies
    aer := m.aer }

/-- The machine after a device reset (R473). -/
def deviceReset (s : State) : State :=
  { State.reset with
    mem := s.mem.filter (fun c => survives c.1)
    clusters := resetClusters s
    mgmt := resetMgmt s.mgmt
    agenda := s.agenda }

/-- DEVICE_RESET (R473). -/
def execDeviceReset (s : State) : Out := .next (deviceReset s)

/-- THERMAL_TRIP (R483): recorded, then a device reset, a freeze or not. -/
def execThermalTrip (coolant : Bool) (s : State) : Out :=
  .next (deviceReset (logRecord s 0x83 0 0 0 0 (dw (b2n coolant)) 0))

/-! ### Bring-up (R474) -/

/-- The cells of n keys from src, written from dst on; what stood there before is gone. -/
def memMove (m : Memory) (src dst n : Nat) : Memory :=
  (m.filter (fun c => decide (src ≤ c.1) && decide (c.1 < src + n))).foldl (fun a c => memSet a (c.1 - src + dst) c.2)
    (memClear m dst n)

/-- The core monitor firmware loaded into every monitor (R405; DESIGN CHOICE, log entry 2). -/
def loadMonitors (m : Memory) : Memory :=
  (List.range 256).foldl (fun m g => memMove m (flashKey 1 0) (monitorKey g 0) (2 ^ 16)) m

/-- Side, cluster and die memories cleared (R136). -/
def clearScratch (s : State) : State :=
  { s with
    mem := s.mem.filter (fun c => decide (c.1 < 2 ^ 44) || decide (2 ^ 47 ≤ c.1))
    badWords := [] }

/-- A channel after the training of bring-up (R106). -/
def Channel.train (c : Channel) (ok : Bool) : Channel := if ok then { c with trained := true } else { c with failed := true }

/-- Every channel trained, those of a list failing (R106, R474 step 5). DEDUCED: log entry 71. -/
def trainChannels (s : State) (bad : List Nat) : State :=
  { s with
    chans := Vector.ofFn (fun i : Fin 384 => s.chans[i].train (!bad.contains i.val))
    mgmt := { s.mgmt with nfailch := min 255 ((List.range 384).filter (fun i => bad.contains i)).length } }

/-- Every link trained: a port of the list is down, 12 names the treadle link (R474 step 7); no interrupt is raised for a port that
fails to train (R434; the model's choice, DEDUCED, log entry 71). DEDUCED: log entry 71. -/
def trainLinks (s : State) (bad : List Nat) : State :=
  { s with
    net := { s.net with ports := Vector.ofFn (fun i : Fin 12 => ⟨bad.contains i.val, 0⟩) }
    treadle := ⟨bad.contains 12, 0⟩ }

/-- Every cluster at the lowest point of its table, H 10, N 8 (R474 step 8). -/
def startPace (s : State) : State :=
  { s with
    clusters := s.clusters.map (fun c =>
      let f := c.pace.lowest
      { c with pace := { c.pace with
        m := f.m
        v := f.v
        mv := f.mv } })
    dies := s.dies.map (fun k => { k with h := 10 })
    n := 8 }

/-- The state with the step of R474 and STATE of BOOTSTAT. -/
def State.bootAt (s : State) (step : Nat) (st : BitVec 4) : State :=
  { s with mgmt := { s.mgmt with
    step := step
    bootState := st } }

/-- Bytes of a firmware image in flash or in the staging area (R478). DEDUCED: log entry 70. -/
def imageSize : Nat := 2 ^ 22

/-- The image of a type in flash: 0 management, 1 monitor (R478). -/
def flashImage (s : State) (k : Nat) : List Byte := memRead s.mem (flashKey k 0) imageSize

/-- An image verified is measured (R453). -/
def measured (s : State) (k : Nat) : State :=
  { s with mgmt := { s.mgmt with measures := s.mgmt.measures ++ [Config.imageMeasure (flashImage s k)] } }

/-- BRING_UP_STEP (R474): the step in progress ends; ok says that it has succeeded, bad lists the channels that fail step 5
or the links that fail step 7. Steps 3 and 4 succeed only where the image in flash verifies (R452).
DEDUCED: log entry 71. -/
def execBringUpStep (ok : Bool) (bad : List Nat) (s : State) : Out :=
  if s.mgmt.bootState ≠ 0 then eventNext s
  else
    match s.mgmt.step with
    | 1 => .next (if ok then s.bootAt 2 0 else s.bootAt 0 0)
    | 2 => .next (s.bootAt 3 0)
    | 3 => .next (if ok && Config.imageVerifies 0 (flashImage s 0) then (measured s 0).bootAt 4 0 else s.bootAt 3 2)
    | 4 => .next (if ok && Config.imageVerifies 1 (flashImage s 1)
        then ({ measured s 1 with mem := loadMonitors s.mem } : State).bootAt 5 0 else s.bootAt 4 2)
    | 5 => .next ((trainChannels s bad).bootAt 6 0)
    | 6 => .next ((clearScratch s).bootAt 7 0)
    | 7 => .next ((trainLinks s bad).bootAt 8 0)
    | 8 => .next ((startPace s).bootAt 8 1)
    | _ => eventNext s

/-! ### The mailbox (R477) -/

/-- OP of the running command. -/
def mbOp (s : State) : Nat := fld s.mgmt.mbcmd 15 0
/-- LEN of the running command. -/
def mbLen (s : State) : Nat := fld s.mgmt.mbcmd 63 32
/-- n argument bytes from an offset of the buffer. -/
def mbArg (s : State) (off n : Nat) : List Byte := memRead s.mem (mailboxKey off) n
/-- The 4-byte argument. -/
def mbArg4 (s : State) : Nat := leNat (mbArg s 0 4)

/-- BADCMD. -/
def mbBadCmd : Nat := 2
/-- BADARG. -/
def mbBadArg : Nat := 3
/-- NOTREADY. -/
def mbNotReady : Nat := 4
/-- KEY_EXHAUSTED. -/
def mbExhausted : Nat := 5
/-- VERIFY_FAIL. -/
def mbVerifyFail : Nat := 6

/-- The running command has its status and its reply in the buffer. -/
def mbFinish (s : State) (st : Nat) (reply : List Byte) : State :=
  { s with
    mem := memWrite s.mem (mailboxKey 0) reply
    mgmt := { s.mgmt with
      mbstat := dw (reply.length * 2 ^ 32 + st * 2 ^ 8)
      mbDone := true
      mbWork := none } }

/-- The running command ends with an error and no reply. -/
def mbError (s : State) (st : Nat) : Out := .next (mbFinish s st [])

/-- A command of an OP runs where it is the running one; before the device is ready only the commands of recovery mode are
served (R475). DEDUCED: log entry 70. -/
def mbRun (s : State) (op : Nat) (always : Bool) (f : Out) : Out :=
  if !s.mgmt.mbBusy || s.mgmt.mbDone || mbOp s != op then eventNext s
  else if !always && s.mgmt.bootState != 1 then mbError s mbNotReady
  else f

/-- The OPs of R478. -/
def mbKnown (op : Nat) : Bool := decide (1 ≤ op) && decide (op ≤ 11)

/-- MAILBOX_REPLY (R477): BUSY falls and MSI-X 16 is raised; an OP outside R478 returns BADCMD. After RESET's reply the
device is reset. -/
def execMailboxReply (s : State) : Out :=
  if !s.mgmt.mbBusy then eventNext s
  else
    let fin (s : State) : State := raiseMsix { s with mgmt := { s.mgmt with
      mbBusy := false
      mbDone := false } } 16
    if s.mgmt.mbDone then
      let t := fin s
      .next (if mbOp s = 7 ∧ s.mgmt.mbstat = 0 then { t with agenda := .event .deviceReset :: t.agenda } else t)
    else if !mbKnown (mbOp s) then .next (fin (mbFinish s mbBadCmd []))
    else eventNext s

/-- RDPOINTS (R478). -/
def execRdpoints (s : State) : Out :=
  mbRun s 1 false (
    if mbLen s ≠ 4 ∨ 64 ≤ mbArg4 s then mbError s mbBadArg
    else
      let l := (s.cluster (BitVec.ofNat 6 (mbArg4 s))).pace.fuses
      .next (mbFinish s 0 (l.flatMap (fun f => leBytes 8 (f.m + f.v * 2 ^ 8 + f.mv * 2 ^ 16 + f.mw * 2 ^ 32)))))

/-- The next block of signature indices (R454): the next fuse is burned; one that cannot be confirmed counts as reserved
and the next is tried. The fuses left are fuel. Some block in use, or none. -/
def reserveBlock : Nat → Nat → Nat × Bool
  | 0, n => (n, false)
  | k + 1, n => if Config.burnConfirmed n then (n + 1, true) else reserveBlock k (n + 1)

/-- The index for the next signature, with the blocks reserved and the index in its block; none where the key is
exhausted (R454). -/
def nextIndex (m : Mgmt) : Mgmt × Option Nat :=
  if m.sigFresh || m.sigIndex == 2 ^ 16 then
    let (n, ok) := reserveBlock (1024 - m.sigBlocks) m.sigBlocks
    if ok then ({ m with
        sigBlocks := n
        sigIndex := 1
        sigFresh := false }, some ((n - 1) * 2 ^ 16))
    else ({ m with
        sigBlocks := n
        sigIndex := 0
        sigFresh := true }, none)
  else ({ m with sigIndex := m.sigIndex + 1 }, some ((m.sigBlocks - 1) * 2 ^ 16 + m.sigIndex))

/-- The body of a quote for a nonce: the measurements are those of the images verified at bring-up (R453). -/
def quoteOf (s : State) (nonce : List Byte) : List Byte :=
  Config.quoteBody nonce s.net.devid.toNat Config.keyHash s.regs.dbgen Config.lifecycle Config.bootRomMeasure s.mgmt.measures

/-- QUOTE (R453, R454, R478). -/
def execQuote (s : State) : Out :=
  mbRun s 2 false (
    if mbLen s ≠ 32 then mbError s mbBadArg
    else
      let body := quoteOf s (mbArg s 0 32)
      match nextIndex s.mgmt with
      | (m, some i) => .next (mbFinish { s with mgmt := m } 0 (body ++ (Config.quoteSignature body i).toList))
      | (m, none) => .next (mbFinish { s with mgmt := m } mbExhausted []))

/-- SETCAP (R478): it starts a round, at the resume during a freeze (R383). -/
def execSetcap (s : State) : Out :=
  mbRun s 3 false (
    if mbLen s ≠ 4 ∨ mbArg4 s < 1200 ∨ 3200 < mbArg4 s then mbError s mbBadArg
    else .next (mbFinish (startRound { s with mgmt := { s.mgmt with cap := mbArg4 s } }) 0 []))

/-- The 64 bytes of a log record (R484). -/
def recordBytes (r : LogRec) : List Byte := r.flatMap (fun v => leBytes 8 v.toNat)

/-- RDLOG (R484): up to 128 records from an index on. -/
def execRdlog (s : State) : Out :=
  mbRun s 4 false (
    if mbLen s ≠ 4 then mbError s mbBadArg
    else .next (mbFinish s 0 (((s.mgmt.log.drop (mbArg4 s)).take 128).flatMap recordBytes)))

/-- FWCHUNK (R478): bytes stored in the staging area. DEDUCED: log entry 70. -/
def execFwchunk (s : State) : Out :=
  mbRun s 5 true (
    let h := leNat (mbArg s 0 8)
    let off := h / 2 ^ 32
    if mbLen s < 8 ∨ 8192 < mbLen s then mbError s mbBadArg
    else if 1 < h % 2 ^ 8 ∨ imageSize < off + (mbLen s - 8) then mbError s mbBadArg
    else .next (mbFinish { s with mem := memWrite s.mem (stagingKey off) (mbArg s 8 (mbLen s - 8)) } 0 []))

/-- FWCOMMIT (R452, R478): the staged image is verified and written to flash; it takes effect at the next reset.
DEDUCED: log entry 70. -/
def execFwcommit (s : State) : Out :=
  mbRun s 6 true (
    if mbLen s ≠ 4 ∨ 1 < mbArg4 s then mbError s mbBadArg
    else if Config.imageVerifies (mbArg4 s) (memRead s.mem (stagingKey 0) imageSize)
    then .next (mbFinish { s with mem := memMove s.mem (stagingKey 0) (flashKey (mbArg4 s) 0) imageSize } 0 [])
    else mbError s mbVerifyFail)

/-- RESET (R478): the reset follows the reply. -/
def execMbReset (s : State) : Out :=
  mbRun s 7 true (if mbLen s ≠ 0 then mbError s mbBadArg else .next (mbFinish s 0 []))

/-- KEYSTAT (R454, R478). DEDUCED: log entry 70. -/
def execKeystat (s : State) : Out :=
  mbRun s 8 true (
    if mbLen s ≠ 0 then mbError s mbBadArg
    else .next (mbFinish s 0 (leBytes 4 (s.mgmt.sigBlocks + s.mgmt.sigIndex % 2 ^ 16 * 2 ^ 16))))

/-! ### PREEMPT, RESUME, ENDLAUNCH (R479) -/

/-- The accepted, incomplete launch that a 4-byte argument names. -/
def mbLaunch (s : State) : Option Launch :=
  let a := mbArg4 s
  if a / 2 ^ 20 ≠ 0 ∨ a / 2 ^ 12 % 16 ≠ 0 then none
  else s.launches.find? (fun l => decide (l.queue.toNat = a / 2 ^ 16) && decide (l.entry = a % 2 ^ 12))

/-- The units of a launch, each named by its first band: a band, or a chain. -/
def launchUnits (s : State) (l : Nat) (p : Band → Bool) : List Band :=
  (s.bandsOf l).filter (fun b => p b &&
    (match (unitOf s b).head? with
      | some k => k.id == b.id
      | none => false))

/-- PREEMPT refuses a launch that is not PREEMPTIBLE, without a pool, with held units, or whose areas the pool cannot hold
(R479). -/
def preemptRefused (s : State) (l : Launch) : Bool :=
  let bs := (s.bandsOf l.id).filter (fun b => b.resident s && b.preempt.isNone)
  !l.preemptible || fld s.regs.ctxpool 63 40 == 0 || (s.bandsOf l.id).any Band.isHeld || !poolHolds s bs

/-- The bands of a unit, by number: a band that ends leaves the others of its unit in the list. -/
def unitIds (s : State) (b : Band) : List Nat := (unitOf s b).map (fun k => k.id)

/-- The bands of a unit that have not ended. -/
def unitLeft (s : State) (u : List Nat) : List Band := s.bands.filter (fun b => u.contains b.id)

/-- Every unit that a PREEMPT requested has been saved or has ended. -/
def unitsSettled (s : State) (us : List (List Nat)) : Bool :=
  us.all (fun u => (unitLeft s u).all (fun k => k.preempt == some .saved || k.killed))

/-- The units of a list that are held. DEDUCED: log entry 73. -/
def unitsHeld (s : State) (us : List (List Nat)) : Nat :=
  (us.filter (fun u => !(unitLeft s u).isEmpty && (unitLeft s u).all (fun b => b.preempt == some .saved && !b.killed))).length

/-- The running command works on the units of a launch. -/
def mbStart (s : State) (l : Nat) (us : List (List Nat)) : State :=
  { s with mgmt := { s.mgmt with mbWork := some (l, us) } }

/-- PREEMPT (R479): pre-emption is requested of every resident unit; the command has its reply once each has been saved or
has ended. -/
def execPreempt (s : State) : Out :=
  mbRun s 9 false (
    match s.mgmt.mbWork with
    | some (_, ids) =>
      if unitsSettled s ids
      then .next (mbFinish s 0 (leBytes 4 (unitsHeld s ids) ++ leBytes 4 (ids.length - unitsHeld s ids)))
      else eventNext s
    | none =>
      match (if mbLen s = 4 then mbLaunch s else none) with
      | none => mbError s mbBadArg
      | some l =>
        if preemptRefused s l then mbError s mbBadArg
        else
          let us := launchUnits s l.id (fun b => (unitOf s b).any (fun k => k.resident s))
          let t := us.foldl (fun s b => if b.preempt.isNone then requestPreempt s b else s) s
          let hold (b : Band) : Band :=
            if us.any (fun u => (unitOf s u).any (fun k => k.id == b.id)) then { b with hostHeld := true } else b
          .next (mbStart (t.mapBands hold) l.id (us.map (unitIds s))))

/-- A unit of a list is restored, or it has ended (R427). DEDUCED: log entry 73. -/
def unitBack (s : State) (u : List Nat) : Bool :=
  (unitLeft s u).all (fun k => k.preempt != some .saved && k.preempt != some .restored)

/-- The units of a list that have been restored: of those whose bands are gone, the ones whose launch has not been ended.
DEDUCED: log entry 73. -/
def unitsRestored (s : State) (l : Nat) (us : List (List Nat)) : Nat :=
  (us.filter (fun u => match (unitLeft s u).head?, s.launch? l with
    | some b, _ => !b.killed
    | none, some k => !k.ended
    | none, none => true)).length

/-- RESUME (R479): the held units are restored by KLOD; the command has its reply once each has been restored or has
ended. -/
def execResume (s : State) : Out :=
  mbRun s 10 false (
    match s.mgmt.mbWork with
    | some (l, ids) =>
      if ids.all (unitBack s) then .next (mbFinish s 0 (leBytes 4 (unitsRestored s l ids))) else eventNext s
    | none =>
      match (if mbLen s = 4 then mbLaunch s else none) with
      | none => mbError s mbBadArg
      | some l =>
        let us := launchUnits s l.id Band.isHeld
        if us.isEmpty then mbError s mbBadArg
        else .next (mbStart s l.id (us.map (unitIds s))))

/-- ENDLAUNCH (R479): the launch ends as the default action ends it, and the end is logged. -/
def execEndlaunch (s : State) : Out :=
  mbRun s 11 false (
    match (if mbLen s = 4 then mbLaunch s else none) with
    | none => mbError s mbBadArg
    | some l => .next (mbFinish (endLaunch (logRecord s (0x81 + l.logName) 0 0 0 0 0 0) l.id) 0 []))

end Sys2Proof.Machine
end

