-- ==== Sys2Proof/Machine/Sparse.lean ====
section
/-! DEFINITION. The card instructions MPACK, MUNPK and CARDCK, the sparse stream MMAS, and QPACK (R314 to R331). -/
namespace Sys2Proof.Machine

/-! ### Ranges of the window (R161, R314, R403, R447) -/

/-- The row with its posted writes performed: what a read of its own window sees (R235). -/
def Ctx.settled (c : Ctx) : Ctx :=
  let s := flushPosted c.s c.r
  { c with s := s, x := (s.row? c.r).getD c.x }

/-- The waits and traps of an access to n bytes of the window at off. DEDUCED: log entry 66. -/
def Ctx.rangeGuard (c : Ctx) (kind : AccessKind) (off n : Nat) : Except Stop Unit := do
  let lo := c.band.wbase + off
  watchHit c.s c.band.core (c.s.bandAsid c.band) kind (if n = 0 then [] else [(lo, lo + n, dw off)])
  sbWait c.s c.band.core lo (lo + n) (kind != .read)
  if kind != .read && c.sideStreamHold off (off + n : Nat) then .error (.wait c.x.mx.busyReason .m) else .ok ()

/-- The window offset of the first uncorrectable word that [off, off + n) touches; with part set, only of those it
touches in part. -/
def Ctx.badOffset (c : Ctx) (off n : Nat) (part : Bool) : Option Nat :=
  let k := sideKey c.band.core.toNat (c.band.wbase + off)
  let hits := c.s.badWords.filter (fun w => decide (k < 8 * w + 8) && decide (8 * w < k + n)
    && (!part || decide (8 * w < k) || decide (k + n < 8 * w + 8)))
  match hits with
  | [] => none
  | w :: l => some (off + (8 * (l.foldl min w) - k))

/-- SideRead of n bytes (R11, R314). -/
def Ctx.readRange (c : Ctx) (off n : Nat) : Except Stop (List Byte) := do
  c.rangeGuard .read off n
  match c.badOffset off n false with
  | some a => .error (parity 6 (dw a))
  | none => .ok (c.bytes off n)

/-- The checks of a SideWrite of n bytes: a bad word written in part traps (R403). -/
def Ctx.writeCheck (c : Ctx) (off n : Nat) : Except Stop Unit := do
  c.rangeGuard .write off n
  match c.badOffset off n true with
  | some a => .error (parity 6 (dw a))
  | none => .ok ()

/-- SideWrite of bytes, once its checks have passed; whole bad words are replaced (R403). -/
def sideWrite (s : State) (b : Band) (off : Nat) (bs : List Byte) : State :=
  let k := sideKey b.core.toNat (b.wbase + off)
  { s with
    mem := memWrite s.mem k bs
    badWords := s.badWords.filter (fun w => decide (8 * w < k) || decide (k + bs.length < 8 * w + 8)) }

/-! ### Cards in the window (R316, R317) -/

/-- CARD_MALFORMED with its code (R313, R400). -/
def cardTrap (code off : Nat) : Stop := trapOf 0x0A (BitVec.ofNat 8 code) (dw off)

/-- The header at a window offset, checked for place and for codes 1 to 9 (R316, steps 2 to 4). DEDUCED: log entry 45. -/
def Ctx.cardHeader (c : Ctx) (off : Nat) : Except Stop (List Byte) := do
  if off % 32 ≠ 0 then .error (misalign 0 (dw off))
  if c.band.wsize < off + 32 then .error (sideRange 0 (dw off))
  let hd ← c.readRange off 32
  if cardCode hd ≠ 0 then .error (cardTrap (cardCode hd) off)
  .ok hd

/-- The masks of a card whose extent lies in the window, checked under codes 10 and 11 (R313). -/
def Ctx.cardMasks (c : Ctx) (off : Nat) (k : Card) : Except Stop (List Nat) := do
  if c.band.wsize < off + k.extent then .error (sideRange 0 (dw off))
  let md ← c.readRange (off + k.moff) k.mb
  let masks := k.masks md
  if k.fullCode masks ≠ 0 then .error (cardTrap (k.fullCode masks) off)
  .ok masks

/-- A register whose reserved bits are set traps with SIDE_RANGE (R314, R316, R317, R329). DEDUCED: log entry 45. -/
def needZero (v : Dword) (mask : Nat) : Except Stop Unit :=
  if v.toNat &&& mask = 0 then .ok () else .error (sideRange 0 v)

/-- Bits [63:20]. -/
def offReserved : Nat := 0xFFFFFFFFFFF00000
/-- Bits [63:52] and [31:20]. -/
def descReserved : Nat := 0xFFF00000FFF00000

/-- CARDCK's summary (R316). DEDUCED: log entry 47. -/
def cardSummary (k : Card) : Dword :=
  dw (k.extent * 2 ^ 32 + (2 * k.n + k.m - 1) / k.m * 2 ^ 16 + k.vfmt * 2 ^ 12 + (if k.tflag then 2 ^ 9 else 0)
    + (if k.orient then 2 ^ 8 else 0) + k.m * 2 ^ 4 + k.n)

/-- CARDCK (R316). DEDUCED: log entry 45. -/
def execCardck (d a : Reg) (ta : Bool) (s : State) : Out :=
  issue s accMod fNone fNone fNone (fun c0 => do
    c0.needS a ta 1
    c0.needSDst d
    c0.needPosted
    let c := c0.settled
    let va := c.x.sget a
    needZero va offReserved
    let off := fld va 19 0
    let hd ← c.cardHeader off
    let _ ← c.cardMasks off (cardOf hd)
    .ok (.done (c.s.setRow c.r (c.x.sset d (cardSummary (cardOf hd))))))

/-- The dense operand of MPACK and MUNPK: its offset, its stride, and the card (R317, R321). -/
structure DenseArgs where
  base : Nat
  stride : Nat
  off : Nat
  hd : List Byte

/-- Bytes from the first to the last of a dense operand. -/
def denseSpan (k : Card) (stride : Nat) : Nat := (k.rop - 1) * stride + k.kop * k.e

/-- Steps 1 to 4 of R317. -/
def Ctx.denseArgs (c : Ctx) (a b : Reg) : Except Stop DenseArgs := do
  let va := c.x.sget a
  let vb := c.x.sget b
  needZero va descReserved
  needZero vb offReserved
  let off := fld vb 19 0
  let hd ← c.cardHeader off
  .ok ⟨fld va 19 0, fld va 51 32, off, hd⟩

/-- The alignment of the dense operand (R317, step 5). -/
def DenseArgs.aligned (g : DenseArgs) : Except Stop Unit :=
  let e := (cardOf g.hd).e
  if g.base % e ≠ 0 ∨ g.stride % e ≠ 0 then .error (misalign 0 (dw g.base)) else .ok ()

/-- Step 6 of R317 on the dense operand. -/
def DenseArgs.inside (g : DenseArgs) (wsize : Nat) : Except Stop Unit := do
  let k := cardOf g.hd
  if 1 < k.rop ∧ g.stride < k.kop * k.e then .error (sideRange 0 (dw g.base))
  if wsize < g.off + k.extent then .error (sideRange 0 (dw g.off))
  if wsize < g.base + denseSpan k g.stride ∨ (g.base < g.off + k.extent ∧ g.off < g.base + denseSpan k g.stride)
  then .error (sideRange 0 (dw g.base))
  .ok ()

/-- MPACK (R317 to R320). DEDUCED: log entry 45. -/
def execMpack (d a b : Reg) (ta tb : Bool) (s : State) : Out :=
  issue s accMod fNone fNone fNone (fun c0 => do
    c0.parityFirst [b] [] (c0.needS a ta 1)
    c0.needS b tb 2
    c0.needSDst d
    c0.needPosted
    let c := c0.settled
    let g ← c.denseArgs a b
    g.aligned
    g.inside c.band.wsize
    let k := cardOf g.hd
    let rows ← (List.range k.rop).mapM (fun i => c.readRange (g.base + i * g.stride) (k.kop * k.e))
    let elem (i j : Nat) := ((rows.getD i []).drop (j * k.e)).take k.e
    let (masks, ties) := k.prune elem
    c.writeCheck (g.off + k.moff) k.mb
    c.writeCheck (g.off + k.voff) k.vb
    let s := sideWrite c.s c.band (g.off + k.moff) (packMasks k.m masks)
    let s := sideWrite s c.band (g.off + k.voff) (k.packValues masks elem)
    .ok (.done (s.setRow c.r (c.x.sset d (dw (k.nanCount elem * 2 ^ 32 + ties))))))

/-- MUNPK (R321). -/
def execMunpk (a b : Reg) (ta tb : Bool) (s : State) : Out :=
  issue s accMod fNone fNone fNone (fun c0 => do
    c0.parityFirst [b] [] (c0.needS a ta 1)
    c0.needS b tb 2
    c0.needPosted
    let c := c0.settled
    let g ← c.denseArgs a b
    let k := cardOf g.hd
    let masks ← c.cardMasks g.off k
    g.aligned
    g.inside c.band.wsize
    let vals ← c.readRange (g.off + k.voff) k.vb
    (List.range k.rop).forM (fun i => c.writeCheck (g.base + i * g.stride) (k.kop * k.e))
    let row (i : Nat) := (List.range k.kop).flatMap (fun j => k.element masks vals i j)
    .ok (.done ((List.range k.rop).foldl (fun s i => sideWrite s c.band (g.base + i * g.stride) (row i)) c.s)))

/-! ### MMAS (R322 to R325) -/

/-- The card's part of the issue of an MMAS: steps 2 to 7 of R323. It gives the header, and the masks of the groups that
the stream covers. -/
def Ctx.mmasCard (c : Ctx) (desc : Dword) : Except Stop (List Byte × List Nat) := do
  let g := c.x.mx.shape
  let kpe := perEntry (grantBf g)
  let off := fld desc 19 0
  let orow := fld desc 47 32
  let ke0 := fld desc 63 48
  if fld desc 31 20 ≠ 0 then .error (shapeTrap 2)
  let hd ← c.cardHeader off
  let k := cardOf hd
  if k.ty ≠ grantAf g ∨ (k.e = 2 ∧ k.m = 8) ∨ k.rop ≤ orow ∨ k.kop < (ke0 + grantK g) * kpe then .error (shapeTrap 5)
  let g0 := orow * k.perRow + ke0 * kpe / k.m
  let n := grantK g * kpe / k.m
  let lo := off + k.moff + (if k.m = 4 then g0 / 2 else g0)
  let hi := off + k.moff + (if k.m = 4 then (g0 + n - 1) / 2 + 1 else g0 + n)
  if c.band.wsize < hi then .error (sideRange 0 (dw lo))
  let md ← c.readRange lo (hi - lo)
  let masks := (List.range n).map (fun i => metaMask k.m md (if k.m = 4 then g0 % 2 + i else i))
  if masks.any (fun v => countBits v k.m != k.n) then .error (cardTrap 10 off)
  .ok (hd, masks)

/-- MMAS (R322): issues a sparse stream. -/
def execMmas (d a b : Reg) (m : MReg) (ta tb zp : Bool) (s : State) : Out :=
  issue s accMod fNone fNone fNone (fun c0 => c0.streamDue (do
    c0.streamScalars a b ta tb (some d)
    c0.needPlace
    c0.needShape (some 0)
    c0.needPosted
    let c := c0.settled
    let g := c.x.mx.shape
    let (hd, masks) ← c.mmasCard (c.x.sget d)
    let (base, str) ← c.sideOperands g a b
    let k := cardOf hd
    let t : Stream :=
      { kind := .mmas
        word := (encode (.mmas d a b m ta tb zp)).getD 0
        modp := modPayload c.x.hints
        zp := zp
        grant := g
        base := base
        stride := str
        lanes := c.gridLanes m
        card := c.x.sget d
        masks := masks
        cardBytes := hd
        step := 0
        remaining := grantK g * ((2 * k.n + k.m - 1) / k.m)
        part := []
        starved := false }
    .ok (.done (c.s.setRow c.r (c.x.startStream t)))))

/-! ### QPACK (R329 to R331) -/

/-- The exponent field of an FP32 element. -/
def expField (x : Word) : Nat := x.toNat / 2 ^ 23 % 256

/-- An element is a zero. -/
def isZeroF32 (x : Word) : Bool := x.toNat % 2 ^ 31 == 0

/-- The exponent of t_b plus 126, for a block and a limit L (R330). -/
def blockExp (l : Nat) (bl : List Word) : Nat :=
  let e := ((List.range 256).find? (fun e => decide ((bl.filter (fun x => decide (e < expField x))).length ≤ l))).getD 255
  min e 253

/-- The index of an element: the nearest codebook value times S c / 255, the lower index on a tie; the scale is
2^(s - 126) (R330). -/
def quantIndex (s cb : Nat) (x : Word) : Nat :=
  match unpack .f32 x.toNat with
  | .nan => 7
  | .inf n => if cb = 0 then 7 else if n then 0 else 15
  | .fin n m e =>
    if cb = 0 then 7
    else
      let q := min e ((s : Int) - 126)
      let v : Int := ((m * 64 * 255 * 2 ^ (e - q).toNat : Nat) : Int) * (if n then -1 else 1)
      let unit : Int := ((cb * 2 ^ ((s : Int) - 126 - q).toNat : Nat) : Int)
      let dist (i : Nat) : Nat := (v - q16Units i * unit).natAbs
      (List.range 16).foldl (fun a i => if dist i < dist a then i else a) 0

/-- The blocks of 64 elements. -/
def blocks64 (xs : List Word) (nb : Nat) : List (List Word) := (List.range nb).map (fun b => (xs.drop (64 * b)).take 64)

/-- Index bytes from indices, the even element in the low nibble (R72, R331). -/
def packNibbles : List Nat → List Byte
  | a :: b :: l => BitVec.ofNat 8 (a + 16 * b) :: packNibbles l
  | [a] => [BitVec.ofNat 8 a]
  | [] => []

/-- What QPACK computes: the scale codes, the index bytes, the super-scale, and whether an element is a NaN (R330). -/
def quantise (p : Nat) (bls : List (List Word)) : List Byte × List Byte × Dword × Bool :=
  let l := p * 64 / 256
  let live := bls.filter (fun b => !b.all isZeroF32)
  let s := (live.map (blockExp l)).foldl max 0
  let code (b : List Word) : Nat :=
    if b.all isZeroF32 then 0 else (255 + 2 ^ (s - blockExp l b) - 1) / 2 ^ (s - blockExp l b)
  (bls.map (fun b => BitVec.ofNat 8 (code b)),
    packNibbles (bls.flatMap (fun b => b.map (quantIndex s (code b)))),
    if live.isEmpty then 0 else dw ((s + 1) * 2 ^ 23),
    bls.any (fun b => b.any (fun x => (unpack .f32 x.toNat).isNan)))

/-- Two ranges overlap. -/
def overlap (a n b k : Nat) : Bool := decide (a < b + k) && decide (b < a + n)

/-- Words of a list of bytes. -/
def bytesWords (bs : List Byte) (n : Nat) : List Word :=
  (List.range n).map (fun i => BitVec.ofNat 32 (leNat ((bs.drop (4 * i)).take 4)))

/-- QPACK (R329 to R331). -/
def execQpack (d a b : Reg) (ta tb : Bool) (s : State) : Out :=
  issue s accMod fNone fNone fNone (fun c0 => do
    c0.parityFirst [b] [] (c0.needS a ta 1)
    c0.needS b tb 2
    c0.needSDst d
    c0.needPosted
    let c := c0.settled
    let va := c.x.sget a
    let vb := c.x.sget b
    needZero va 0x00FFFF00FFF00000
    needZero vb descReserved
    let nb := fld va 39 32 + 1
    let src := fld va 19 0
    let code := fld vb 51 32
    let idx := fld vb 19 0
    if src % 4 ≠ 0 then .error (misalign 0 (dw src))
    if idx % 8 ≠ 0 then .error (misalign 0 (dw idx))
    if c.band.wsize < src + 256 * nb then .error (sideRange 0 (dw src))
    if c.band.wsize < code + nb then .error (sideRange 0 (dw code))
    if c.band.wsize < idx + 32 * nb then .error (sideRange 0 (dw idx))
    if overlap src (256 * nb) code nb || overlap src (256 * nb) idx (32 * nb) || overlap code nb idx (32 * nb)
    then .error (sideRange 0 (dw src))
    let bs ← c.readRange src (256 * nb)
    let (codes, ixs, sup, nan) := quantise (fld va 63 56) (blocks64 (bytesWords bs (64 * nb)) nb)
    c.writeCheck code nb
    c.writeCheck idx (32 * nb)
    let s := sideWrite (sideWrite c.s c.band code codes) c.band idx ixs
    .ok (.done (s.setRow c.r ((c.x.raise (if nan then flInvalid else 0)).sset d sup))))

end Sys2Proof.Machine
end

