-- ==== Sys2Proof/Machine/Dispatch.lean ====
section
/-! DEFINITION. The meaning of each instruction: one arm per constructor of Instr. -/
namespace Sys2Proof.Machine

/-- The outcome of an instruction executed by the active agent. -/
def exec (i : Instr) (s : State) : Host.Outcome State Fault Refusal :=
  match i with
  | .imx p => Sys2Proof.Machine.execImx p s
  | .rep c d a b => Sys2Proof.Machine.execRep c d a b s
  | .mod r src t w => Sys2Proof.Machine.execMod r src t w s
  | .schd l y => Sys2Proof.Machine.execSchd l y s
  | .sadd d a b ta tb => Sys2Proof.Machine.execSadd d a b ta tb s
  | .ssub d a b ta tb => Sys2Proof.Machine.execSsub d a b ta tb s
  | .smul d a b ta tb => Sys2Proof.Machine.execSmul d a b ta tb s
  | .smulh d a b ta tb u => Sys2Proof.Machine.execSmulh d a b ta tb u s
  | .sdiv d a b ta tb u => Sys2Proof.Machine.execSdiv d a b ta tb u s
  | .srem d a b ta tb u => Sys2Proof.Machine.execSrem d a b ta tb u s
  | .sand d a b ta tb => Sys2Proof.Machine.execSand d a b ta tb s
  | .sor d a b ta tb => Sys2Proof.Machine.execSor d a b ta tb s
  | .sxor d a b ta tb => Sys2Proof.Machine.execSxor d a b ta tb s
  | .sshl d a b ta tb => Sys2Proof.Machine.execSshl d a b ta tb s
  | .sshr d a b ta tb u => Sys2Proof.Machine.execSshr d a b ta tb u s
  | .smin d a b ta tb u => Sys2Proof.Machine.execSmin d a b ta tb u s
  | .smax d a b ta tb u => Sys2Proof.Machine.execSmax d a b ta tb u s
  | .scmp d a b ta tb u c => Sys2Proof.Machine.execScmp d a b ta tb u c s
  | .ssel d a b ta tb c => Sys2Proof.Machine.execSsel d a b ta tb c s
  | .saddi d a imm => Sys2Proof.Machine.execSaddi d a imm s
  | .sandi d a imm => Sys2Proof.Machine.execSandi d a imm s
  | .sori d a imm => Sys2Proof.Machine.execSori d a imm s
  | .sxori d a imm => Sys2Proof.Machine.execSxori d a imm s
  | .sshli d a n => Sys2Proof.Machine.execSshli d a n s
  | .sshri d a k n => Sys2Proof.Machine.execSshri d a k n s
  | .sli d imm => Sys2Proof.Machine.execSli d imm s
  | .spopc d a ta => Sys2Proof.Machine.execSpopc d a ta s
  | .sclz d a ta => Sys2Proof.Machine.execSclz d a ta s
  | .smov d a ta => Sys2Proof.Machine.execSmov d a ta s
  | .bra o => Sys2Proof.Machine.execBra o s
  | .bz a o => Sys2Proof.Machine.execBz a o s
  | .bnz a o => Sys2Proof.Machine.execBnz a o s
  | .call o => Sys2Proof.Machine.execCall o s
  | .ret a ta => Sys2Proof.Machine.execRet a ta s
  | .jmpr a ta => Sys2Proof.Machine.execJmpr a ta s
  | .exit => Sys2Proof.Machine.execExit s
  | .yield => Sys2Proof.Machine.execYield s
  | .nop => Sys2Proof.Machine.execNop s
  | .ifm k o => Sys2Proof.Machine.execIfm k o s
  | .elsem o => Sys2Proof.Machine.execElsem o s
  | .endifm => Sys2Proof.Machine.execEndifm s
  | .loopm o => Sys2Proof.Machine.execLoopm o s
  | .brkm k o => Sys2Proof.Machine.execBrkm k o s
  | .endl o => Sys2Proof.Machine.execEndl o s
  | .vadd d a b m ta tb u => Sys2Proof.Machine.execVadd d a b m ta tb u s
  | .vsub d a b m ta tb u => Sys2Proof.Machine.execVsub d a b m ta tb u s
  | .vmul d a b m ta tb u => Sys2Proof.Machine.execVmul d a b m ta tb u s
  | .vmulh d a b m ta tb u => Sys2Proof.Machine.execVmulh d a b m ta tb u s
  | .vmad d a b m ta tb u => Sys2Proof.Machine.execVmad d a b m ta tb u s
  | .vabs d a m ta => Sys2Proof.Machine.execVabs d a m ta s
  | .vmin d a b m ta tb u => Sys2Proof.Machine.execVmin d a b m ta tb u s
  | .vmax d a b m ta tb u => Sys2Proof.Machine.execVmax d a b m ta tb u s
  | .vand d a b m ta tb => Sys2Proof.Machine.execVand d a b m ta tb s
  | .vor d a b m ta tb => Sys2Proof.Machine.execVor d a b m ta tb s
  | .vxor d a b m ta tb => Sys2Proof.Machine.execVxor d a b m ta tb s
  | .vandn d a b m ta tb => Sys2Proof.Machine.execVandn d a b m ta tb s
  | .vshl d a b m ta tb => Sys2Proof.Machine.execVshl d a b m ta tb s
  | .vshr d a b m ta tb u => Sys2Proof.Machine.execVshr d a b m ta tb u s
  | .vshli d a n m ta => Sys2Proof.Machine.execVshli d a n m ta s
  | .vshri d a n m ta u => Sys2Proof.Machine.execVshri d a n m ta u s
  | .vaddi d a imm => Sys2Proof.Machine.execVaddi d a imm s
  | .vcmp d a b m ta tb u c => Sys2Proof.Machine.execVcmp d a b m ta tb u c s
  | .vcmpi d a imm m ta u c => Sys2Proof.Machine.execVcmpi d a imm m ta u c s
  | .vsel d a b m ta tb c => Sys2Proof.Machine.execVsel d a b m ta tb c s
  | .vpopc d a m ta => Sys2Proof.Machine.execVpopc d a m ta s
  | .vclz d a m ta => Sys2Proof.Machine.execVclz d a m ta s
  | .vmov d a m ta => Sys2Proof.Machine.execVmov d a m ta s
  | .vmovs d a m ta => Sys2Proof.Machine.execVmovs d a m ta s
  | .vli d imm => Sys2Proof.Machine.execVli d imm s
  | .vsatn d a m ta f => Sys2Proof.Machine.execVsatn d a m ta f s
  | .vdot4 d a b m ta tb u => Sys2Proof.Machine.execVdot4 d a b m ta tb u s
  | .vfadd d a b m ta tb => Sys2Proof.Machine.execVfadd d a b m ta tb s
  | .vfsub d a b m ta tb => Sys2Proof.Machine.execVfsub d a b m ta tb s
  | .vfmul d a b m ta tb => Sys2Proof.Machine.execVfmul d a b m ta tb s
  | .vfma d a b m ta tb => Sys2Proof.Machine.execVfma d a b m ta tb s
  | .vfmin d a b m ta tb => Sys2Proof.Machine.execVfmin d a b m ta tb s
  | .vfmax d a b m ta tb => Sys2Proof.Machine.execVfmax d a b m ta tb s
  | .vfsgn d a b m ta tb f => Sys2Proof.Machine.execVfsgn d a b m ta tb f s
  | .vfrcp d a m ta => Sys2Proof.Machine.execVfrcp d a m ta s
  | .vfrsq d a m ta => Sys2Proof.Machine.execVfrsq d a m ta s
  | .vfsqrt d a m ta => Sys2Proof.Machine.execVfsqrt d a m ta s
  | .vfdiv d a b m ta tb => Sys2Proof.Machine.execVfdiv d a b m ta tb s
  | .vfexp2 d a m ta => Sys2Proof.Machine.execVfexp2 d a m ta s
  | .vflog2 d a m ta => Sys2Proof.Machine.execVflog2 d a m ta s
  | .vfcmp d a b m ta tb c => Sys2Proof.Machine.execVfcmp d a b m ta tb c s
  | .vfclass d a m ta => Sys2Proof.Machine.execVfclass d a m ta s
  | .vfrnd d a m ta => Sys2Proof.Machine.execVfrnd d a m ta s
  | .vfscl d a b m ta tb => Sys2Proof.Machine.execVfscl d a b m ta tb s
  | .vhadd d a b m ta tb bf => Sys2Proof.Machine.execVhadd d a b m ta tb bf s
  | .vhmul d a b m ta tb bf => Sys2Proof.Machine.execVhmul d a b m ta tb bf s
  | .vhfma d a b m ta tb bf => Sys2Proof.Machine.execVhfma d a b m ta tb bf s
  | .vcvt d a h src m ta f => Sys2Proof.Machine.execVcvt d a h src m ta f s
  | .vcvts d a b m ta tb f => Sys2Proof.Machine.execVcvts d a b m ta tb f s
  | .vshfl d a b m ta tb f => Sys2Proof.Machine.execVshfl d a b m ta tb f s
  | .vbcst d a b m ta tb => Sys2Proof.Machine.execVbcst d a b m ta tb s
  | .vred d a m ta p y => Sys2Proof.Machine.execVred d a m ta p y s
  | .vscan d a m ta p y => Sys2Proof.Machine.execVscan d a m ta p y s
  | .vcprs d a m ta => Sys2Proof.Machine.execVcprs d a m ta s
  | .vexpd d a m ta => Sys2Proof.Machine.execVexpd d a m ta s
  | .mpopc d a m f => Sys2Proof.Machine.execMpopc d a m f s
  | .vtos d a b ta tb sx => Sys2Proof.Machine.execVtos d a b ta tb sx s
  | .stov d a b m ta tb => Sys2Proof.Machine.execStov d a b m ta tb s
  | .mlog d a b f => Sys2Proof.Machine.execMlog d a b f s
  | .mmovsMS d a => Sys2Proof.Machine.execMmovsMS d a s
  | .mmovsSM d a ta => Sys2Proof.Machine.execMmovsSM d a ta s
  | .ldv d src m o => Sys2Proof.Machine.execLdv d src m o s
  | .stv d src m o => Sys2Proof.Machine.execStv d src m o s
  | .ldvs d src x m o => Sys2Proof.Machine.execLdvs d src x m o s
  | .stvs d src x m o => Sys2Proof.Machine.execStvs d src x m o s
  | .ldvx d src x m c o => Sys2Proof.Machine.execLdvx d src x m c o s
  | .stvx d src x m c o => Sys2Proof.Machine.execStvx d src x m c o s
  | .lds d src o => Sys2Proof.Machine.execLds d src o s
  | .sts d src o => Sys2Proof.Machine.execSts d src o s
  | .rldv d src m o => Sys2Proof.Machine.execRldv d src m o s
  | .rstv d src m o => Sys2Proof.Machine.execRstv d src m o s
  | .atom d a b m ord sc p => Sys2Proof.Machine.execAtom d a b m ord sc p s
  | .ratom d a b m ord rt p => Sys2Proof.Machine.execRatom d a b m ord rt p s
  | .tak2 d m ta w => Sys2Proof.Machine.execTak2 d m ta w s
  | .put2 a b m ta tb => Sys2Proof.Machine.execPut2 a b m ta tb s
  | .pqry d => Sys2Proof.Machine.execPqry d s
  | .shape d a ta => Sys2Proof.Machine.execShape d a ta s
  | .mgat d src m o => Sys2Proof.Machine.execMgat d src m o s
  | .mlat src m o => Sys2Proof.Machine.execMlat src m o s
  | .mma a b m ta tb zp => Sys2Proof.Machine.execMma a b m ta tb zp s
  | .mmas d a b m ta tb zp => Sys2Proof.Machine.execMmas d a b m ta tb zp s
  | .mwl src m o => Sys2Proof.Machine.execMwl src m o s
  | .mwf a b m ta tb => Sys2Proof.Machine.execMwf a b m ta tb s
  | .mwb a b m ta tb => Sys2Proof.Machine.execMwb a b m ta tb s
  | .mclr m f => Sys2Proof.Machine.execMclr m f s
  | .msca a b m ta tb => Sys2Proof.Machine.execMsca a b m ta tb s
  | .mdrn d a b m ta tb f => Sys2Proof.Machine.execMdrn d a b m ta tb f s
  | .mmovpGP d m => Sys2Proof.Machine.execMmovpGP d m s
  | .mmovpGA d m => Sys2Proof.Machine.execMmovpGA d m s
  | .mmovpSP a m ta => Sys2Proof.Machine.execMmovpSP a m ta s
  | .mmovpSA a m ta => Sys2Proof.Machine.execMmovpSA a m ta s
  | .mpack d a b ta tb => Sys2Proof.Machine.execMpack d a b ta tb s
  | .munpk a b ta tb => Sys2Proof.Machine.execMunpk a b ta tb s
  | .cardck d a ta => Sys2Proof.Machine.execCardck d a ta s
  | .qpack d a b ta tb => Sys2Proof.Machine.execQpack d a b ta tb s
  | .shcp d a b bar d3 => Sys2Proof.Machine.execShcp d a b bar d3 s
  | .shtr d a exp bar sp => Sys2Proof.Machine.execShtr d a exp bar sp s
  | .shset d a b z bar d3 => Sys2Proof.Machine.execShset d a b z bar d3 s
  | .gath d a b bar ixr => Sys2Proof.Machine.execGath d a b bar ixr s
  | .scat d a b bar ixr => Sys2Proof.Machine.execScat d a b bar ixr s
  | .sred d a b p ord bar ixr => Sys2Proof.Machine.execSred d a b p ord bar ixr s
  | .wkst d a rl bar => Sys2Proof.Machine.execWkst d a rl bar s
  | .nput d a => Sys2Proof.Machine.execNput d a s
  | .nget d a bar => Sys2Proof.Machine.execNget d a bar s
  | .nred d a p => Sys2Proof.Machine.execNred d a p s
  | .nsig d a st => Sys2Proof.Machine.execNsig d a st s
  | .seal d c => Sys2Proof.Machine.execSeal d c s
  | .wait d c n => Sys2Proof.Machine.execWait d c n s
  | .wstat d a c addr => Sys2Proof.Machine.execWstat d a c addr s
  | .binit a b ta tb => Sys2Proof.Machine.execBinit a b ta tb s
  | .barv d a ta => Sys2Proof.Machine.execBarv d a ta s
  | .barx d a ta => Sys2Proof.Machine.execBarx d a ta s
  | .bwait d a ta => Sys2Proof.Machine.execBwait d a ta s
  | .bwany d a b ta tb => Sys2Proof.Machine.execBwany d a b ta tb s
  | .bpark a b ta tb => Sys2Proof.Machine.execBpark a b ta tb s
  | .binv a ta => Sys2Proof.Machine.execBinv a ta s
  | .fence src => Sys2Proof.Machine.execFence src s
  | .gbar d => Sys2Proof.Machine.execGbar d s
  | .csrr d c => Sys2Proof.Machine.execCsrr d c s
  | .csrw a c => Sys2Proof.Machine.execCsrw a c s
  | .trap a imm => Sys2Proof.Machine.execTrap a imm s
  | .bkpt a imm => Sys2Proof.Machine.execBkpt a imm s
  | .lnch d a => Sys2Proof.Machine.execLnch d a s
  | .evsig d a st => Sys2Proof.Machine.execEvsig d a st s
  | .krdr d a => Sys2Proof.Machine.execKrdr d a s
  | .kwrr a b => Sys2Proof.Machine.execKwrr a b s
  | .krsm a => Sys2Proof.Machine.execKrsm a s
  | .kkil a => Sys2Proof.Machine.execKkil a s
  | .ksav d a b => Sys2Proof.Machine.execKsav d a b s
  | .klod d a b => Sys2Proof.Machine.execKlod d a b s
  | .kret => Sys2Proof.Machine.execKret s
  | .wadd d a b => Sys2Proof.Machine.execWadd d a b s
  | .wsub d a b => Sys2Proof.Machine.execWsub d a b s
  | .wmul d a b => Sys2Proof.Machine.execWmul d a b s
  | .wand d a b => Sys2Proof.Machine.execWand d a b s
  | .wor d a b => Sys2Proof.Machine.execWor d a b s
  | .wxor d a b => Sys2Proof.Machine.execWxor d a b s
  | .wshl d a b => Sys2Proof.Machine.execWshl d a b s
  | .wshr d a b => Sys2Proof.Machine.execWshr d a b s
  | .waddi d a imm => Sys2Proof.Machine.execWaddi d a imm s
  | .wli d imm => Sys2Proof.Machine.execWli d imm s
  | .wld d a src imm => Sys2Proof.Machine.execWld d a src imm s
  | .wpref d a imm => Sys2Proof.Machine.execWpref d a imm s
  | .wbcc a b c o => Sys2Proof.Machine.execWbcc a b c o s
  | .wj o => Sys2Proof.Machine.execWj o s
  | .wpopc d a => Sys2Proof.Machine.execWpopc d a s
  | .wpfx d a b => Sys2Proof.Machine.execWpfx d a b s
  | .isect d a b e => Sys2Proof.Machine.execIsect d a b e s
  | .part d a b e => Sys2Proof.Machine.execPart d a b e s
  | .emit d a b e cr => Sys2Proof.Machine.execEmit d a b e cr s
  | .emitz d b e cr => Sys2Proof.Machine.execEmitz d b e cr s
  | .sigb a => Sys2Proof.Machine.execSigb a s
  | .wend => Sys2Proof.Machine.execWend s
  | .illegalEncoding st => Sys2Proof.Machine.execIllegalEncoding st s
  | .bringUpStep ok bad => Sys2Proof.Machine.execBringUpStep ok bad s
  | .deviceReset => Sys2Proof.Machine.execDeviceReset s
  | .walkerCommandStart cl => Sys2Proof.Machine.execWalkerCommandStart cl s
  | .walkerInstructionLimit cl => Sys2Proof.Machine.execWalkerInstructionLimit cl s
  | .walkerLoadData cl line => Sys2Proof.Machine.execWalkerLoadData cl line s
  | .walkerEmissionComplete cl n => Sys2Proof.Machine.execWalkerEmissionComplete cl n s
  | .producerComplete r n => Sys2Proof.Machine.execProducerComplete r n s
  | .remoteWritePerform r => Sys2Proof.Machine.execRemoteWritePerform r s
  | .portEntryArrive r => Sys2Proof.Machine.execPortEntryArrive r s
  | .latchFill r => Sys2Proof.Machine.execLatchFill r s
  | .mwlArrive r => Sys2Proof.Machine.execMwlArrive r s
  | .streamStep r => Sys2Proof.Machine.execStreamStep r s
  | .streamComplete r => Sys2Proof.Machine.execStreamComplete r s
  | .mscaComplete r => Sys2Proof.Machine.execMscaComplete r s
  | .translationWalkComplete k asid va => Sys2Proof.Machine.execTranslationWalkComplete k asid va s
  | .shuttleLineComplete c q k link => Sys2Proof.Machine.execShuttleLineComplete c q k link s
  | .gsElementComplete c p link => Sys2Proof.Machine.execGsElementComplete c p link s
  | .sredCombine c => Sys2Proof.Machine.execSredCombine c s
  | .sredUpdateApply c g link => Sys2Proof.Machine.execSredUpdateApply c g link s
  | .networkAck c l st data => Sys2Proof.Machine.execNetworkAck c l st data s
  | .networkTimeout c => Sys2Proof.Machine.execNetworkTimeout c s
  | .peerAccessArrival src acc => Sys2Proof.Machine.execPeerAccessArrival src acc s
  | .peerFlitForward dst data => Sys2Proof.Machine.execPeerFlitForward dst data s
  | .nredReceive c frm v nf bad => Sys2Proof.Machine.execNredReceive c frm v nf bad s
  | .peerFlitCrcError p => Sys2Proof.Machine.execPeerFlitCrcError p s
  | .treadleFlitCrcError => Sys2Proof.Machine.execTreadleFlitCrcError s
  | .hostRead a n => Sys2Proof.Machine.execHostRead a n s
  | .hostWrite a data => Sys2Proof.Machine.execHostWrite a data s
  | .hostReadHoldTimeout => Sys2Proof.Machine.execHostReadHoldTimeout s
  | .qtailWrite q v => Sys2Proof.Machine.execQtailWrite q v s
  | .xinvcGo v => Sys2Proof.Machine.execXinvcGo v s
  | .invalidationDone => Sys2Proof.Machine.execInvalidationDone s
  | .registerWrite off v => Sys2Proof.Machine.execRegisterWrite off v s
  | .paceevRead r d => Sys2Proof.Machine.execPaceevRead r d s
  | .pacereqWrite r v => Sys2Proof.Machine.execPacereqWrite r v s
  | .rdpoints => Sys2Proof.Machine.execRdpoints s
  | .quote => Sys2Proof.Machine.execQuote s
  | .setcap => Sys2Proof.Machine.execSetcap s
  | .rdlog => Sys2Proof.Machine.execRdlog s
  | .fwchunk => Sys2Proof.Machine.execFwchunk s
  | .fwcommit => Sys2Proof.Machine.execFwcommit s
  | .mbReset => Sys2Proof.Machine.execMbReset s
  | .keystat => Sys2Proof.Machine.execKeystat s
  | .preempt => Sys2Proof.Machine.execPreempt s
  | .resume => Sys2Proof.Machine.execResume s
  | .endlaunch => Sys2Proof.Machine.execEndlaunch s
  | .mailboxReply => Sys2Proof.Machine.execMailboxReply s
  | .dcmdKrdr g => Sys2Proof.Machine.execDcmdKrdr g s
  | .dcmdKwrr g => Sys2Proof.Machine.execDcmdKwrr g s
  | .dcmdKrsm g => Sys2Proof.Machine.execDcmdKrsm g s
  | .dcmdKkil g => Sys2Proof.Machine.execDcmdKkil g s
  | .channelRetrain ch => Sys2Proof.Machine.execChannelRetrain ch s
  | .retrainComplete ch ok => Sys2Proof.Machine.execRetrainComplete ch ok s
  | .commandParityAlert ch ok hist => Sys2Proof.Machine.execCommandParityAlert ch ok hist s
  | .patrolScrub pc => Sys2Proof.Machine.execPatrolScrub pc s
  | .stackHighEnter st => Sys2Proof.Machine.execStackHighEnter st s
  | .stackHighLeave st => Sys2Proof.Machine.execStackHighLeave st s
  | .packageFreeze st => Sys2Proof.Machine.execPackageFreeze st s
  | .freezeGate => Sys2Proof.Machine.execFreezeGate s
  | .freezeRelease => Sys2Proof.Machine.execFreezeRelease s
  | .freezeResume dur => Sys2Proof.Machine.execFreezeResume dur s
  | .junctionThrottle cl lv => Sys2Proof.Machine.execJunctionThrottle cl lv s
  | .overcurrent cl => Sys2Proof.Machine.execOvercurrent cl s
  | .overcurrentEnd cl => Sys2Proof.Machine.execOvercurrentEnd cl s
  | .thermalTrip coolant => Sys2Proof.Machine.execThermalTrip coolant s
  | .arbiterRound => Sys2Proof.Machine.execArbiterRound s
  | .paceSwitch cl => Sys2Proof.Machine.execPaceSwitch cl s
  | .paceSwitchComplete cl => Sys2Proof.Machine.execPaceSwitchComplete cl s
  | .paceChangeAbandon cl => Sys2Proof.Machine.execPaceChangeAbandon cl s
  | .paceHnApply => Sys2Proof.Machine.execPaceHnApply s
  | .rationMeasure cl mw => Sys2Proof.Machine.execRationMeasure cl mw s
  | .watchdog r => Sys2Proof.Machine.execWatchdog r s
  | .yieldIntervalEnd r => Sys2Proof.Machine.execYieldIntervalEnd r s
  | .eventSlotPoll q => Sys2Proof.Machine.execEventSlotPoll q s
  | .launchAccept => Sys2Proof.Machine.execLaunchAccept s
  | .skeinPlace l => Sys2Proof.Machine.execSkeinPlace l s
  | .skeinReservation l => Sys2Proof.Machine.execSkeinReservation l s
  | .gangReservation l => Sys2Proof.Machine.execGangReservation l s
  | .stagingRegionRetire bd => Sys2Proof.Machine.execStagingRegionRetire bd s
  | .launchComplete l => Sys2Proof.Machine.execLaunchComplete l s
  | .continuationStart k => Sys2Proof.Machine.execContinuationStart k s
  | .barrierRelease r => Sys2Proof.Machine.execBarrierRelease r s
  | .gbarSlewRelease l d => Sys2Proof.Machine.execGbarSlewRelease l d s
  | .preemptRequest bd => Sys2Proof.Machine.execPreemptRequest bd s
  | .streamStarved r => Sys2Proof.Machine.execStreamStarved r s
  | .monitorTrapDispatch g => Sys2Proof.Machine.execMonitorTrapDispatch g s
  | .handlerInstructionLimit g => Sys2Proof.Machine.execHandlerInstructionLimit g s
  | .pcSample g p => Sys2Proof.Machine.execPcSample g p s
  | .tracePortSend d => Sys2Proof.Machine.execTracePortSend d s
  | .illegalWalkerWord cl => Sys2Proof.Machine.execIllegalWalkerWord cl s
  | .instructionFetchComplete r => Sys2Proof.Machine.execInstructionFetchComplete r s
  | .evsigUpdatePerformed r => Sys2Proof.Machine.execEvsigUpdatePerformed r s
  | .lnchBlockTaken r => Sys2Proof.Machine.execLnchBlockTaken r s

end Sys2Proof.Machine
end

