-- ==== Sys2Proof/Machine/Turns.lean ====
section
/-! DEFINITION. The turns of the machine: which row an issue slot takes and what it runs, the words of monitors and walkers,
clock pulses, and inputs from outside (R6, R58, R193, R268, R364, R369, R370, R394 to R396, R403 to R408, R446). -/
namespace Sys2Proof.Machine

/-! ### Results -/

/-- The state after a turn has no active agent. -/
def idleAfter : Out → Out
  | .next t => .next { t with active := .none }
  | .fault f => .fault f
  | .refused r => .refused r

/-- An instruction executed by an agent. -/
def runAs (s : State) (a : Agent) (i : Instr) : Out := idleAfter (exec i { s with active := a })

/-! ### Rows -/

/-- The instruction a row reads in a word: every 0xEF word fails step 3 of R58, and a word that fails another check of
steps 1 to 6 is illegal at that step. -/
def rowInstr (w : Word) : Instr :=
  if w.extractLsb' 24 8 = 0xEF then .illegalEncoding 3
  else
    match decodeRow w with
    | .ok i => i
    | .error k => .illegalEncoding k

/-- PC breakpoint n of a core matches a row (R446). -/
def breakMatches (k : Debug) (n : Fin 8) (asid : BitVec 6) (r : RowId) (pc : Dword) : Bool :=
  let a := k.bpaddr[n.val]
  let c := k.bpctl[n.val]
  let p := r.prow.toNat
  tst a 0 && pc &&& ~~~(3 : Dword) == a &&& ~~~(3 : Dword) && decide (fld c 9 4 = asid.toNat) && tst c r.pane.toNat
    && (if p < 64 then tst k.bplo[n.val] p else tst k.bphi[n.val] (p - 64))

/-- The lowest PC breakpoint that a row meets before it issues the word at its PC: not within a repeat, and not right after
KRSM (R446). DEDUCED: log entry 67. -/
def breakHit (s : State) (r : RowId) (x : Row) (b : Band) : Option (Fin 8) :=
  if x.ctl.exempt || x.repix != 0 then none
  else ([0, 1, 2, 3, 4, 5, 6, 7] : List (Fin 8)).find? (fun n => breakMatches (s.core r.core).dbg n (s.bandAsid b) r x.pc)

/-- A row takes what is due before it issues: PARITY that has been reported, at its boundary (R399, R403); the trap of a wait that has
reached its limit (R395); a PC breakpoint, at which the row has not issued (R446). DEDUCED: log entry 67. -/
def rowDue (s : State) (r : RowId) (x : Row) (b : Band) : Option Out :=
  match (if x.repix = 0 then takeParity s r x else none) with
  | some t => some (.next t)
  | none =>
    if (watchdogDue x).isSome then some (execWatchdog r s)
    else (breakHit s r x b).map (fun n => .next (takeTrap s r x 0x0E (BitVec.ofNat 8 (n.val + 1)) 0 0))

/-- Register-file operand reads that an instruction makes: one for each field or register of a group that it reads.
DEDUCED: log entry 88. -/
def operandReads (i : Instr) : Nat :=
  match i with
  | .imx .. | .rep .. | .mod .. | .schd .. | .sli .. | .bra .. | .call .. | .exit | .yield | .nop | .ifm .. | .elsem ..
  | .endifm | .loopm .. | .brkm .. | .endl .. | .vli .. | .mpopc .. | .mlog .. | .mmovsMS .. | .tak2 .. | .pqry ..
  | .mclr .. | .mmovpGP .. | .mmovpGA .. | .seal .. | .wait .. | .fence .. | .gbar .. | .csrr .. | .illegalEncoding .. => 0
  | .saddi .. | .sandi .. | .sori .. | .sxori .. | .sshli .. | .sshri .. | .spopc .. | .sclz .. | .smov .. | .bz .. | .bnz ..
  | .ret .. | .jmpr .. | .vabs .. | .vshli .. | .vshri .. | .vaddi .. | .vcmpi .. | .vpopc .. | .vclz .. | .vmov .. | .vmovs ..
  | .vsatn .. | .vfrcp .. | .vfrsq .. | .vfsqrt .. | .vfexp2 .. | .vflog2 .. | .vfclass .. | .vfrnd .. | .vred .. | .vscan ..
  | .vcprs .. | .vexpd .. | .mmovsSM .. | .ldv .. | .lds .. | .rldv .. | .shape .. | .mlat .. | .mwl .. | .mmovpSP ..
  | .mmovpSA .. | .cardck .. | .wstat .. | .barv .. | .barx .. | .bwait .. | .binv .. | .csrw .. | .trap .. | .bkpt ..
  | .lnch .. => 1
  | .ssel .. | .vmad .. | .vdot4 .. | .vfma .. | .vhfma .. | .stvs .. | .stvx .. | .mmas .. => 3
  | .shcp .. | .shtr .. | .shset .. | .gath .. | .scat .. | .sred .. | .wkst .. | .nput .. | .nget .. | .nred .. | .nsig .. => 4
  | _ => 2

/-- Operand reads that a pane of a partition is delivered in a V-cycle at a ration level (R392). DEDUCED: log entry 88. -/
def rationCap (level : Nat) : Nat := ([6, 4, 3].getD level 2)

/-- What a row's pane has used of the present V-cycle. -/
def State.slotUse (s : State) (g : CoreId) (part : Nat) (pane : BitVec 2) : SlotUse :=
  let now := (s.core g).cycle.toNat + 1
  match (s.core g).slotUse[4 * part + pane.toNat]? with
  | some u => if u.stamp = now then u else ⟨now, 0, 0⟩
  | none => ⟨now, 0, 0⟩

/-- The state in which a pane of a partition has used n more slots and m more reads of the present V-cycle. -/
def State.useSlot (s : State) (g : CoreId) (part : Nat) (pane : BitVec 2) (n m : Nat) : State :=
  let u := s.slotUse g part pane
  let k := 4 * part + pane.toNat
  s.modCore g (fun c => { c with
    slotUse := if h : k < 24 then c.slotUse.set k ⟨u.stamp, u.slots + n, u.reads + m⟩ h else c.slotUse })

/-- The operand reads that a row's next instruction still needs, and those that its pane is still delivered in this V-cycle
(R392). DEDUCED: log entry 88. -/
def readsLeft (s : State) (r : RowId) (x : Row) (i : Instr) : Nat × Nat :=
  let level := (s.cluster (clusterOf r.core)).pace.ration
  (operandReads i - x.ctl.gather.1, rationCap level - (s.slotUse r.core (r.prow.toNat / 16) r.pane).reads)

/-- A row is chosen and gathers what operands it is delivered, without those it needs: it issues once it has them, before any other
row of its pane (R370, R392). DEDUCED: log entry 88. -/
def gatherPart (s : State) (r : RowId) (x : Row) (free : Nat) : State :=
  (s.useSlot r.core (r.prow.toNat / 16) r.pane 0 free).setRow r { x with
    ctl := { x.ctl with wait := none, gather := (x.ctl.gather.1 + free, s.stampAt r) } }

/-- An instance that has issued has used a slot and its operand reads of its pane (R369, R392). -/
def usedSlot (t : State) (r : RowId) (need : Nat) : State :=
  (t.modRow r (fun y => { y with ctl := { y.ctl with gather := (0, 0) } })).useSlot r.core (r.prow.toNat / 16) r.pane 1 need

/-- A row's attempt came to a wait that goes on: nothing has been issued. DEDUCED: log entry 77. -/
def stillWaits (s t : State) (r : RowId) : Bool :=
  match s.row? r, t.row? r with
  | some x, some y => y.ctl.wait.isSome && y.ctl.barrier == x.ctl.barrier && y.ctl.lnch == x.ctl.lnch && y.ctl.evsig == x.ctl.evsig
  | _, _ => false

/-- A row executes the instruction of the word it holds: one that waits is noted as waiting; one that does not issues, once it has
its operands. Rationing thus lengthens gathering only, and changes neither which row issues nor a result (R370, R392). -/
def runInstr (s : State) (r : RowId) (x : Row) (i : Instr) : Out :=
  let (need, free) := readsLeft s r x i
  match runAs s (.row r) i with
  | .next t =>
    if stillWaits s t r then .next t
    else if need ≤ free then .next (usedSlot t r need)
    else .next (gatherPart s r x free)
  | o => o

/-- A row with a word to issue executes it. -/
def runFetched (s : State) (r : RowId) : Out :=
  match s.row? r with
  | some x =>
    match x.ibuf with
    | some w => runInstr s r x (rowInstr w)
    | none => .next s
  | none => .next s

/-- A row attempts its next word: what is due before it issues, the fetch where it holds no word, the word. -/
def rowTurn (s : State) (r : RowId) : Out :=
  match s.row? r with
  | none => .next s
  | some x =>
    match s.band? x.band with
    | none => .next s
    | some b =>
      match rowDue s r x b with
      | some o => o
      | none =>
        if x.ibuf.isSome then runFetched s r
        else
          match execInstructionFetchComplete r s with
          | .next t => runFetched t r
          | o => o

/-! ### The choice of a row (R55, R270, R369) -/

/-- YP of a row's pending SCHD. DEDUCED: log entry 67. -/
def schdYp (x : Row) : Nat :=
  match x.hints.schd with
  | some p => (p.extractLsb' 21 2).toNat
  | none => 0

/-- Row p goes before row q in an issue slot: one that has been chosen and gathers its operands, then one not in its YIELD interval,
then the higher YP, then the one that issued in an earlier V-cycle or not yet, then the lower physical row. -/
def issuesBefore (p q : RowId × Row) : Bool :=
  let k (z : RowId × Row) : Nat × Nat :=
    (if z.2.ctl.gather.2 ≠ 0 then 0 else (if z.2.ctl.yieldLeft = 0 then 1 else 5) + (3 - schdYp z.2), z.2.ctl.stamp)
  decide ((k p).1 < (k q).1) || (decide ((k p).1 = (k q).1) && (decide ((k p).2 < (k q).2)
    || (decide ((k p).2 = (k q).2) && decide (p.1.prow.toNat ≤ q.1.prow.toNat))))

/-- A row put in its place in an ordered list. -/
def insertRow (p : RowId × Row) : List (RowId × Row) → List (RowId × Row)
  | [] => [p]
  | q :: l => if issuesBefore p q then p :: q :: l else q :: insertRow p l

/-- The rows of a pane of a partition that may issue, in the order in which a slot takes the first ready one.
DEDUCED: log entry 67. -/
def issueOrder (s : State) (g : CoreId) (part : Nat) (pane : BitVec 2) : List RowId :=
  let l := s.rows.filter (fun p : RowId × Row =>
    p.1.core == g && p.1.pane == pane && p.1.prow.toNat / 16 == part && !rowHeld s p.1 p.2
      && !rowFetchHeld s p.1 p.2)
  (l.foldr insertRow []).map (fun p => p.1)

/-- An issue slot goes to the first ready row of a list; the waits of the rows passed over are noted.
DEDUCED: log entry 77. -/
def tryRows : List RowId → State → Out
  | [], s => .next s
  | r :: l, s =>
    match rowTurn s r with
    | .next t => if stillWaits s t r then tryRows l t else .next t
    | o => o

/-- An issue slot of a pane of a partition, of which each V-cycle has 2 (R369). -/
def slotTurn (s : State) (g : CoreId) (part : Nat) (pane : BitVec 2) : Out :=
  if 2 ≤ (s.slotUse g part pane).slots then .next s else tryRows (issueOrder s g part pane) s

/-! ### Monitors and walkers -/

/-- The words that the monitor executes (R405); in handler mode CSRW, KSAV and KLOD are excluded (R408). -/
def monAllowed (handler : Bool) (i : Instr) : Bool :=
  match i with
  | .imx .. | .sadd .. | .ssub .. | .smul .. | .smulh .. | .sdiv .. | .srem .. | .sand .. | .sor .. | .sxor .. | .sshl ..
  | .sshr .. | .smin .. | .smax .. | .scmp .. | .ssel .. | .saddi .. | .sandi .. | .sori .. | .sxori .. | .sshli ..
  | .sshri .. | .sli .. | .spopc .. | .sclz .. | .smov .. | .bra .. | .bz .. | .bnz .. | .call .. | .ret .. | .jmpr ..
  | .nop | .csrr .. | .krdr .. | .kwrr .. | .krsm .. | .kkil .. | .kret => true
  | .csrw .. | .ksav .. | .klod .. => !handler
  | _ => false

/-- Bytes of a monitor's firmware memory (DESIGN CHOICE, log entry 2). -/
def firmwareSize : Nat := 2 ^ 16

/-- The word at a monitor's PC: from its own memory in privileged mode (R405), from the kernel image in handler mode
(R407). In privileged mode there is no word at a PC that is not a multiple of 4 or lies outside that memory: the firmware stops
there (DESIGN CHOICE, log entry 20). -/
def monFetch (s : State) (g : CoreId) : State × Option Word :=
  let m := (s.core g).mon
  match m.mode with
  | .handler =>
    match monRow s g with
    | some (_, _, b) =>
      match fetchWord s g (s.bandAsid b) m.pc with
      | (t, .ok w) => (t, some w)
      | (t, .error _) => (t, none)
    | none => (s, none)
  | _ => (s, if m.pc.toNat + 4 ≤ firmwareSize ∧ m.pc.toNat % 4 = 0 then some (memWord s.mem (monitorKey g.toNat m.pc.toNat)) else none)

/-- The fetch of a handler's next word waits at the memory (R107, R118). -/
def monFetchHeld (s : State) (g : CoreId) : Bool :=
  match (s.core g).mon.mode, monRow s g with
  | .handler, some (_, _, b) => fetchHeld s g (s.bandAsid b) (s.core g).mon.pc
  | _, _ => false

/-- A monitor executes a word: its limit (R408), the fetch, the words it may execute. -/
def monitorTurn (s : State) (g : CoreId) : Out :=
  let m := (s.core g).mon
  if m.mode = .idle then .next s
  else if m.handles && decide (handlerLimit ≤ m.count + 1) then execHandlerInstructionLimit g s
  else if monFetchHeld s g then .next s
  else
    match monFetch s g with
    | (t, none) => monReject t g
    | (t, some w) =>
      match decodeRow w with
      | .ok i => if monAllowed m.handles i then runAs t (.monitor g) i else monReject t g
      | .error _ => monReject t g

/-- The firmware of a core is activated at a PC in privileged mode (R405); it has taken the next trapped row.
DESIGN CHOICE: log entry 20. -/
def firmwareTurn (s : State) (g : CoreId) (pc : Dword) : State :=
  if (s.core g).mon.mode = .idle then
    s.modMon g (fun m => { m with
      mode := .privileged
      pc := pc
      imx1 := none
      imx2 := none
      count := 0
      row := nextTrapped s g })
  else s

/-- A walker executes a word of its program, unless it has stopped or its command is held by a pre-emption (R193, R195,
R418). -/
def walkerTurn (s : State) (cl : ClusterId) : Out :=
  let w := s.walker cl
  match walkCmd s cl with
  | none => .next s
  | some k =>
    if w.stop.isSome || cmdStopped s k then .next s
    else if 2 ^ 32 ≤ w.count then execWalkerInstructionLimit cl s
    else if k.nwords ≤ w.pc then .next (walkOffEnd s cl)
    else
      match w.prog[w.pc]?.bind decodeWalker with
      | some i => runAs s (.walker cl) i
      | none => execIllegalWalkerWord cl s

/-! ### Pulses (R6, R392 to R396) -/

/-- The wait to which an attempt at a row's next word comes. -/
def attemptWait (s : State) (r : RowId) : Option WaitRec :=
  match (s.row? r).bind (fun x => x.ibuf) with
  | none => none
  | some w =>
    match exec (rowInstr w) { s with active := .row r } with
    | .next t => if stillWaits s t r then (t.row? r).bind (fun y => y.ctl.wait) else none
    | _ => none

/-- A row that has begun to wait in a domain waits in it still: at a barrier until it is released, in LNCH or EVSIG until the
distributor has answered, otherwise as long as its instruction cannot issue (R395). -/
def waitGoesOn (s : State) (r : RowId) (x : Row) (d : Dom) : Bool :=
  match x.ctl.barrier, s.band? x.band with
  | some w, some b => (w.resolve s r x).isNone || gbarSlewHeld s r b w
  | _, _ => x.ctl.lnch.isSome || x.ctl.evsig.isSome || (match attemptWait s r with
    | some w => w.dom == d
    | none => false)

/-- The waits of a domain count n pulses in the rows of a kind, as long as they go on; a row that is held counts none (R394, R395). -/
def countWaits (s : State) (d : Dom) (n : Nat) (p : RowId → Bool) : State :=
  s.mapRows (fun r x =>
    if p r && x.ctl.wait.any (fun w => w.dom == d) && !rowHeld s r x && waitGoesOn s r x d then
      { x with ctl := { x.ctl with wait := x.ctl.wait.map (fun w =>
        if w.dom = d then { w with count := w.count + n } else w) } }
    else x)

/-- The cores of a cluster changed. -/
def modClusterCores (s : State) (cl : ClusterId) (f : Core → Core) : State :=
  (List.range 4).foldl (fun s k => s.modCore (clusterCore cl k) f) s

/-- Pulses withheld at a delivery are seen in PACEEV (R393). -/
def noteSkips (s : State) (cl : ClusterId) : State := if (s.cluster cl).pace.skips then markSkipping s cl else s

/-- n M pulses in a cluster. DESIGN CHOICE: log entry 18. -/
def pulsesM (s : State) (cl : ClusterId) (n : Nat) : State :=
  let s := modClusterCores (noteSkips s cl) cl (fun k => { k with mcycle := k.mcycle + dw n })
  countWaits s .m n (fun r => clusterOf r.core == cl)

/-- A YIELD interval after n more V-cycles: it stands at 1 until YIELD_INTERVAL_END (R270). -/
def yieldAfter (left n : Nat) : Nat := if left = 0 then 0 else max 1 (left - n)

/-- n V pulses in a cluster: CYCLE, the waits, YIELD intervals and the count of a pending change.
DESIGN CHOICE: log entry 18. -/
def pulsesV (s : State) (cl : ClusterId) (n : Nat) : State :=
  let s := modClusterCores (noteSkips s cl) cl (fun k => { k with cycle := k.cycle + dw n })
  let s := countWaits s .v n (fun r => clusterOf r.core == cl)
  let s := s.mapRows (fun r x =>
    if clusterOf r.core = cl then { x with ctl := { x.ctl with yieldLeft := yieldAfter x.ctl.yieldLeft n } } else x)
  s.modPace cl (fun p => if p.pending.isSome then { p with pendCount := p.pendCount + n } else p)

/-- n N pulses: the waits, and the time that network commands have taken (R440). DESIGN CHOICE: log entry 18. -/
def pulsesN (s : State) (n : Nat) : State :=
  let s := countWaits s .n n (fun _ => true)
  { s with cmds := s.cmds.map (fun k => if k.cls = .nw then { k with timer := k.timer + n } else k) }

/-- n cycles of the distributor's clock: the launches that wait for a place (R364); what has come into the way of a
reservation, or could not be pre-empted before, is pre-empted (R368). DESIGN CHOICE: log entry 18. -/
def pulsesD (s : State) (n : Nat) : State :=
  let t := { s with launches := s.launches.map (fun l => if wantsPlace s l then { l with waited := l.waited + n } else l) }
  (s.launches.filter (fun l => !l.reserved.isEmpty)).foldl (fun t l => requestBlockers t l.id) t

/-! ### Errors from outside (R111, R112, R403, R404) -/

/-- A number put into a list without repeats. -/
def addOnce (l : List Nat) (x : Nat) : List Nat := if l.contains x then l else x :: l

/-- A line of main memory becomes uncorrectable, or correctable. -/
def lineError (s : State) (line : Nat) (hard : Bool) : State :=
  if hard then { s with
    badLines := addOnce s.badLines line
    weakLines := s.weakLines.filter (fun l => l != line) }
  else if s.badLines.contains line then s
  else { s with weakLines := addOnce s.weakLines line }

/-- The places of the parity errors of a queue of n items with one more at place i. DEDUCED: log entry 34. -/
def badAt (n i : Nat) (l : List Nat) : List Nat := if i < n then addOnce l i else l

/-- A parity error arises in a row: structure 0 and 1 are the registers, 2 to 5 as R400 numbers them; of a queue, in the item at
a place that it holds. DEDUCED: log entry 34. -/
def rowParityError (x : Row) (k : Nat) (i : Reg) (lane : BitVec 6) : Row :=
  let bit : Mask := 1#64 <<< lane.toNat
  match k with
  | 0 => { x with regs := { x.regs with vbad :=
      if h : i.toNat < 28 then x.regs.vbad.set i.toNat (x.regs.vbad[i.toNat] ||| bit) h else x.regs.vbad } }
  | 1 => { x with regs := { x.regs with sbad := x.regs.sbad ||| (1#32 <<< i.toNat) } }
  | 4 => match i.toNat with
    | 0 => { x with mx := { x.mx with pbad := x.mx.pbad ||| bit } }
    | 1 => { x with mx := { x.mx with abad := x.mx.abad ||| bit } }
    | 2 => { x with mx := { x.mx with wbad := x.mx.wbad ||| bit } }
    | _ => x
  | 2 => { x with north := { x.north with bad := badAt x.north.fifo.length i.toNat x.north.bad } }
  | 3 => { x with mx := { x.mx with latchBad := badAt x.mx.latch.length (i.toNat * 64 + lane.toNat) x.mx.latchBad } }
  | 5 => { x with mx := { x.mx with rqBad := badAt x.mx.rq.length i.toNat x.mx.rqBad } }
  | _ => x

/-! ### Which turns take place -/

/-- The events of the opcode table. ILLEGAL_ENCODING comes only from a row's word. -/
def isEvent (i : Instr) : Bool :=
  match i with
  | .walkerCommandStart .. | .walkerInstructionLimit .. | .walkerLoadData .. | .walkerEmissionComplete ..
  | .producerComplete .. | .remoteWritePerform .. | .portEntryArrive .. | .latchFill .. | .mwlArrive .. | .streamStep ..
  | .streamComplete .. | .mscaComplete .. | .translationWalkComplete .. | .shuttleLineComplete .. | .gsElementComplete ..
  | .sredCombine .. | .sredUpdateApply .. | .networkAck .. | .networkTimeout .. | .peerAccessArrival ..
  | .peerFlitForward .. | .nredReceive .. | .peerFlitCrcError .. | .treadleFlitCrcError | .hostRead .. | .hostWrite ..
  | .hostReadHoldTimeout | .qtailWrite .. | .xinvcGo .. | .invalidationDone | .registerWrite .. | .paceevRead ..
  | .pacereqWrite .. | .rdpoints | .quote | .setcap | .rdlog | .fwchunk | .fwcommit | .mbReset | .keystat | .preempt
  | .resume | .endlaunch | .mailboxReply | .dcmdKrdr .. | .dcmdKwrr .. | .dcmdKrsm .. | .dcmdKkil .. | .deviceReset
  | .bringUpStep .. | .channelRetrain .. | .retrainComplete .. | .commandParityAlert .. | .patrolScrub ..
  | .stackHighEnter .. | .stackHighLeave .. | .packageFreeze .. | .freezeGate | .freezeRelease | .freezeResume ..
  | .junctionThrottle .. | .overcurrent .. | .overcurrentEnd .. | .thermalTrip .. | .arbiterRound | .paceSwitch ..
  | .paceSwitchComplete .. | .paceChangeAbandon .. | .paceHnApply | .rationMeasure .. | .watchdog .. | .yieldIntervalEnd ..
  | .eventSlotPoll .. | .launchAccept | .skeinPlace .. | .skeinReservation .. | .gangReservation ..
  | .stagingRegionRetire .. | .launchComplete .. | .continuationStart .. | .barrierRelease .. | .gbarSlewRelease ..
  | .preemptRequest .. | .streamStarved .. | .monitorTrapDispatch .. | .handlerInstructionLimit .. | .pcSample ..
  | .tracePortSend .. | .illegalWalkerWord .. | .instructionFetchComplete .. | .evsigUpdatePerformed ..
  | .lnchBlockTaken .. => true
  | _ => false

/-- The events that take place while every clock of the package is stopped: those of the management processor, of the
links and of temperature (R118, R120, R477). -/
def eventWhileFrozen (i : Instr) : Bool :=
  match i with
  | .hostRead .. | .hostWrite .. | .hostReadHoldTimeout | .rdpoints | .quote | .setcap | .rdlog | .fwchunk | .fwcommit
  | .mbReset | .keystat | .mailboxReply | .deviceReset | .thermalTrip .. | .stackHighEnter .. | .stackHighLeave ..
  | .freezeRelease | .freezeResume .. | .retrainComplete .. => true
  | .registerWrite off _ => decide (off < 0x4000) || (decide (0x60000 ≤ off) && decide (off < 0x60020))
  | _ => false

/-- The cluster whose M and V clocks an event needs (R386). -/
def eventCluster (i : Instr) : Option ClusterId :=
  match i with
  | .producerComplete r _ | .remoteWritePerform r | .portEntryArrive r | .latchFill r | .mwlArrive r | .streamStep r
  | .streamComplete r | .mscaComplete r | .streamStarved r | .instructionFetchComplete r | .barrierRelease r
  | .watchdog r | .yieldIntervalEnd r | .paceevRead r _ | .pacereqWrite r _ | .evsigUpdatePerformed r
  | .lnchBlockTaken r => some (clusterOf r.core)
  | .walkerCommandStart cl | .walkerInstructionLimit cl | .walkerLoadData cl _ | .walkerEmissionComplete cl _
  | .illegalWalkerWord cl | .rationMeasure cl _ => some cl
  | .monitorTrapDispatch g | .handlerInstructionLimit g | .dcmdKrdr g | .dcmdKwrr g | .dcmdKrsm g | .dcmdKkil g
  | .pcSample g _ => some (clusterOf g)
  | _ => none

/-- The cluster whose M and V clocks a turn needs. -/
def turnCluster (t : Turn) : Option ClusterId :=
  match t with
  | .slot g _ _ | .monitor g | .firmware g _ => some (clusterOf g)
  | .atomStep r | .abandon r _ _ => some (clusterOf r.core)
  | .walker cl | .pulsesM cl _ | .pulsesV cl _ => some cl
  | .event i => eventCluster i
  | _ => none

/-- A turn of the machine's clocks, which a freeze stops; errors, references and the events above go on. -/
def stoppedByFreeze (t : Turn) : Bool :=
  match t with
  | .event i => !eventWhileFrozen i
  | .reference _ | .crossFail _ | .hbmError _ _ | .wordError _ | .parityError _ _ _ _ => false
  | _ => true

/-- The events that take place in recovery mode: those of the management processor and of the host's link; it answers the
commands that recovery mode does not serve with NOTREADY (R475). DEDUCED: log entry 100. -/
def eventInRecovery (i : Instr) : Bool :=
  match i with
  | .hostRead .. | .hostWrite .. | .hostReadHoldTimeout | .qtailWrite .. | .registerWrite .. | .treadleFlitCrcError
  | .rdpoints | .quote | .setcap | .rdlog | .fwchunk | .fwcommit | .mbReset | .keystat | .preempt | .resume | .endlaunch
  | .mailboxReply | .deviceReset | .thermalTrip .. => true
  | _ => false

/-- A turn of what recovery mode leaves unpowered or untrained: HBM, the cores, the peer links (R475). DEDUCED: log entry
100. DEDUCED: log entry 100. -/
def stoppedInRecovery (t : Turn) : Bool :=
  match t with
  | .event i => !eventInRecovery i
  | .reference _ | .crossFail _ | .hbmError _ _ | .wordError _ | .parityError _ _ _ _ => false
  | _ => true

/-- A turn does not take place: the package is frozen (R118), the device is in recovery mode (R475), or the clocks it needs
are stopped for a switch (R386). -/
def turnBlocked (s : State) (t : Turn) : Bool :=
  (s.frozen && stoppedByFreeze t) || (s.mgmt.bootState == 2 && stoppedInRecovery t) || (match turnCluster t with
    | some cl => (s.cluster cl).pace.switching
    | none => false)

/-! ### What a row waits for, as a sample records it (R449) -/

/-- The state with what makes a row wait for a reason taken away: only to find the reasons behind it.
DEDUCED: log entry 102. -/
def withoutWait (reason : Nat) (s : State) (r : RowId) : State :=
  match reason with
  | 1 => s.modRow r (fun x => { x with
      regs := { x.regs with sfull := BitVec.allOnes 32, vfull := BitVec.allOnes 32 }, prods := [] })
  | 2 => s.modRow r (fun x => { x with north := { x.north with fifo := x.north.fifo ++ [zeroEntry] } })
  | 3 => s.modRow r (fun x => { x with south := { x.south with orphan := true } })
  | 4 | 5 => s.modRow r (fun x => { x with mx := { x.mx with
      running := none, queued := none, msca := none, latch := [], fly := [], rq := x.mx.rq ++ [zeroLanes] } })
  | 7 => { s with cmds := s.cmds.map (fun k => { k with sb := [] }) }
  | 8 => s.modRow r (fun x => { x with cls := Vector.replicate 5 ClassState.start })
  | 10 => { s with cmds := s.cmds.map (fun k => { k with cls := .mx }) }
  | _ => s

/-- The codes of the conditions that hold for a row's next instruction, one after another. -/
def waitCodes : Nat → State → RowId → List Nat
  | 0, _, _ => []
  | n + 1, s, r =>
    match attemptWait s r with
    | some k => k.reason :: waitCodes n (withoutWait k.reason s r) r
    | none => []

/-- The lowest code from 1 to 11 whose condition holds for a row's next instruction, else 15 (R449); 11 is a row that has been
chosen and gathers its operands (R392). DEDUCED: log entry 102. -/
def lowestWait (s : State) (r : RowId) (x : Row) : Nat :=
  (waitCodes 12 s r).foldl min (if x.ctl.gather.2 = 0 then 15 else 11)

/-- What an event finds noted for it: before a sample, the stall reason of the row that it takes (R449). -/
def beforeEvent (s : State) (i : Instr) : State :=
  match i with
  | .pcSample g p =>
    match nextSampled s g p ((s.core g).sampler[p]?.getD 0) with
    | some r => s.modRow r (fun x => { x with ctl := { x.ctl with stall := lowestWait s r x } })
    | none => s
  | _ => s

/-! ### A card instruction abandoned (R315) -/

/-- The instructions that a pre-emption may abandon (R315). -/
def mayAbandon (i : Instr) : Bool :=
  match i with
  | .mpack .. | .munpk .. | .cardck .. | .qpack .. => true
  | _ => false

/-- A row whose band is being pre-empted abandons the card instruction at its PC (R315): of the bytes that the instruction
would write, those in [lo, hi) of the window are written and stay; the row is left as it was, at the instruction.
DESIGN CHOICE: log entry 89. -/
def abandonTurn (s : State) (r : RowId) (lo hi : Nat) : State :=
  match s.row? r with
  | none => s
  | some x =>
    match s.band? x.band, x.ibuf with
    | some b, some w =>
      if preempting s x && x.live && x.ctl.trap.isNone && mayAbandon (rowInstr w) then
        match exec (rowInstr w) { s with active := .row r } with
        | .next t =>
          if ((t.row? r).map (fun y => y.pc)) = some (x.pc + 4) ∧ hi ≤ b.wsize then
            let u := flushPosted s r
            let k := sideKey b.core.toNat (b.wbase + lo)
            { u with
              mem := memWrite u.mem k (memRead t.mem k (hi - lo))
              badWords := u.badWords.filter (fun z => t.badWords.contains z || decide (8 * z < k) || decide (k + (hi - lo) < 8 * z + 8)) }
          else s
        | _ => s
      else s
    | _, _ => s

/-! ### A turn played -/

/-- What a turn does. DESIGN CHOICE: log entry 29. -/
def playTurn (s : State) (t : Turn) : Out :=
  if turnBlocked s t then .next s
  else
    match t with
    | .slot g part pane => slotTurn s g part pane
    | .monitor g => monitorTurn s g
    | .walker cl => walkerTurn s cl
    | .event i => if isEvent i then runAs (beforeEvent s i) .none i else .next s
    | .pulsesM cl n => .next (pulsesM s cl n)
    | .pulsesV cl n => .next (pulsesV s cl n)
    | .pulsesH d n => .next (countWaits s .h n (fun r => dieOf r.core == d))
    | .pulsesN n => .next (pulsesN s n)
    | .pulsesD n => .next (pulsesD s n)
    | .reference n => .next { s with mgmt := { s.mgmt with refclk := s.mgmt.refclk + n } }
    | .netLine c l => .next (netLine s c l)
    | .crossFail b => .next { s with crossFail := b }
    | .firmware g pc => .next (firmwareTurn s g pc)
    | .hbmError line hard => .next (lineError s line hard)
    | .wordError w => .next { s with badWords := addOnce s.badWords w }
    | .parityError r k i l => .next (s.modRow r (fun x => rowParityError x k i l))
    | .atomStep r => .next (atomTurn s r)
    | .abandon r lo hi => .next (abandonTurn s r lo hi)

/-- The turn that an empty schedule comes to: bring-up goes on, every step succeeding; a machine that is ready waits
(DESIGN CHOICE, log entry 16). -/
def defaultTurn (s : State) : Option Turn :=
  if s.mgmt.bootState = 0 then some (.event (.bringUpStep true [])) else none

/-- The next turn and the state without it. DESIGN CHOICE: log entry 16. -/
def nextTurn (s : State) : Option (Turn × State) :=
  match s.agenda with
  | t :: l => some (t, { s with agenda := l })
  | [] => (defaultTurn s).map (fun t => (t, s))

end Sys2Proof.Machine
end

