-- ==== Sys2Proof/Machine/Place.lean ====
section
/-! DEFINITION. A word placed where the next step fetches it: in the kernel image of a row of one band, in the firmware memory
of a monitor, or in the program of a walker. This stands for the load of a program from outside (DESIGN CHOICE, log entry 40). -/
namespace Sys2Proof.Machine

/-! ### The kernel image of a row -/

/-- The PC of the placed word: a virtual address below 16 GiB, mapped to the same physical address. -/
def placedPc : Nat := 0x4000

/-- The L1 and L2 tables of ASID 0: the first 16 GiB mapped to themselves, with every permission (R125, R126). -/
def placedTables (m : Memory) : Memory :=
  memWrite (memWrite m (hbmKey 0x1000) (leBytes 8 0x2001)) (hbmKey 0x2000) (leBytes 8 0x1F)

/-- A launch with one band of one row of width 64. -/
def placedLaunch (s : State) : Launch :=
  { id := s.nextId
    queue := 0
    entry := 0
    order := s.dist.accepted
    block := dw (1 + 2 ^ 12 + 3 * 2 ^ 16) :: dw 0 :: dw placedPc :: List.replicate 29 0
    pcs := []
    args := []
    regions := []
    nextSkein := 1
    gbarSeq := 0
    gbarOut := []
    waited := 0
    reserved := []
    ended := false }

/-- The one row. -/
def placedRowId : RowId := ⟨0, 0, 0⟩

/-- The band of the placed row: the first 4 KiB of the side memory of core 0. -/
def placedBand (s : State) : Band :=
  { id := s.nextId + 1
    launch := s.nextId
    skein := 0
    bandIx := 0
    nb := 0
    core := 0
    pane := 0
    row0 := 0
    height := 1
    laneW := 64
    wbase := 0
    wsize := 4096
    wid0 := 0
    lead := 0
    parks := []
    chain := none
    parent := none
    serial := 0
    pacereq := 0
    region := 0
    staged := true
    age := s.nextId + 1
    preempt := none
    saveArea := none
    held := []
    heldCmds := []
    heldStale := false
    killed := false }

/-- The placed row at its start, both ports open. -/
def placedRow (s : State) : Row :=
  startRow s (placedLaunch s) (s.nextId + 1) placedRowId 0 64 (dw placedPc) 0 (Vector.replicate 32 0) ⟨true, none, 8⟩ .running

/-- The device ready, with a word in the kernel image of one row, which the next turn issues.
DESIGN CHOICE: log entry 40. -/
def placeRowWord (s : State) (w : Word) : State :=
  { s with
    mem := memWrite (placedTables s.mem) (hbmKey placedPc) (leBytes 4 w.toNat)
    badLines := []
    weakLines := []
    chans := Vector.replicate 384 { Channel.reset with trained := true }
    regs := { s.regs with roots := s.regs.roots.set 0 0x1001 }
    tcache := []
    tables := []
    launches := [placedLaunch s]
    bands := [placedBand s]
    rows := [(placedRowId, placedRow s)]
    cores := s.cores.set 0 Core.reset
    clusters := s.clusters.set 0 Cluster.reset
    freeze := .none
    crossFail := false
    mgmt := { s.mgmt with
      step := 8
      bootState := 1 }
    nextId := s.nextId + 2
    agenda := [.slot 0 0 0] }

/-! ### The firmware of a monitor -/

/-- A word at the start of the firmware of core 0, which runs it in privileged mode. DESIGN CHOICE: log entry 40. -/
def placeMonitorWord (s : State) (w : Word) : State :=
  { (s.modMon 0 (fun m => { m with
      mode := .privileged
      pc := 0
      imx1 := none
      imx2 := none
      count := 0
      row := none })) with
    mem := memWrite s.mem (monitorKey 0 0) (leBytes 4 w.toNat)
    clusters := s.clusters.set 0 Cluster.reset
    freeze := .none
    agenda := [.monitor 0] }

/-! ### The program of a walker -/

/-- The command of a walk of one word. -/
def placedCmd (s : State) : Cmd :=
  { id := s.nextId + 2
    instr := .wkst 0 0 false false
    src := .row placedRowId
    band := s.nextId + 1
    launch := s.nextId
    core := 0
    cls := .wk
    pos := 0
    ticket := 0
    ops := [dw placedPc, 0, 0, 0]
    b := 0
    idx := []
    gen := 0
    batch := none
    done := []
    fails := []
    sb := []
    groups := []
    combined := false
    sent := []
    timer := 0 }

/-- A word as the program of the walker of cluster 0, which runs a command of the placed row.
DESIGN CHOICE: log entry 40. -/
def placeWalkerWord (s : State) (w : Word) : State :=
  { (placeRowWord s 0) with
    cmds := [placedCmd s]
    clusters := s.clusters.set 0 { Cluster.reset with walker := { Walker.reset with
      cmd := some (s.nextId + 2)
      prog := [w]
      tag := some (0, dw placedPc, 1) } }
    nextId := s.nextId + 3
    agenda := [.walker 0] }

/-- A word placed with the agent that executes it: 0xEF words with a monitor, words of a row with a row, the others with a
walker. DESIGN CHOICE: log entry 40. -/
def placeWord (s : State) (w : Word) : State :=
  match decodeRow w with
  | .ok _ => if w.extractLsb' 24 8 = 0xEF then placeMonitorWord s w else placeRowWord s w
  | .error _ => placeWalkerWord s w

end Sys2Proof.Machine
end

