-- ==== Sys2Proof/Machine/Step.lean ====
section
/-! DEFINITION. One step of the machine, and a state whose next step runs a given instruction. -/
namespace Sys2Proof.Machine

/-- One step: the next turn is played; with none, nothing happens. DESIGN CHOICE: log entry 17. -/
def step (s : State) : Host.Outcome State Fault Refusal :=
  match nextTurn s with
  | some (t, u) => playTurn u t
  | none => .next s

/-- The state whose next step runs an instruction, placed as placeWord places it. DESIGN CHOICE: log entry 40. -/
def State.withFetchWord (s : State) (nbits w : Nat) : State := placeWord s (BitVec.ofNat 32 (w % 2 ^ nbits))

end Sys2Proof.Machine
end

