-- ==== Sys2Proof/Safety.lean ====
section
/-! DEFINITION. What a safe run is, and the words in which the statements are made: when a row instruction issues, which
operands are ready, and what its completion leaves. -/
namespace Sys2Proof.Machine

/-- A step that ends in a next state. -/
def State.safe (s : State) : Prop := ∃ t, step s = .next t

/-! ### A row that issues -/

/-- Row r executes: it is active and leased, x is its state and w its band. -/
structure Executes (s : State) (r : RowId) (x : Row) (w : Band) : Prop where
  active : s.active = .row r
  row : s.row? r = some x
  band : s.band? x.band = some w

/-- Row r has passed the checks of an instruction that accepts the hints of acc (R49) and has the fields fd, fa and fb: MOD.PW
is pending only where it is allowed (R54), the pending hints are accepted (R49), the steps of a pending REP are legal
(R51), and d, a and b are the fields of the repeat that is due (R51, R52). -/
structure Prepared (s : State) (r : RowId) (x : Row) (w : Band) (acc : Accept) (pw : Bool) (fd fa fb : FieldUse)
    (d a b : Reg) : Prop extends Executes s r x w where
  wide : modBit x.hints 18 = true → pw = true
  hints : hintsAccepted x.hints acc = true
  legalD : stepLegal fd (repSteps x.hints).1 = true
  legalA : stepLegal fa (repSteps x.hints).2.1 = true
  legalB : stepLegal fb (repSteps x.hints).2.2 = true
  fieldD : stepped fd (repSteps x.hints).1 x.repix.toNat = some d
  fieldA : stepped fa (repSteps x.hints).2.1 x.repix.toNat = some a
  fieldB : stepped fb (repSteps x.hints).2.2 x.repix.toNat = some b

/-- Row r issues such an instruction: it is prepared, and a lane of its divergence mask is set (R273). -/
structure Issues (s : State) (r : RowId) (x : Row) (w : Band) (acc : Accept) (pw : Bool) (fd fa fb : FieldUse)
    (d a b : Reg) : Prop extends Prepared s r x w acc pw fd fa fb d a b where
  lanes : x.skips w.laneW = false

/-- What the instruction sees of its row. -/
def ctxOf (s : State) (r : RowId) (x : Row) (w : Band) (d a b : Reg) : Ctx :=
  ⟨s, r, x, w, d, a, b, modeOf x.hints x.fp.rmode, modBit x.hints 20, modBit x.hints 19, modBit x.hints 18⟩

/-- The instance of row r whose effect gave t retires (R51, R52): the next repeat, or the next word with the hints consumed. -/
def completed (t : State) (r : RowId) : State := (t.modRow r (fun y => retireRow y (t.stampAt r))).bump

/-- As completed, with a transfer of control to pc. -/
def jumped (t : State) (r : RowId) (pc : Dword) : State := (t.modRow r (fun y => nextWord (issued y (t.stampAt r)) pc)).bump

/-- The row's instance takes a trap of the row state y (R11, R398). -/
def trapped (s : State) (r : RowId) (y : Row) (cause detail : Byte) (code : BitVec 14) (targ : Dword) : State :=
  (takeTrap s r (stamped y (s.stampAt r)) cause detail code targ).bump

/-! ### Operands that are ready (R40, R42, R225, R226) -/

/-- A scalar source: full, and no parity error. -/
def Row.scalarReady (x : Row) (r : Reg) : Prop := x.sFull r = true ∧ (r = 0 ∨ x.regs.sbad.getLsbD r.toNat = false)

/-- A vector source that is a register: full, and no parity error in a lane of it. -/
def Row.vectorReady (x : Row) (r : Reg) : Prop := x.vFull r = true ∧ ∀ h : r.toNat < 28, x.regs.vbad[r.toNat] = 0

/-- The north port gives its head entry e. -/
structure NorthReady (x : Row) (e : Entry) : Prop where
  free : x.mx.anyStream Stream.north = false
  sound : x.badHead = false
  connected : x.north.isOpen = false
  head : x.north.fifo.head? = some e

/-- The south port takes an entry. -/
structure SouthReady (s : State) (x : Row) : Prop where
  free : x.mx.anyStream (fun t => !t.terminal) = false
  connected : x.south.isOpen = false
  room : x.south.orphan = true ∨ southFull s x = false

/-- Vector sources: each register is ready, and where one is v28 the north port gives e. -/
structure SourcesReady (x : Row) (l : List Reg) (e : Option Entry) : Prop where
  regs : ∀ r ∈ l, x.vectorReady r
  port : if 28 ∈ l then ∃ y, e = some y ∧ NorthReady x y else e = none

/-- A vector destination: a register that is not pending, or the south port. -/
def destReady (s : State) (x : Row) (d : Reg) : Prop := if d = 29 then SouthReady s x else x.vFull d = true

/-- What a delivery point of R99 waits for or traps on is absent. -/
structure Undisturbed (x : Row) : Prop where
  flags : x.flagWait = none
  pend : x.fp.pend = false

/-- No stream has left a condition for the row (R298, R404). -/
structure StreamQuiet (x : Row) : Prop where
  parity : x.ctl.streamParity = none
  closed : x.ctl.closedDue = false

/-- A lane-wise result of two vectors. -/
def zipLanes (f : Word → Word → Word) (p q : Lanes) : Lanes := Vector.ofFn (fun i : Fin 64 => f p[i.val] q[i.val])

/-! ### Accesses of the window (R139, R161, R232, R237, R292, R447) -/

/-- The key of a window offset of a band. -/
def winKey (w : Band) (off : Int) : Nat := sideKey w.core.toNat (w.wbase + off.toNat)

/-- The accesses of n bytes that the lanes of mk make, lane i at offset f i of the window of band t i, meet none of the checks and
waits: each is aligned and inside the window, no watchpoint of the target core matches it, no command's range and, where the
window is the row's own (own i), no side stream of the row holds it back; no range holds back the row's own posted writes, which
are performed first. -/
structure AccessClear (s : State) (x : Row) (w : Band) (t : Nat → Band) (own : Nat → Bool) (kind : AccessKind) (n : Nat)
    (f : Nat → Int) (mk : Mask) : Prop where
  aligned : ∀ i, mk.getLsbD i = true → f i % (n : Int) = 0
  inside : ∀ i, mk.getLsbD i = true → 0 ≤ f i ∧ f i + n ≤ (t i).wsize
  unwatched : ∀ i (k : Fin 4), mk.getLsbD i = true →
    watchMatches (s.core (t i).core).dbg k (s.bandAsid w) kind ((t i).wbase + (f i).toNat) ((t i).wbase + (f i).toNat + n) = false
  unclaimed : ∀ i, mk.getLsbD i = true →
    sbBlocker s (t i).core ((t i).wbase + (f i).toNat) ((t i).wbase + (f i).toNat + n) (kind != .read) = none
  unstreamed : ∀ i, mk.getLsbD i = true → own i = true → kind ≠ .read → x.mx.anyStream (fun u => u.overlaps w.laneW (f i) (f i + n)) = false
  posted : mk ≠ 0 → postedHold s x = none

/-- As AccessClear, of the row's own window. -/
def LocalClear (s : State) (x : Row) (w : Band) (kind : AccessKind) (n : Nat) (f : Nat → Int) (mk : Mask) : Prop :=
  AccessClear s x w (fun _ => w) (fun _ => true) kind n f mk

/-- No word that the lanes of mk access at f is uncorrectable in state u (R403). -/
def WordsGood (u : State) (t : Nat → Band) (f : Nat → Int) (mk : Mask) : Prop :=
  ∀ i, mk.getLsbD i = true → u.badWord (winKey (t i) (f i)) = false

/-- u is t with the words v of the lanes of mk stored at f: where lanes meet, the highest remains (R233), and every byte outside
the stored words, and all else, is as it was. -/
structure Stored (t u : State) (w : Band) (f : Nat → Int) (mk : Mask) (v : Lanes) : Prop where
  rest : u = { t with mem := u.mem }
  word : ∀ i : Fin 64, mk.getLsbD i = true → (∀ j : Nat, mk.getLsbD j = true → i.val < j → f j ≠ f i) →
    memWord u.mem (winKey w (f i)) = v[i]
  frame : ∀ k, (∀ i, mk.getLsbD i = true → k < winKey w (f i) ∨ winKey w (f i) + 4 ≤ k) → memGet u.mem k = memGet t.mem k

/-! ### Ranges of the window and cards (R314 to R317) -/

/-- An access to the n bytes of the window at off meets no watchpoint, no command's range, no side stream of the row where it
writes, and no uncorrectable word. -/
structure RangeClear (s : State) (x : Row) (w : Band) (kind : AccessKind) (off n : Nat) : Prop where
  unwatched : 0 < n → ∀ k : Fin 4,
    watchMatches (s.core w.core).dbg k (s.bandAsid w) kind (w.wbase + off) (w.wbase + off + n) = false
  unclaimed : sbBlocker s w.core (w.wbase + off) (w.wbase + off + n) (kind != .read) = none
  unstreamed : kind ≠ .read → x.mx.anyStream (fun u => u.overlaps w.laneW off ((off + n : Nat) : Int)) = false
  sound : ∀ v ∈ s.badWords, 8 * v + 8 ≤ winKey w off ∨ winKey w off + n ≤ 8 * v

/-- A well-formed card's header hd stands at a window offset (R313, R316). -/
structure CardAt (s : State) (x : Row) (w : Band) (off : Nat) (hd : List Byte) : Prop where
  aligned : off % 32 = 0
  inside : off + 32 ≤ w.wsize
  clear : RangeClear s x w .read off 32
  bytes : hd = memRead s.mem (winKey w off) 32
  code : cardCode hd = 0

/-- The card's masks are masks, its extent inside the window and its metadata well formed (codes 10 and 11). -/
structure CardMasks (s : State) (x : Row) (w : Band) (off : Nat) (k : Card) (masks : List Nat) : Prop where
  inside : off + k.extent ≤ w.wsize
  clear : RangeClear s x w .read (off + k.moff) k.mb
  bytes : masks = k.masks (memRead s.mem (winKey w (off + k.moff : Nat)) k.mb)
  code : k.fullCode masks = 0

/-- The dense operand of MPACK and MUNPK, with the card at off, passes steps 5 and 6 of R317. -/
structure DenseFits (w : Band) (k : Card) (off base stride : Nat) : Prop where
  aligned : base % k.e = 0 ∧ stride % k.e = 0
  rows : 1 < k.rop → k.kop * k.e ≤ stride
  card : off + k.extent ≤ w.wsize
  inside : base + denseSpan k stride ≤ w.wsize
  apart : off + k.extent ≤ base ∨ base + denseSpan k stride ≤ off

/-! ### Streams (R281, R287, R291) -/

/-- A stream of a mode may issue with side-stream operands in registers a and b; no range holds back the row's posted writes. -/
structure StreamReady (s : State) (x : Row) (w : Band) (mode : Nat) (a b : Reg) : Prop where
  quiet : StreamQuiet x
  posted : postedHold s x = none
  place : x.mx.running = none ∨ x.mx.queued = none
  valid : tst x.mx.shape 58 = true
  part : tst x.mx.shape 57 = true
  mode : fld x.mx.shape 63 62 = mode
  side : fld x.mx.shape 61 60 = 2 →
    let str := if x.sget b = 0 then 8 * w.laneW else (x.sget b).toNat
    x.scalarReady a ∧ x.scalarReady b ∧ (x.sget a).toNat % 8 = 0 ∧ str % 8 = 0 ∧
    (x.sget a).toNat + (grantK x.mx.shape - 1) * str + 8 * w.laneW ≤ w.wsize ∧
    ∀ (k : Fin 4) (n t : Nat), n < w.laneW → t < grantK x.mx.shape →
      watchMatches (s.core w.core).dbg k (s.bandAsid w) .read (w.wbase + ((x.sget a).toNat + t * str + 8 * n))
        (w.wbase + ((x.sget a).toNat + t * str + 8 * n) + 8) = false

/-- The base and the stride of the side operands of R291; 0 where SRC is not 10. -/
def sideOf (x : Row) (w : Band) (a b : Reg) : Nat × Nat :=
  if fld x.mx.shape 61 60 = 2 then
    ((x.sget a).toNat, if x.sget b = 0 then 8 * w.laneW else (x.sget b).toNat)
  else (0, 0)

/-! ### Engine commands (R145, R146, R158, R160) -/

/-- Row r may issue a command of a class whose ticket goes to sD: it is the lead row, sD is full, the queue has room; y is the row
once its posted writes are performed, which no range holds back and none of which has reported a parity error. -/
structure EngineReady (s : State) (r : RowId) (x y : Row) (w : Band) (cls : BClass) (d : Reg) : Prop where
  lead : x.isLead w = true
  dest : x.sFull d = true
  room : classRoom s w cls = true
  posted : postedHold s x = none
  row : (flushPosted s r).row? r = some y
  parity : y.ctl.parityDue = none

/-- The n registers of an operand group are ready (R145). -/
def groupReady (x : Row) (a : Reg) (n : Nat) : Prop := ∀ i, i < n → x.scalarReady (a + BitVec.ofNat 5 i)

/-- The command that an engine instruction of row r issues in state t. -/
def issuedCmd (t : State) (r : RowId) (x : Row) (w : Band) (cls : BClass) (i : Instr) (a : Reg) (b : Dword) (idx : List Nat)
    (sb : List SbRange) : Cmd :=
  { id := t.nextId
    instr := i
    src := .row r
    band := w.id
    launch := w.launch
    core := r.core
    cls := cls
    pos := (x.clsOf cls).openB.ncmd
    ticket := dw ((clsIx cls).val * 2 ^ 32 + w.serial.toNat)
    ops := (List.range 4).map (fun i => x.sget (a + BitVec.ofNat 5 i))
    b := b
    idx := idx
    gen := ((t.cluster (clusterOf r.core)).slots[(slotField i
      ((List.range 4).map (fun i => x.sget (a + BitVec.ofNat 5 i)))).toNat]).gen
    batch := none
    done := []
    fails := []
    sb := sb
    groups := []
    combined := false
    sent := []
    timer := 0 }

/-- The state with a command entered: its ticket in sD, its place in the open commands, the band's serial, a trace record. -/
def entered (t : State) (r : RowId) (y : Row) (w : Band) (d : Reg) (k : Cmd) : State :=
  let u := t.setRow r ((y.sset d k.ticket).modCls k.cls ClassState.enter)
  let v := ({ u with cmds := u.cmds ++ [k] } : State).modBand w.id (fun b => { b with serial := b.serial + 1 })
  traceRecord v.bump k.launch k.core (some r) 1 k.ticket.toNat (((y.clsOf k.cls).counter + 1) % 2 ^ 32)

/-! ### Barriers (R371 to R378) -/

/-- A slot of the cluster of a row. -/
def slotOf (s : State) (r : RowId) (i : BitVec 6) : Slot := (s.cluster (clusterOf r.core)).slots[i.toNat]

/-- One arrival of row r at slot i (R374, R451). -/
def arrival (s : State) (r : RowId) (w : Band) (i : BitVec 6) : State :=
  let k := slotOf s r i
  putSlot (traceRecord s w.launch r.core (some r) 3 (k.token i).toNat 0) (clusterOf r.core) r.core i
    ({ k with ra := k.ra - 1 }).settle

/-- The row with the result v of a barrier instruction (R374, R375): sD, BSTAT, and the start of a BWANY. -/
def barrierDone (x : Row) (d : Reg) (v : Dword) (any : Bool) : Row :=
  let y := x.sset d v
  { y with
    csr := { y.csr with
      bslot := v.extractLsb' 8 6
      blast := v.setWidth 8
      bwany := if any then y.csr.bwany + 1 else y.csr.bwany }
    ctl := { y.ctl with barrier := none } }

/-- The row waiting at a barrier. -/
def barrierWait (x : Row) (v : BarWait) : Row := { x with ctl := { x.ctl with barrier := some v } }

/-- The row waits at a barrier, with v the wait recorded (R374, R394). -/
def heldAt (t : State) (r : RowId) : State := t.modRow r (fun y => waitAt t r y 9 .v)

/-! ### The core monitor and the walker (R193, R405) -/

/-- The monitor of core g executes, with m its state and no IMX pending. -/
structure MonitorRuns (s : State) (g : CoreId) (m : Monitor) : Prop where
  active : s.active = .monitor g
  mon : (s.core g).mon = m
  imx1 : m.imx1 = none
  imx2 : m.imx2 = none

/-- The state with the monitor of core g at its next word, having changed as f says. -/
def monWent (s : State) (g : CoreId) (f : Monitor → Monitor) : State :=
  s.modMon g (fun m => { f m with pc := m.pc + 4, imx1 := none, imx2 := none, count := m.count + 1 })

/-- The walker of cluster cl executes for command k, with v its state. -/
structure WalkRuns (s : State) (cl : ClusterId) (k : Cmd) (v : Walker) : Prop where
  active : s.active = .walker cl
  cmd : v.cmd = some k.id
  command : s.cmd? k.id = some k
  walker : s.walker cl = v

/-- The state with the walker of cluster cl changed to v, one instruction further at pc. -/
def walkWent (s : State) (cl : ClusterId) (v : Walker) (pc : Nat) : State :=
  s.modWalker cl (fun _ => { v with pc := pc, count := v.count + 1 })

/-! ### Groups of instructions -/

/-- The instructions of the walker (R187 to R209). -/
def isWalkerInstr : Instr → Bool
  | .wadd .. | .wsub .. | .wmul .. | .wand .. | .wor .. | .wxor .. | .wshl .. | .wshr .. | .waddi .. | .wli .. | .wld ..
  | .wpref .. | .wbcc .. | .wj .. | .wpopc .. | .wpfx .. | .isect .. | .part .. | .emit .. | .emitz .. | .sigb .. | .wend => true
  | _ => false

/-- The row instructions that an empty divergence mask passes over: all but the structured ones (R273). -/
def passedOver : Instr → Bool
  | .imx .. | .rep .. | .mod .. | .schd .. | .sadd .. | .ssub .. | .smul .. | .smulh .. | .sdiv .. | .srem ..
  | .sand .. | .sor .. | .sxor .. | .sshl .. | .sshr .. | .smin .. | .smax .. | .scmp .. | .ssel .. | .saddi ..
  | .sandi .. | .sori .. | .sxori .. | .sshli .. | .sshri .. | .sli .. | .spopc .. | .sclz .. | .smov .. | .bra ..
  | .bz .. | .bnz .. | .call .. | .ret .. | .jmpr .. | .exit .. | .yield .. | .nop .. | .vadd .. | .vsub .. | .vmul ..
  | .vmulh .. | .vmad .. | .vabs .. | .vmin .. | .vmax .. | .vand .. | .vor .. | .vxor .. | .vandn .. | .vshl ..
  | .vshr .. | .vshli .. | .vshri .. | .vaddi .. | .vcmp .. | .vcmpi .. | .vsel .. | .vpopc .. | .vclz .. | .vmov ..
  | .vmovs .. | .vli .. | .vsatn .. | .vdot4 .. | .vfadd .. | .vfsub .. | .vfmul .. | .vfma .. | .vfmin .. | .vfmax ..
  | .vfsgn .. | .vfrcp .. | .vfrsq .. | .vfsqrt .. | .vfdiv .. | .vfexp2 .. | .vflog2 .. | .vfcmp .. | .vfclass ..
  | .vfrnd .. | .vfscl .. | .vhadd .. | .vhmul .. | .vhfma .. | .vcvt .. | .vcvts .. | .vshfl .. | .vbcst ..
  | .vred .. | .vscan .. | .vcprs .. | .vexpd .. | .mpopc .. | .vtos .. | .stov .. | .mlog .. | .mmovsMS ..
  | .mmovsSM .. | .ldv .. | .stv .. | .ldvs .. | .stvs .. | .ldvx .. | .stvx .. | .lds .. | .sts .. | .rldv ..
  | .rstv .. | .atom .. | .ratom .. | .tak2 .. | .put2 .. | .pqry .. | .shape .. | .mgat .. | .mlat .. | .mma ..
  | .mmas .. | .mwl .. | .mwf .. | .mwb .. | .mclr .. | .msca .. | .mdrn .. | .mmovpGP .. | .mmovpGA .. | .mmovpSP ..
  | .mmovpSA .. | .mpack .. | .munpk .. | .cardck .. | .qpack .. | .shcp .. | .shtr .. | .shset .. | .gath ..
  | .scat .. | .sred .. | .wkst .. | .nput .. | .nget .. | .nred .. | .nsig .. | .seal .. | .wait .. | .wstat ..
  | .binit .. | .barv .. | .barx .. | .bwait .. | .bwany .. | .bpark .. | .binv .. | .fence .. | .gbar .. | .csrr ..
  | .csrw .. | .trap .. | .bkpt .. | .lnch .. | .evsig .. => true
  | _ => false

/-- The field that names the one scalar register an arithmetic or control instruction writes; 0 where it writes none (R253,
R254, R267, R270). -/
def scalarField : Instr → Option Reg
  | .sadd d .. | .ssub d .. | .smul d .. | .smulh d .. | .sdiv d .. | .srem d .. | .sand d .. | .sor d .. | .sxor d ..
  | .sshl d .. | .sshr d .. | .smin d .. | .smax d .. | .scmp d .. | .ssel d .. | .saddi d .. | .sandi d .. | .sori d ..
  | .sxori d .. | .sshli d .. | .sshri d .. | .sli d .. | .spopc d .. | .sclz d .. | .smov d .. => some d
  | .call .. => some 31
  | .nop | .yield | .bra .. | .bz .. | .bnz .. | .ret .. | .jmpr .. => some 0
  | _ => none

/-- The vector destination field of a lane instruction that is no producer (R255 to R266, R242, R244, R245). -/
def laneField : Instr → Option Reg
  | .vadd d .. | .vsub d .. | .vmul d .. | .vmulh d .. | .vmad d .. | .vabs d .. | .vmin d .. | .vmax d .. | .vand d ..
  | .vor d .. | .vxor d .. | .vandn d .. | .vshl d .. | .vshr d .. | .vshli d .. | .vshri d .. | .vaddi d .. | .vsel d ..
  | .vpopc d .. | .vclz d .. | .vmov d .. | .vmovs d .. | .vli d .. | .vsatn d .. | .vdot4 d .. | .vfadd d .. | .vfsub d ..
  | .vfmul d .. | .vfma d .. | .vfdiv d .. | .vfmin d .. | .vfmax d .. | .vfsgn d .. | .vfscl d .. | .vhadd d .. | .vhmul d ..
  | .vhfma d .. | .vfrcp d .. | .vfrsq d .. | .vfsqrt d .. | .vfexp2 d .. | .vflog2 d .. | .vfrnd d .. | .vfclass d ..
  | .vcvt d .. | .vcvts d .. | .vshfl d .. | .vbcst d .. | .vcprs d .. | .vexpd d .. | .stov d .. => some d
  | _ => none

/-- The lane instructions that can raise an exception flag (R94, R99, R260, R263, R264). -/
def raisesFlags : Instr → Bool
  | .vfadd .. | .vfsub .. | .vfmul .. | .vfma .. | .vfdiv .. | .vfrcp .. | .vfrsq .. | .vfsqrt .. | .vfexp2 .. | .vflog2 ..
  | .vfrnd .. | .vfscl .. | .vhadd .. | .vhmul .. | .vhfma .. | .vcvt .. | .vcvts .. => true
  | _ => false

/-- The scalar destination field of card, matrix and engine instructions; 0 where they write none (R145, R164 to R166, R284,
R316, R317, R329). -/
def resultField : Instr → Reg
  | .shape d .. | .cardck d .. | .mpack d .. | .qpack d .. | .shcp d .. | .shtr d .. | .shset d .. | .gath d .. | .scat d ..
  | .sred d .. | .wkst d .. | .nput d .. | .nget d .. | .nred d .. | .nsig d .. | .seal d .. | .wait d .. | .wstat d .. => d
  | _ => 0

/-- The instructions of the matrix unit (R283 to R308, R322). -/
def isMatrixInstr : Instr → Bool
  | .shape .. | .mgat .. | .mlat .. | .mma .. | .mmas .. | .mwl .. | .mwf .. | .mwb .. | .mclr .. | .msca .. | .mdrn ..
  | .mmovpGP .. | .mmovpGA .. | .mmovpSP .. | .mmovpSA .. => true
  | _ => false

/-- The class of batches that an engine instruction, SEAL, WAIT or WSTAT acts on (R145, R162). -/
def engineClass : Instr → Option BClass
  | .shcp .. | .shtr .. | .shset .. => some .sh
  | .gath .. | .scat .. | .sred .. => some .gs
  | .wkst .. => some .wk
  | .nput .. | .nget .. | .nred .. | .nsig .. => some .nw
  | .seal _ k | .wait _ k _ | .wstat _ _ k _ => some k
  | _ => none

/-- The full bits of the scalar registers stay, but for a WAIT that a trap takes the row out of (R165, R222). -/
def Row.keepsFull (x y : Row) : Prop := y.regs.sfull = x.regs.sfull ∨ y.regs.sfull = x.leaveWait.regs.sfull

/-- The key lies outside the trace buffer of a core's die (R450). -/
def untraced (g : CoreId) (k : Nat) : Prop :=
  k < dieKey (dieOf g).toNat 0x3C00000 ∨ dieKey (dieOf g).toNat 0x4000000 ≤ k

/-- Outside the trace buffer of row r's die and the keys that f holds, memory is that of s, or of s once the row's posted
writes and the steps of its atomics are performed (R239, R240; DEDUCED, log entry 25). -/
def keepsMemory (s t : State) (r : RowId) (f : State → Nat → Prop) : Prop :=
  ∃ u, (u = s ∨ u = flushPosted s r) ∧ ∀ k, untraced r.core k → ¬ f u k → memGet t.mem k = memGet u.mem k

/-- n bytes of a band's window from off on hold key k. -/
def inRange (w : Band) (off n : Nat) (k : Nat) : Prop := winKey w off ≤ k ∧ k < winKey w off + n

/-- The stepped register of a field, or the field itself where the step is illegal. -/
def fieldOf (f : FieldUse) (step : BitVec 2) (x : Row) (r : Reg) : Reg := (stepped f step x.repix.toNat).getD r

end Sys2Proof.Machine
end

