-- ==== Sys2Proof/Certificates/Slice0/Obligations.lean ====
section
/-! DEFINITION. The statements about the machine, for the provers. -/
open Sys2Proof Sys2Proof.Machine

/-- R253: what every scalar instruction of two register sources leaves, in a row whose operands are ready (R40). An
instance under REP acts on its stepped registers (R52); s0 reads zero and is not written (R37, R39). -/
def Obligations.ScalarBinaryResult : Prop :=
  ∀ (s : State) (r : RowId) (x : Row) (w : Band) (d a b p q o : Reg) (ta tb : Bool),
    Issues s r x w accRep false (fSca d) (fSca a) (fSca b) p q o →
    x.scalarReady q → x.scalarReady o → x.sFull p = true →
    let A := x.sget q
    let B := x.sget o
    let done (v : Dword) : Out := .next (completed (s.setRow r (x.sset p v)) r)
    exec (.sadd d a b ta tb) s = done (A + B) ∧
    exec (.ssub d a b ta tb) s = done (A - B) ∧
    exec (.smul d a b ta tb) s = done (A * B) ∧
    exec (.sand d a b ta tb) s = done (A &&& B) ∧
    exec (.sor d a b ta tb) s = done (A ||| B) ∧
    exec (.sxor d a b ta tb) s = done (A ^^^ B) ∧
    exec (.smulh d a b ta tb false) s = done (BitVec.ofInt 64 (A.toInt * B.toInt / 2 ^ 64)) ∧
    exec (.smulh d a b ta tb true) s = done (BitVec.ofNat 64 (A.toNat * B.toNat / 2 ^ 64)) ∧
    exec (.sdiv d a b ta tb false) s = done (if B = 0 then BitVec.allOnes 64 else A.sdiv B) ∧
    exec (.sdiv d a b ta tb true) s = done (if B = 0 then BitVec.allOnes 64 else A.udiv B) ∧
    exec (.srem d a b ta tb false) s = done (if B = 0 then A else A.srem B) ∧
    exec (.srem d a b ta tb true) s = done (if B = 0 then A else A.umod B) ∧
    exec (.sshl d a b ta tb) s = done (if B.toNat < 64 then A <<< B.toNat else 0) ∧
    exec (.sshr d a b ta tb false) s =
      done (if B.toNat < 64 then A.sshiftRight B.toNat else if A.msb then BitVec.allOnes 64 else 0) ∧
    exec (.sshr d a b ta tb true) s = done (if B.toNat < 64 then A >>> B.toNat else 0) ∧
    exec (.smin d a b ta tb false) s = done (if A.slt B then A else B) ∧
    exec (.smin d a b ta tb true) s = done (if A.ult B then A else B) ∧
    exec (.smax d a b ta tb false) s = done (if A.slt B then B else A) ∧
    exec (.smax d a b ta tb true) s = done (if A.ult B then B else A) ∧
    exec (.scmp d a b ta tb false .eq) s = done (if A = B then 1 else 0) ∧
    exec (.scmp d a b ta tb false .ne) s = done (if A = B then 0 else 1) ∧
    exec (.scmp d a b ta tb false .lt) s = done (if A.toInt < B.toInt then 1 else 0) ∧
    exec (.scmp d a b ta tb false .le) s = done (if A.toInt ≤ B.toInt then 1 else 0) ∧
    exec (.scmp d a b ta tb false .gt) s = done (if B.toInt < A.toInt then 1 else 0) ∧
    exec (.scmp d a b ta tb false .ge) s = done (if B.toInt ≤ A.toInt then 1 else 0) ∧
    exec (.scmp d a b ta tb true .eq) s = done (if A = B then 1 else 0) ∧
    exec (.scmp d a b ta tb true .ne) s = done (if A = B then 0 else 1) ∧
    exec (.scmp d a b ta tb true .lt) s = done (if A.toNat < B.toNat then 1 else 0) ∧
    exec (.scmp d a b ta tb true .le) s = done (if A.toNat ≤ B.toNat then 1 else 0) ∧
    exec (.scmp d a b ta tb true .gt) s = done (if B.toNat < A.toNat then 1 else 0) ∧
    exec (.scmp d a b ta tb true .ge) s = done (if B.toNat ≤ A.toNat then 1 else 0) ∧
    ∀ c : BitVec 4, x.scalarReady (c.setWidth 5) →
      exec (.ssel d a b ta tb c) s = done (if x.sget (c.setWidth 5) = 0 then B else A)

/-- R253, R254: what the scalar instructions of one source and of an immediate leave; IMX extends the immediate of the
I format to 38 or 62 bits, sign-extended (R50). -/
def Obligations.ScalarUnaryImmediateResult : Prop :=
  ∀ (s : State) (r : RowId) (x : Row) (w : Band) (d a p q o : Reg) (ta : Bool) (i : BitVec 14) (n : BitVec 6),
    x.scalarReady q → x.sFull p = true →
    let A := x.sget q
    let I : Dword := match x.hints.imx1, x.hints.imx2 with
      | some e, some f => (e ++ f ++ i).signExtend 64
      | some e, none => (e ++ i).signExtend 64
      | none, _ => i.signExtend 64
    let done (v : Dword) : Out := .next (completed (s.setRow r (x.sset p v)) r)
    (Issues s r x w accRep false (fSca d) (fSca a) fNone p q o →
      exec (.spopc d a ta) s = done (BitVec.ofNat 64 ((List.range 64).countP (fun k => A.getLsbD k))) ∧
      exec (.sclz d a ta) s =
        done (BitVec.ofNat 64 (((List.range 64).find? (fun k => A.getLsbD (63 - k))).getD 64)) ∧
      exec (.smov d a ta) s = done A ∧
      exec (.sshli d a n) s = done (A <<< n.toNat) ∧
      exec (.sshri d a false n) s = done (A >>> n.toNat) ∧
      exec (.sshri d a true n) s = done (A.sshiftRight n.toNat)) ∧
    (Issues s r x w accAll false (fSca d) (fSca a) fNone p q o →
      exec (.saddi d a i) s = done (A + I) ∧
      exec (.sandi d a i) s = done (A &&& I) ∧
      exec (.sori d a i) s = done (A ||| I) ∧
      exec (.sxori d a i) s = done (A ^^^ I)) ∧
    (Issues s r x w accAll false (fSca d) fNone fNone p q o →
      exec (.sli d i) s = done I)

/-- R48 to R51, R54, R55: a hint word sets pending state, which nothing consumes before the next word; a second hint
of its kind, or a third IMX, traps with ILLEGAL at step 1 (R49). -/
def Obligations.HintResult : Prop :=
  ∀ (s : State) (r : RowId) (x : Row) (w : Band) (p : BitVec 24) (c : BitVec 6) (d a b y : BitVec 2) (m : BitVec 3)
    (st t pw l : Bool),
    Executes s r x w → x.skips w.laneW = false →
    let put (h : Hints) : Out :=
      .next ((s.setRow r { issued x (s.stampAt r) with pc := x.pc + 4, ibuf := none, hints := h }).bump)
    let ill : Out := .next (trapped s r x 0x01 1 0 x.pc)
    (x.hints.imx1 = none → exec (.imx p) s = put { x.hints with imx1 := some p }) ∧
    (x.hints.imx1.isSome = true → x.hints.imx2 = none → exec (.imx p) s = put { x.hints with imx2 := some p }) ∧
    (x.hints.imx1.isSome = true → x.hints.imx2.isSome = true → exec (.imx p) s = ill) ∧
    (x.hints.rep = none →
      exec (.rep c d a b) s = put { x.hints with rep := some (c ++ d ++ a ++ b ++ (0 : BitVec 12)) }) ∧
    (x.hints.rep.isSome = true → exec (.rep c d a b) s = ill) ∧
    (x.hints.modp = none →
      exec (.mod m st t pw) s = put { x.hints with modp := some (m ++ bit st ++ bit t ++ bit pw ++ (0 : BitVec 18)) }) ∧
    (x.hints.modp.isSome = true → exec (.mod m st t pw) s = ill) ∧
    (x.hints.schd = none →
      exec (.schd l y) s = put { x.hints with schd := some (bit l ++ y ++ (0 : BitVec 21)) }) ∧
    (x.hints.schd.isSome = true → exec (.schd l y) s = ill)

/-- (1) R267, R270: branches, calls and returns go where the manual says; a target of RET or JMPR that is not a
multiple of 4 traps with MISALIGN before the PC changes; NOP and YIELD only go on, YIELD with its interval begun (16
V-cycles, which the model counts from 17 down to 1, at which YIELD_INTERVAL_END ends it: log entry 67). (2) R269 with
R99, R163 and R239: EXIT ends the row once its posted writes are performed (that EXIT performs them is the model's
reading, log entry 25: R239 does not name EXIT), unless a class that it must seal has 8 sealed batches outstanding,
where it waits. -/
def Obligations.ControlResult : Prop :=
  (∀ (s : State) (r : RowId) (x : Row) (w : Band) (a q : Reg) (ta : Bool) (j : BitVec 24) (o : BitVec 19),
    (Issues s r x w accNone false fNone fNone fNone 0 0 0 →
      exec (.bra j) s = .next (jumped s r (x.pc + 4 * j.signExtend 64)) ∧
      exec .nop s = .next (completed s r) ∧
      exec .yield s = .next (completed (s.setRow r { x with ctl := { x.ctl with yieldLeft := 17 } }) r) ∧
      (x.sFull 31 = true →
        exec (.call j) s = .next (jumped (s.setRow r (x.sset 31 (x.pc + 4))) r (x.pc + 4 * j.signExtend 64)))) ∧
    (Issues s r x w accNone false fNone (fSca a) fNone 0 q 0 → x.scalarReady q →
      exec (.bz a o) s =
        .next (jumped s r (if x.sget q = 0 then x.pc + 4 * o.signExtend 64 else x.pc + 4)) ∧
      exec (.bnz a o) s =
        .next (jumped s r (if x.sget q = 0 then x.pc + 4 else x.pc + 4 * o.signExtend 64)) ∧
      ((x.sget q).toNat % 4 = 0 →
        exec (.ret a ta) s = .next (jumped s r (x.sget q)) ∧
        exec (.jmpr a ta) s = .next (jumped s r (x.sget q))) ∧
      ((x.sget q).toNat % 4 ≠ 0 →
        exec (.ret a ta) s = .next (trapped s r x 0x03 0 0 (x.sget q)) ∧
        exec (.jmpr a ta) s = .next (trapped s r x 0x03 0 0 (x.sget q))))) ∧
  (∀ (s : State) (r : RowId) (x y : Row) (w : Band),
    Issues s r x w accNone false fNone fNone fNone 0 0 0 → StreamQuiet x → Undisturbed x → postedHold s x = none →
    (flushPosted s r).row? r = some y → y.ctl.parityDue = none →
    (exitHeld y = false → exec .exit s = .next (exitRow (flushPosted s r) r w.launch)) ∧
    (exitHeld y = true → exec .exit s = .next (s.setRow r (waitAt s r x 8 .v))))

/-- R272, R273: the structured instructions act whatever the divergence mask; they push, replace and pop mask-stack
entries, and transfer where the new divergence mask is empty. -/
def Obligations.DivergenceResult : Prop :=
  ∀ (s : State) (r : RowId) (x : Row) (w : Band) (k : MReg) (o : BitVec 19) (e : MaskEntry) (l : List MaskEntry),
    (Prepared s r x w accNone false fNone fNone fNone 0 0 0 →
      (x.stack = e :: l → e.isLoop = false → e.elseDone = false →
        exec (.elsem o) s = .next (jumped (s.setRow r ({ x with stack := { e with elseDone := true } :: l }.mset 0 e.pend)) r
          (if e.pend = 0 then x.pc + 4 * o.signExtend 64 else x.pc + 4))) ∧
      (x.stack = e :: l → e.isLoop = false →
        exec .endifm s = .next (completed (s.setRow r ({ x with stack := l }.mset 0 e.saved)) r)) ∧
      (x.stack.length < 16 →
        exec (.loopm o) s = .next (jumped (s.setRow r { x with stack := ⟨true, false, x.mget 0, 0⟩ :: x.stack }) r
          (if x.mget 0 = 0 then x.pc + 4 * o.signExtend 64 else x.pc + 4))) ∧
      (x.stack = e :: l → e.isLoop = true → x.mget 0 ≠ 0 →
        exec (.endl o) s = .next (jumped s r (x.pc + 4 * o.signExtend 64))) ∧
      (x.stack = e :: l → e.isLoop = true → x.mget 0 = 0 →
        exec (.endl o) s = .next (jumped (s.setRow r ({ x with stack := l }.mset 0 e.saved)) r (x.pc + 4)))) ∧
    (Prepared s r x w accNone false fNone (fMsk k) fNone 0 ((0 : BitVec 2) ++ k) 0 →
      let m := x.mget 0
      let b := m &&& x.mget k
      (x.stack.length < 16 →
        exec (.ifm k o) s =
          .next (jumped (s.setRow r ({ x with stack := ⟨false, false, m, m &&& ~~~x.mget k⟩ :: x.stack }.mset 0 b)) r
            (if b = 0 then x.pc + 4 * o.signExtend 64 else x.pc + 4))) ∧
      (∀ (u : List MaskEntry), (∀ f ∈ u, f.isLoop = false) → x.stack = u ++ e :: l → e.isLoop = true →
        exec (.brkm k o) s =
          .next (jumped (s.setRow r
            ({ x with stack := u.map (fun f : MaskEntry => { f with saved := f.saved &&& ~~~b, pend := f.pend &&& ~~~b }) ++ e :: l }.mset
              0 (m &&& ~~~b))) r
            (if m &&& ~~~b = 0 then x.pc + 4 * o.signExtend 64 else x.pc + 4))))

/-- (1) R272, R400: MASK_STACK: DETAIL 0 where an entry is pushed on a full stack, 1 where the stack is empty or its
top, or for BRKM every entry, is of the other kind. (2) R232, R236, R237, R240, R400: an access that is not aligned
traps with MISALIGN, one outside the window with SIDE_RANGE, and a remote one that names no band of the launch's skein
or lies outside its window with REMOTE_RANGE; each with the lowest failing lane and its address as formed, and
MISALIGN first. Nothing is read or stored. That a band of the skein that has ended is none of its bands is the model's
choice (log entry 33). (3) R373, R374: a slot operand with a reserved bit, and a slot that another launch owns, trap
with BARRIER_STATE and the operand; so does an arrival at a slot whose arrivals are used up, a token with a reserved
bit, a group that names a slot of another launch, and BPARK of a row without park rights or to a PC that is no
multiple of 4. (4) R40, R400, R58: an empty source or a pending destination. Without its trap bit the row waits, with
reason 1; with it, it traps with EMPTY_READ, whose DETAIL names the operand; nothing is written. A source without a
trap bit waits. An empty north port waits or traps in the same way, an OPEN one traps with PORT_OPEN, a CLOSED one
that is empty with PORT_CLOSED. Sources are looked at in the order A, B, then the port, then D: the model's choice
(log entry 19); no register that the instance reads has a parity error. -/
def Obligations.OperandTraps : Prop :=
  (∀ (s : State) (r : RowId) (x : Row) (w : Band) (k : MReg) (o : BitVec 19),
    let full : Out := .next (trapped s r x 0x15 0 0 0)
    let wrong : Out := .next (trapped s r x 0x15 1 0 0)
    (Prepared s r x w accNone false fNone fNone fNone 0 0 0 →
      (16 ≤ x.stack.length → exec (.loopm o) s = full) ∧
      ((∀ e ∈ x.stack.head?, e.isLoop = true) → exec (.elsem o) s = wrong ∧ exec .endifm s = wrong) ∧
      ((∀ e ∈ x.stack.head?, e.elseDone = true) → exec (.elsem o) s = wrong) ∧
      ((∀ e ∈ x.stack.head?, e.isLoop = false) → exec (.endl o) s = wrong)) ∧
    (Prepared s r x w accNone false fNone (fMsk k) fNone 0 ((0 : BitVec 2) ++ k) 0 →
      (16 ≤ x.stack.length → exec (.ifm k o) s = full) ∧
      ((∀ e ∈ x.stack, e.isLoop = false) → exec (.brkm k o) s = wrong))) ∧
  (∀ (s : State) (r : RowId) (x : Row) (w : Band) (d a b p q o : Reg) (m : MReg) (n : BitVec 6) (k : BitVec 2) (h : BitVec 4)
    (ord : BitVec 2) (sc : Bool) (op : AtomOp) (e : Option Entry),
    let L := x.active w.laneW m
    let A := (x.sget q).toNat
    let X (i : Nat) : Nat := (laneAt (vecValue x e o) i).toNat
    let Q (i : Nat) : Nat := (laneAt (vecValue x e q) i).toNat
    let trap (c : Byte) (j : Nat) (v : Int) : Out := .next (trapped s r x c (BitVec.ofNat 8 j) 0 (BitVec.ofInt 64 v))
    let first (bad : Nat → Prop) (j : Nat) : Prop := j < 64 ∧ L.getLsbD j = true ∧ bad j ∧ ∀ i, i < j → L.getLsbD i = true → ¬ bad i
    let traps (f : Nat → Int) (z : Out) : Prop :=
      (∀ j, first (fun i => f i % 4 ≠ 0) j → z = trap 0x03 j (f j)) ∧
      ((∀ i, L.getLsbD i = true → f i % 4 = 0) →
        ∀ j, first (fun i => f i < 0 ∨ (w.wsize : Int) < f i + 4) j → z = trap 0x04 j (f j))
    let far (u : Nat → Nat) (g : Nat → Int) (z : Out) : Prop :=
      (∀ j, first (fun i => g i % 4 ≠ 0) j → z = trap 0x03 j ((u j * 2 ^ 20 : Nat) + g j)) ∧
      ((∀ i, L.getLsbD i = true → g i % 4 = 0) →
        ∀ j, first (fun i => w.nb < u i ∨ skeinBand s w (u i) = none ∨
            ∃ v, skeinBand s w (u i) = some v ∧ (v.wsize : Int) < g i + 4) j →
          z = trap 0x0C j ((u j * 2 ^ 20 : Nat) + g j))
    (Issues s r x w accRep false (fVec d) (fSca a) fNone p q o → x.scalarReady q → e = none →
      let f (i : Nat) : Int := ((A + 4 * n.toNat + 4 * i : Nat) : Int)
      let g (i : Nat) : Int := ((A % 2 ^ 20 + 4 * n.toNat + 4 * i : Nat) : Int)
      (x.vFull p = true →
        traps f (exec (.ldv d a m n) s) ∧ far (fun _ => A / 2 ^ 20) g (exec (.rldv d a m n) s)) ∧
      (SourcesReady x [p] none →
        traps f (exec (.stv d a m n) s) ∧ far (fun _ => A / 2 ^ 20) g (exec (.rstv d a m n) s))) ∧
    (Issues s r x w accRep false (fVec d) (fSca a) (fSca b) p q o → x.scalarReady q → x.scalarReady o →
      let f (i : Nat) : Int := ((A + 4 * n.toNat : Nat) : Int) + (x.sget o).toInt * i
      (x.vFull p = true → traps f (exec (.ldvs d a b m n) s)) ∧
      (SourcesReady x [p] none → traps f (exec (.stvs d a b m n) s))) ∧
    (Issues s r x w accRep false (fVec d) (fSca a) (fVec b) p q o → x.scalarReady q →
      let f (i : Nat) : Int := ((A + 4 * h.toNat + 2 ^ k.toNat * X i : Nat) : Int)
      (SourcesReady x [o] e → x.vFull p = true → traps f (exec (.ldvx d a b m k h) s)) ∧
      (SourcesReady x [o, p] e → traps f (exec (.stvx d a b m k h) s))) ∧
    (Issues s r x w accRep false (fSca d) (fSca a) fNone p q o → x.scalarReady q → ∀ i : Instr,
      (i = .lds d a n ∧ x.sFull p = true) ∨ (i = .sts d a n ∧ x.scalarReady p) →
      let f : Nat := A + 8 * n.toNat
      (f % 8 ≠ 0 → exec i s = trap 0x03 0 f) ∧ (f % 8 = 0 → w.wsize < f + 8 → exec i s = trap 0x04 0 f)) ∧
    (Issues s r x w accRep false (fVec d) (fVec a) (fVec b) p q o →
      (SourcesReady x ([q, o] ++ if op = .cas then [p] else []) e → x.vFull p = true →
        traps (fun i => Q i) (exec (.atom d a b m ord sc op) s) ∧
        far (fun i => Q i / 2 ^ 20) (fun i => ((Q i % 2 ^ 20 : Nat) : Int)) (exec (.ratom d a b m ord true op) s)) ∧
      (SourcesReady x [q, o, p] e →
        far (fun i => Q i / 2 ^ 20) (fun i => ((Q i % 2 ^ 20 : Nat) : Int)) (exec (.ratom d a b m ord false .cas) s))) ∧
    (op ≠ .cas → Issues s r x w accRep false fNone (fVec a) (fVec b) p q o → SourcesReady x [q, o] e →
      far (fun i => Q i / 2 ^ 20) (fun i => ((Q i % 2 ^ 20 : Nat) : Int)) (exec (.ratom d a b m ord false op) s))) ∧
  (∀ (s : State) (r : RowId) (x : Row) (w : Band) (d a b : Reg) (ta tb : Bool),
    x.scalarReady a →
    let v := x.sget a
    let i : BitVec 6 := v.setWidth 6
    let bad (f : Instr) : Prop := exec f s = .next (trapped s r x 0x11 0 0 v)
    let foreign : Prop := v.extractLsb' 6 58 ≠ 0 ∨ (slotOf s r i).owner ≠ some w.launch
    let G (j : Nat) : BitVec 6 := BitVec.ofNat 6 (8 * fld v 2 0 + j)
    (Issues s r x w accSchd false (fSca d) (fSca a) fNone d a 0 → x.sFull d = true →
      ((foreign ∨ (slotOf s r i).ra = 0) → bad (.barx d a ta) ∧ (Undisturbed x → x.ctl.barrier = none → bad (.barv d a ta))) ∧
      (v.extractLsb' 6 10 ≠ 0 → Undisturbed x → x.ctl.barrier = none → bad (.bwait d a ta))) ∧
    (Issues s r x w accSchd false (fSca d) (fSca a) (fSca b) d a b → x.scalarReady b → x.sFull d = true → x.ctl.barrier = none →
      (fld v 63 16 ≠ 0 ∨ fld v 7 3 ≠ 0 ∨ fld v 15 8 = 0 ∨
        ∃ j, j < 8 ∧ tst v (8 + j) = true ∧ (slotOf s r (G j)).owner ≠ some w.launch) →
      bad (.bwany d a b ta tb)) ∧
    (Issues s r x w accSchd false fNone (fSca a) (fSca b) 0 a b → x.scalarReady b →
      ((v.extractLsb' 6 58 ≠ 0 ∨ ((slotOf s r i).owner ≠ none ∧ (slotOf s r i).owner ≠ some w.launch)) → bad (.binit a b ta tb)) ∧
      (Undisturbed x → StreamQuiet x →
        (foreign ∨ x.canPark w = false ∨ (x.sget b).toNat % 4 ≠ 0 ∨ (slotOf s r i).ra = 0) → bad (.bpark a b ta tb))) ∧
    (Issues s r x w accSchd false fNone (fSca a) fNone 0 a 0 → foreign → bad (.binv a ta))) ∧
  (∀ (s : State) (r : RowId) (x : Row) (w : Band) (d a b p q o : Reg) (k m : MReg) (u : Bool) (c : Cond) (n : BitVec 6)
    (i : BitVec 14) (j : BitVec 19) (g : SgnOp),
    let waits : Out := .next (s.setRow r (waitAt s r x 1 .v))
    let empty (v : Byte) : Out := .next (trapped s r x 0x05 v 0 0)
    let pending : Out := if modBit x.hints 19 then empty 0 else waits
    let sound (v : Reg) : Prop := x.badS v = false
    let vsound (v : Reg) : Prop := x.badV v = false
    (Issues s r x w accRep false (fSca d) (fSca a) (fSca b) p q o → sound q → sound o →
      ∀ f ∈ ([fun ta tb => .sadd d a b ta tb, fun ta tb => .ssub d a b ta tb, fun ta tb => .smul d a b ta tb,
          fun ta tb => .smulh d a b ta tb u, fun ta tb => .sdiv d a b ta tb u, fun ta tb => .srem d a b ta tb u,
          fun ta tb => .sand d a b ta tb, fun ta tb => .sor d a b ta tb, fun ta tb => .sxor d a b ta tb,
          fun ta tb => .sshl d a b ta tb, fun ta tb => .sshr d a b ta tb u, fun ta tb => .smin d a b ta tb u,
          fun ta tb => .smax d a b ta tb u, fun ta tb => .scmp d a b ta tb u c] : List (Bool → Bool → Instr)),
        ∀ v : Bool,
        (x.sFull q = false → exec (f false v) s = waits ∧ exec (f true v) s = empty 1) ∧
        (x.sFull q = true → x.sFull o = false → exec (f v false) s = waits ∧ exec (f v true) s = empty 2) ∧
        (x.sFull q = true → x.sFull o = true → x.sFull p = false → exec (f u v) s = pending)) ∧
    (Issues s r x w accRep false (fSca d) (fSca a) fNone p q o → sound q →
      (∀ f ∈ ([fun ta => .spopc d a ta, fun ta => .sclz d a ta, fun ta => .smov d a ta] : List (Bool → Instr)),
        (x.sFull q = false → exec (f false) s = waits ∧ exec (f true) s = empty 1) ∧
        (x.sFull q = true → x.sFull p = false → exec (f u) s = pending)) ∧
      (∀ v ∈ [Instr.sshli d a n, Instr.sshri d a u n, Instr.lds d a n],
        (x.sFull q = false → exec v s = waits) ∧ (x.sFull q = true → x.sFull p = false → exec v s = pending))) ∧
    (Issues s r x w accAll false (fSca d) (fSca a) fNone p q o → sound q →
      ∀ v ∈ [Instr.saddi d a i, Instr.sandi d a i, Instr.sori d a i, Instr.sxori d a i],
        (x.sFull q = false → exec v s = waits) ∧ (x.sFull q = true → x.sFull p = false → exec v s = pending)) ∧
    (Issues s r x w accNone false fNone (fSca a) fNone 0 q 0 → sound q → x.sFull q = false →
      exec (.bz a j) s = waits ∧ exec (.bnz a j) s = waits ∧ exec (.ret a false) s = waits ∧ exec (.jmpr a false) s = waits ∧
      exec (.ret a true) s = empty 1 ∧ exec (.jmpr a true) s = empty 1) ∧
    (Issues s r x w accRep false (fVec d) (fVec a) (fVec b) p q o → vsound q → vsound o → x.badHead = false →
      ∀ f ∈ ([fun ta tb => .vadd d a b m ta tb u, fun ta tb => .vsub d a b m ta tb u, fun ta tb => .vmul d a b m ta tb u,
          fun ta tb => .vmulh d a b m ta tb u, fun ta tb => .vmin d a b m ta tb u, fun ta tb => .vmax d a b m ta tb u,
          fun ta tb => .vand d a b m ta tb, fun ta tb => .vor d a b m ta tb, fun ta tb => .vxor d a b m ta tb,
          fun ta tb => .vandn d a b m ta tb, fun ta tb => .vshl d a b m ta tb, fun ta tb => .vshr d a b m ta tb u,
          fun ta tb => .vsel d a b m ta tb k, fun ta tb => .vfadd d a b m ta tb, fun ta tb => .vfsub d a b m ta tb,
          fun ta tb => .vfmul d a b m ta tb, fun ta tb => .vfdiv d a b m ta tb, fun ta tb => .vfmin d a b m ta tb,
          fun ta tb => .vfmax d a b m ta tb, fun ta tb => .vfsgn d a b m ta tb g, fun ta tb => .vfscl d a b m ta tb,
          fun ta tb => .vhadd d a b m ta tb u, fun ta tb => .vhmul d a b m ta tb u] : List (Bool → Bool → Instr)),
        ∀ v : Bool,
        (x.vFull q = false → exec (f false v) s = waits ∧ exec (f true v) s = empty 1) ∧
        (x.vFull q = true → x.vFull o = false → exec (f v false) s = waits ∧ exec (f v true) s = empty 2) ∧
        (x.vFull q = true → x.vFull o = true → q ≠ 28 → o ≠ 28 → p ≠ 29 → x.vFull p = false → exec (f u v) s = pending) ∧
        (x.vFull q = true → x.vFull o = true → q = 28 → o ≠ 28 → x.mx.anyStream Stream.north = false →
          (x.north.isOpen = true → exec (f u v) s = .next (trapped s r x 0x06 0 0 0)) ∧
          (x.north.isOpen = false → x.north.fifo = [] → x.north.closed = true → x.north.transit = [] →
            exec (f u v) s = .next (trapped s r x 0x07 0 0 0)) ∧
          (x.north.isOpen = false → x.north.fifo = [] → x.north.closed = false →
            exec (f false v) s = .next (s.setRow r (waitAt s r x 2 .v)) ∧ exec (f true v) s = empty 3))) ∧
    (Issues s r x w accRep false (fVec d) (fVec a) fNone p q o → vsound q → q ≠ 28 →
      ∀ f ∈ ([fun ta => .vabs d a m ta, fun ta => .vpopc d a m ta, fun ta => .vclz d a m ta, fun ta => .vfrcp d a m ta,
          fun ta => .vfrsq d a m ta, fun ta => .vfsqrt d a m ta, fun ta => .vfexp2 d a m ta, fun ta => .vflog2 d a m ta,
          fun ta => .vfrnd d a m ta, fun ta => .vfclass d a m ta, fun ta => .vcprs d a m ta, fun ta => .vexpd d a m ta]
          : List (Bool → Instr)),
        (x.vFull q = false → exec (f false) s = waits ∧ exec (f true) s = empty 1) ∧
        (x.vFull q = true → p ≠ 29 → x.vFull p = false → exec (f u) s = pending)) ∧
    (Issues s r x w accRep false (fVec d) (fSca a) fNone p q o → sound q → vsound p →
      (x.sFull q = false → exec (.ldv d a m n) s = waits ∧ exec (.stv d a m n) s = waits ∧ exec (.rldv d a m n) s = waits ∧
        exec (.rstv d a m n) s = waits) ∧
      (x.sFull q = true → x.vFull p = false →
        exec (.ldv d a m n) s = pending ∧ exec (.rldv d a m n) s = pending ∧
        exec (.stv d a m n) s = pending ∧ exec (.rstv d a m n) s = pending)) ∧
    (Issues s r x w accMod false fNone fNone fNone 0 0 0 → StreamQuiet x → sound a → x.sFull a = false →
      exec (.shape d a false) s = waits ∧ exec (.shape d a true) s = empty 1) ∧
    (Issues s r x w accSchd false (fSca d) (fSca a) fNone d a 0 → sound a →
      (x.sFull a = false → exec (.barx d a false) s = waits ∧ exec (.barx d a true) s = empty 1 ∧
        exec (.shtr d a u u false) s = waits ∧ exec (.nput d a) s = waits ∧
        (x.ctl.evsig = none → exec (.evsig d a u) s = waits)) ∧
      (x.sFull a = true → x.sFull d = false → exec (.barx d a u) s = waits)) ∧
    (Issues s r x w accSchd false fNone (fSca a) (fSca b) 0 a b → sound a → sound b → x.sFull a = true → x.sFull b = false →
      exec (.binit a b u false) s = waits ∧ exec (.binit a b u true) s = empty 2))

/-- R255: the integer lane instructions of two vector sources, in every active lane; under MOD.SAT the exact result of
VADD, VSUB, VMUL, VMAD and VDOT4 is clamped to the type, otherwise it is taken modulo 2^32 (R252). A source v28 takes
the popped entry, a destination v29 is the south port (R42). -/
def Obligations.VectorIntegerResult : Prop :=
  ∀ (s : State) (r : RowId) (x : Row) (w : Band) (d a b p q o : Reg) (m : MReg) (ta tb : Bool) (e : Option Entry),
    Issues s r x w accRep false (fVec d) (fVec a) (fVec b) p q o → destReady s x p →
    let A := vecValue x e q
    let B := vecValue x e o
    let D := x.vget p
    let signed (v : Int) : Word :=
      BitVec.ofInt 32 (if modBit x.hints 20 then max (-2147483648) (min 2147483647 v) else v)
    let unsigned (v : Int) : Word := BitVec.ofInt 32 (if modBit x.hints 20 then max 0 (min 4294967295 v) else v)
    let byte (v : Word) (j : Nat) : BitVec 8 := v.extractLsb' (8 * j) 8
    let done (f : Fin 64 → Word) : Out :=
      .next (completed (writeVec s r (afterPop x e) p (x.active w.laneW m) (Vector.ofFn f)) r)
    (SourcesReady x [q, o] e →
      exec (.vadd d a b m ta tb false) s = done (fun i => signed (A[i].toInt + B[i].toInt)) ∧
      exec (.vadd d a b m ta tb true) s = done (fun i => unsigned (A[i].toNat + B[i].toNat)) ∧
      exec (.vsub d a b m ta tb false) s = done (fun i => signed (A[i].toInt - B[i].toInt)) ∧
      exec (.vsub d a b m ta tb true) s = done (fun i => unsigned (A[i].toNat - B[i].toNat)) ∧
      exec (.vmul d a b m ta tb false) s = done (fun i => signed (A[i].toInt * B[i].toInt)) ∧
      exec (.vmul d a b m ta tb true) s = done (fun i => unsigned (A[i].toNat * B[i].toNat)) ∧
      exec (.vmulh d a b m ta tb false) s = done (fun i => BitVec.ofInt 32 (A[i].toInt * B[i].toInt / 2 ^ 32)) ∧
      exec (.vmulh d a b m ta tb true) s =
        done (fun i => BitVec.ofInt 32 ((A[i].toNat : Int) * B[i].toNat / 2 ^ 32)) ∧
      exec (.vmin d a b m ta tb false) s = done (fun i => if B[i].slt A[i] then B[i] else A[i]) ∧
      exec (.vmin d a b m ta tb true) s = done (fun i => if B[i].ult A[i] then B[i] else A[i]) ∧
      exec (.vmax d a b m ta tb false) s = done (fun i => if A[i].slt B[i] then B[i] else A[i]) ∧
      exec (.vmax d a b m ta tb true) s = done (fun i => if A[i].ult B[i] then B[i] else A[i]) ∧
      exec (.vand d a b m ta tb) s = done (fun i => A[i] &&& B[i]) ∧
      exec (.vor d a b m ta tb) s = done (fun i => A[i] ||| B[i]) ∧
      exec (.vxor d a b m ta tb) s = done (fun i => A[i] ^^^ B[i]) ∧
      exec (.vandn d a b m ta tb) s = done (fun i => A[i] &&& ~~~B[i]) ∧
      exec (.vshl d a b m ta tb) s = done (fun i => if B[i].toNat < 32 then A[i] <<< B[i].toNat else 0) ∧
      exec (.vshr d a b m ta tb false) s = done (fun i => A[i].sshiftRight (min B[i].toNat 31)) ∧
      exec (.vshr d a b m ta tb true) s = done (fun i => if B[i].toNat < 32 then A[i] >>> B[i].toNat else 0) ∧
      ∀ k : MReg, exec (.vsel d a b m ta tb k) s = done (fun i => if (x.mget k).getLsbD i then A[i] else B[i])) ∧
    (SourcesReady x [q, o, p] e →
      exec (.vmad d a b m ta tb false) s = done (fun i => signed (A[i].toInt * B[i].toInt + D[i].toInt)) ∧
      exec (.vmad d a b m ta tb true) s = done (fun i => unsigned (A[i].toNat * B[i].toNat + D[i].toNat)) ∧
      exec (.vdot4 d a b m ta tb false) s =
        done (fun i => signed ((byte A[i] 0).toInt * (byte B[i] 0).toInt + (byte A[i] 1).toInt * (byte B[i] 1).toInt
          + (byte A[i] 2).toInt * (byte B[i] 2).toInt + (byte A[i] 3).toInt * (byte B[i] 3).toInt + D[i].toInt)) ∧
      exec (.vdot4 d a b m ta tb true) s =
        done (fun i => unsigned (((byte A[i] 0).toNat : Int) * (byte B[i] 0).toNat + (byte A[i] 1).toNat * (byte B[i] 1).toNat
          + (byte A[i] 2).toNat * (byte B[i] 2).toNat + (byte A[i] 3).toNat * (byte B[i] 3).toNat + D[i].toNat)))

/-- R255 to R257, R259: the integer lane instructions of one vector source, of an immediate, and of none; the
comparisons write a mask register whole, 0 in every lane that is not active (R250). -/
def Obligations.VectorUnaryCompareResult : Prop :=
  ∀ (s : State) (r : RowId) (x : Row) (w : Band) (d a b p q o : Reg) (k m : MReg) (ta tb : Bool) (i : BitVec 14) (c : Cond)
    (e : Option Entry),
    let A := vecValue x e q
    let B := vecValue x e o
    let mk := x.active w.laneW m
    let I : Word := (immOf x.hints i).setWidth 32
    let done (f : Fin 64 → Word) : Out := .next (completed (writeVec s r (afterPop x e) p mk (Vector.ofFn f)) r)
    let holds (u : Bool) (v z : Word) : Bool :=
      match c with
      | .eq => v == z
      | .ne => v != z
      | .lt => if u then v.ult z else v.slt z
      | .le => if u then v.ule z else v.sle z
      | .gt => if u then z.ult v else z.slt v
      | .ge => if u then z.ule v else z.sle v
    let mask (f : Fin 64 → Bool) (t : Out) : Prop :=
      ∃ g : Mask, (∀ j : Fin 64, g.getLsbD j = (mk.getLsbD j && f j)) ∧
        t = .next (completed (s.setRow r ((afterPop x e).mset k g)) r)
    (Issues s r x w accRep false (fVec d) (fVec a) fNone p q o → SourcesReady x [q] e → destReady s x p →
      exec (.vabs d a m ta) s = done (fun j => BitVec.ofInt 32
        (if modBit x.hints 20 then min 2147483647 (A[j].toInt.natAbs : Int) else A[j].toInt.natAbs)) ∧
      exec (.vpopc d a m ta) s = done (fun j => BitVec.ofNat 32 ((List.range 32).countP (fun n => A[j].getLsbD n))) ∧
      exec (.vclz d a m ta) s =
        done (fun j => BitVec.ofNat 32 (((List.range 32).find? (fun n => A[j].getLsbD (31 - n))).getD 32)) ∧
      (modBit x.hints 18 = false → exec (.vmov d a m ta) s = done (fun j => A[j])) ∧
      exec (.vsatn d a m ta .i16) s =
        done (fun j => BitVec.ofInt 32 (max (-32768) (min 32767 A[j].toInt))) ∧
      exec (.vsatn d a m ta .n16) s = done (fun j => BitVec.ofInt 32 (max 0 (min 65535 A[j].toInt))) ∧
      exec (.vsatn d a m ta .i8) s = done (fun j => BitVec.ofInt 32 (max (-128) (min 127 A[j].toInt))) ∧
      exec (.vsatn d a m ta .n8) s = done (fun j => BitVec.ofInt 32 (max 0 (min 255 A[j].toInt)))) ∧
    (Issues s r x w accRep false (fVec d) (fVec a) (fImm5 b) p q o → SourcesReady x [q] e → destReady s x p →
      exec (.vshli d a b m ta) s = done (fun j => A[j] <<< o.toNat) ∧
      exec (.vshri d a b m ta false) s = done (fun j => A[j].sshiftRight o.toNat) ∧
      exec (.vshri d a b m ta true) s = done (fun j => A[j] >>> o.toNat)) ∧
    (Issues s r x w accAll false (fVec d) (fVec a) fNone p q o → SourcesReady x [q] e → destReady s x p → m = 0 →
      exec (.vaddi d a i) s = done (fun j => A[j] + I)) ∧
    (Issues s r x w accAll false (fVec d) fNone fNone p q o → destReady s x p → m = 0 → e = none →
      exec (.vli d i) s = done (fun _ => I)) ∧
    (Issues s r x w accRep false (fVec d) (fSca a) fNone p q o → x.scalarReady q → destReady s x p → e = none →
      exec (.vmovs d a m ta) s = done (fun _ => (x.sget q).setWidth 32)) ∧
    (Issues s r x w accRep false (fMsk k) (fVec a) (fVec b) ((0 : BitVec 2) ++ k) q o → SourcesReady x [q, o] e → ∀ u,
      mask (fun j => holds u A[j] B[j]) (exec (.vcmp k a b m ta tb u c) s)) ∧
    (Issues s r x w accRep false (fMsk k) (fVec a) (fImm5 b) ((0 : BitVec 2) ++ k) q o → SourcesReady x [q] e →
      mask (fun j => holds false A[j] (o.signExtend 32)) (exec (.vcmpi k a b m ta false c) s) ∧
      mask (fun j => holds true A[j] (o.setWidth 32)) (exec (.vcmpi k a b m ta true c) s))

/-- (1) R260 to R266, R99: the floating-point and conversion lane instructions: each active lane receives its result
under the rounding mode, SAT and FTZ in force, and the flags of the active lanes are raised together. The results are
those of the model's arithmetic (fAdd and its like, from R74 to R84). VFSGN takes no sign from a NaN vB (log entry
82). (2) R262: VFCMP compares under FTZ; a NaN is unordered: every condition but ne is false of it. (3) R74, R76, R78,
R79, R81, R82, R91, R95, R261, R266: values and flags of the floating-point instructions, each named by its bits: a
NaN operand gives 0x7FC00000 and no flag; rounding, ties, overflow, subnormal results and signs of zero in each mode;
FTZ on inputs and results; the special operands; the conversions, and the worked example of R266. -/
def Obligations.VectorFloatResult : Prop :=
  (∀ (s : State) (r : RowId) (x : Row) (w : Band) (d a b p q o : Reg) (m : MReg) (ta tb bf h : Bool) (f g : TyCode)
    (sg : SgnOp) (e : Option Entry),
    destReady s x p →
    let z := x.fp.ftz
    let R := modeOf x.hints x.fp.rmode
    let sat := modBit x.hints 20
    let A := vecValue x e q
    let B := vecValue x e o
    let D := x.vget p
    let F (v : Word) : FVal := ftzIn z v
    let done (k : Fin 64 → Word × Flags) : Out :=
      .next (completed (writeVec s r ((afterPop x e).raise (laneFlags (x.active w.laneW m) (fun i => (k i).2))) p
        (x.active w.laneW m) (Vector.ofFn (fun i => (k i).1))) r)
    (Issues s r x w accRep false (fVec d) (fVec a) (fVec b) p q o →
      (SourcesReady x [q, o] e →
        exec (.vfadd d a b m ta tb) s = done (fun i => ftzOut z (fAdd .f32 R (F A[i]) (F B[i]))) ∧
        exec (.vfsub d a b m ta tb) s = done (fun i => ftzOut z (fAdd .f32 R (F A[i]) (F B[i]).negate)) ∧
        exec (.vfmul d a b m ta tb) s = done (fun i => ftzOut z (fMul .f32 R (F A[i]) (F B[i]))) ∧
        exec (.vfdiv d a b m ta tb) s = done (fun i => ftzOut z (fDiv .f32 R (F A[i]) (F B[i]))) ∧
        exec (.vfmin d a b m ta tb) s =
          done (fun i => (BitVec.ofNat 32 (fMin .f32 (ftzWord z A[i]).toNat (ftzWord z B[i]).toNat), 0)) ∧
        exec (.vfmax d a b m ta tb) s =
          done (fun i => (BitVec.ofNat 32 (fMax .f32 (ftzWord z A[i]).toNat (ftzWord z B[i]).toNat), 0)) ∧
        exec (.vfsgn d a b m ta tb sg) s = done (fun i =>
          (if (unpack .f32 (ftzWord z A[i]).toNat).isNan then 0x7FC00000
           else
             let b := !(unpack .f32 B[i].toNat).isNan && B[i].msb
             bit (match sg with
               | .cpy => b
               | .neg => !b
               | .xor => xor A[i].msb b) ++ (ftzWord z A[i]).extractLsb' 0 31, 0)) ∧
        exec (.vfscl d a b m ta tb) s = done (fun i => ftzOut z (fScl .f32 R (F A[i]) B[i].toInt)) ∧
        exec (.vhadd d a b m ta tb bf) s = done (fun i => halves (fun u v _ =>
          fAdd (halfFmt bf) R (unpack (halfFmt bf) u) (unpack (halfFmt bf) v)) A[i] B[i] D[i]) ∧
        exec (.vhmul d a b m ta tb bf) s = done (fun i => halves (fun u v _ =>
          fMul (halfFmt bf) R (unpack (halfFmt bf) u) (unpack (halfFmt bf) v)) A[i] B[i] D[i])) ∧
      (SourcesReady x [q, o, p] e →
        exec (.vfma d a b m ta tb) s = done (fun i => ftzOut z (fFma .f32 R (F A[i]) (F B[i]) (F D[i]))) ∧
        exec (.vhfma d a b m ta tb bf) s = done (fun i => halves (fun u v t =>
          fFma (halfFmt bf) R (unpack (halfFmt bf) u) (unpack (halfFmt bf) v) (unpack (halfFmt bf) t)) A[i] B[i] D[i]))) ∧
    (Issues s r x w accRep false (fVec d) (fVec a) fNone p q o →
      (SourcesReady x [q] e →
        exec (.vfrcp d a m ta) s = done (fun i => ftzOut z (fRcp .f32 R (F A[i]))) ∧
        exec (.vfrsq d a m ta) s = done (fun i => ftzOut z (fRsqrt .f32 R (F A[i]))) ∧
        exec (.vfsqrt d a m ta) s = done (fun i => ftzOut z (fSqrt .f32 R (F A[i]))) ∧
        exec (.vfexp2 d a m ta) s = done (fun i => ftzOut z (fExp2 .f32 R (F A[i]))) ∧
        exec (.vflog2 d a m ta) s = done (fun i => ftzOut z (fLog2 .f32 R (F A[i]))) ∧
        exec (.vfrnd d a m ta) s = done (fun i => ftzOut z (fRnd .f32 R (F A[i]))) ∧
        exec (.vfclass d a m ta) s = done (fun i => (fClass A[i], 0)) ∧
        (f.packed = false → exec (.vcvt d a h g m ta f) s = done (fun i =>
          cvtTo f h R sat z (cvtSource g h z A[i]).1 (cvtSource g h z A[i]).2 D[i]))) ∧
      (SourcesReady x [q, p] e → f.packed = true →
        exec (.vcvt d a h g m ta f) s = done (fun i =>
          cvtTo f h R sat z (cvtSource g h z A[i]).1 (cvtSource g h z A[i]).2 D[i]))) ∧
    (Issues s r x w accRep false (fVec d) (fVec a) (fSca b) p q o → SourcesReady x [q] e → x.scalarReady o →
      exec (.vcvts d a b m ta tb f) s = done (fun i => cvtScaled f R sat z A[i] ((x.sget o).setWidth 32)))) ∧
  (∀ (s : State) (r : RowId) (x : Row) (w : Band) (a b q o : Reg) (k m : MReg) (ta tb : Bool) (c : Cond) (e : Option Entry),
    Issues s r x w accRep false (fMsk k) (fVec a) (fVec b) ((0 : BitVec 2) ++ k) q o → SourcesReady x [q, o] e →
    ∃ g : Mask, exec (.vfcmp k a b m ta tb c) s = .next (completed (s.setRow r ((afterPop x e).mset k g)) r) ∧
      ∀ j : Fin 64,
        let u := ftzIn x.fp.ftz (vecValue x e q)[j]
        let v := ftzIn x.fp.ftz (vecValue x e o)[j]
        g.getLsbD j = ((x.active w.laneW m).getLsbD j && fCmp c u v) ∧
        ((u.isNan = true ∨ v.isNan = true) → fCmp c u v = decide (c = .ne))) ∧
  (∀ (s : State) (r : RowId) (x : Row) (w : Band) (d a b p q o : Reg) (m : MReg) (ta tb : Bool) (e : Option Entry),
    destReady s x p →
    let z := x.fp.ftz
    let R := modeOf x.hints x.fp.rmode
    let A (i : Fin 64) : Word := (vecValue x e q)[i]
    let B (i : Fin 64) : Word := (vecValue x e o)[i]
    let D (i : Fin 64) : Word := (x.vget p)[i]
    let nan (v : Word) : Prop := 0x7F800000 < (v &&& 0x7FFFFFFF).toNat
    let gives (t : Out) (P : Fin 64 → Word × Flags → Prop) : Prop :=
      ∃ k : Fin 64 → Word × Flags,
        t = .next (completed (writeVec s r ((afterPop x e).raise (laneFlags (x.active w.laneW m) (fun i => (k i).2))) p
          (x.active w.laneW m) (Vector.ofFn (fun i => (k i).1))) r) ∧ ∀ i, P i (k i)
    let two (l : List (RMode × Word × Word × Word × Flags)) (i : Fin 64) (v : Word × Flags) : Prop :=
      ∀ c ∈ l, R = c.1 → A i = c.2.1 → B i = c.2.2.1 → v = c.2.2.2
    let one (l : List (RMode × Word × Word × Flags)) (i : Fin 64) (v : Word × Flags) : Prop :=
      ∀ c ∈ l, R = c.1 → A i = c.2.1 → v = c.2.2
    let both (i : Fin 64) (v : Word × Flags) : Prop := (nan (A i) ∨ nan (B i)) → v = (0x7FC00000, 0)
    let single (i : Fin 64) (v : Word × Flags) : Prop := nan (A i) → v = (0x7FC00000, 0)
    (Issues s r x w accRep false (fVec d) (fVec a) (fVec b) p q o → SourcesReady x [q, o] e →
      gives (exec (.vfadd d a b m ta tb) s) (fun i v => both i v ∧
        (A i = 0x7F800000 → B i = 0xFF800000 → v = (0x7FC00000, 16)) ∧
        (A i = 0x80000000 → B i = 0x80000000 → v = (0x80000000, 0)) ∧
        (z = false → two [
          (.rne, 0x3F800000, 0x33800000, 0x3F800000, 1), (.rup, 0x3F800000, 0x33800000, 0x3F800001, 1),
          (.rne, 0x3F800001, 0x33800000, 0x3F800002, 1), (.rtz, 0x3F800001, 0x33800000, 0x3F800001, 1),
          (.rne, 0x7F7FFFFF, 0x7F7FFFFF, 0x7F800000, 5), (.rtz, 0x7F7FFFFF, 0x7F7FFFFF, 0x7F7FFFFF, 5),
          (.rdn, 0xFF7FFFFF, 0xFF7FFFFF, 0xFF800000, 5), (.rup, 0xFF7FFFFF, 0xFF7FFFFF, 0xFF7FFFFF, 5),
          (.rne, 0x3F800000, 0xBF800000, 0, 0), (.rdn, 0x3F800000, 0xBF800000, 0x80000000, 0),
          (.rne, 1, 1, 2, 0), (.rne, 0x00800001, 0x80800000, 1, 0)] i v) ∧
        (z = true → two [(.rne, 1, 1, 0, 0), (.rne, 0x00800001, 0x80800000, 0, 3)] i v)) ∧
      gives (exec (.vfsub d a b m ta tb) s) (fun i v => both i v ∧
        (A i = 0x7F800000 → B i = 0x7F800000 → v = (0x7FC00000, 16)) ∧
        two [(.rne, 0x3F800000, 0x3F800000, 0, 0), (.rdn, 0x3F800000, 0x3F800000, 0x80000000, 0)] i v) ∧
      gives (exec (.vfmul d a b m ta tb) s) (fun i v => both i v ∧
        (A i = 0x7F800000 → B i = 0 → v = (0x7FC00000, 16)) ∧
        (A i = 0x80000000 → B i = 0x3F800000 → v = (0x80000000, 0)) ∧
        (z = false → two [
          (.rne, 0x00800000, 0x3F000000, 0x00400000, 0), (.rne, 0x00800001, 0x3F000000, 0x00400000, 3),
          (.rup, 0x00800001, 0x3F000000, 0x00400001, 3), (.rne, 0x7F000000, 0x40800000, 0x7F800000, 5)] i v) ∧
        (z = true → two [(.rne, 0x00800000, 0x3F000000, 0, 3)] i v)) ∧
      gives (exec (.vfdiv d a b m ta tb) s) (fun i v => both i v ∧
        (A i = 0 → B i = 0 → v = (0x7FC00000, 16)) ∧
        (A i = 0x7F800000 → B i = 0x7F800000 → v = (0x7FC00000, 16)) ∧
        (A i = 0x3F800000 → B i = 0x80000000 → v = (0xFF800000, 8)) ∧
        two [(.rne, 0x3F800000, 0x40400000, 0x3EAAAAAB, 1), (.rtz, 0x3F800000, 0x40400000, 0x3EAAAAAA, 1)] i v) ∧
      gives (exec (.vfmin d a b m ta tb) s) (fun i v => both i v ∧
        (A i = 0 → B i = 0x80000000 → v = (0x80000000, 0)) ∧ (A i = 0x3F800000 → B i = 0xC0000000 → v = (0xC0000000, 0))) ∧
      gives (exec (.vfmax d a b m ta tb) s) (fun i v => both i v ∧
        (A i = 0x80000000 → B i = 0 → v = (0, 0)) ∧ (A i = 0x3F800000 → B i = 0xC0000000 → v = (0x3F800000, 0))) ∧
      gives (exec (.vfscl d a b m ta tb) s) (fun i v => single i v ∧
        (z = false → two [(.rne, 0x3F800000, 0xFFFFFF6B, 1, 0), (.rne, 0x3F800000, 0x80, 0x7F800000, 5)] i v) ∧
        (z = true → two [(.rne, 0x3F800000, 0xFFFFFF6B, 0, 3)] i v)) ∧
      gives (exec (.vhadd d a b m ta tb false) s)
        (two [(.rne, 0x3C003C00, 0x10003C00, 0x3C004000, 1), (.rup, 0x3C003C00, 0x10003C00, 0x3C014000, 1)])) ∧
    (Issues s r x w accRep false (fVec d) (fVec a) (fVec b) p q o → SourcesReady x [q, o, p] e →
      gives (exec (.vfma d a b m ta tb) s) (fun i v =>
        (A i = 0x7F800000 → B i = 0 → v = (0x7FC00000, 16)) ∧
        (A i = 0x3F800800 → B i = 0x3F800800 → D i = 0xBF801000 → v = (0x33800000, 0)))) ∧
    (Issues s r x w accRep false (fVec d) (fVec a) fNone p q o → SourcesReady x [q] e →
      gives (exec (.vfrcp d a m ta) s) (fun i v => single i v ∧ (A i = 0x80000000 → v = (0xFF800000, 8)) ∧
        one [(.rne, 0x40400000, 0x3EAAAAAB, 1), (.rtz, 0x40400000, 0x3EAAAAAA, 1)] i v) ∧
      gives (exec (.vfrsq d a m ta) s) (fun i v => single i v ∧ (A i = 0x80000000 → v = (0xFF800000, 8)) ∧
        (A i = 0xBF800000 → v = (0x7FC00000, 16)) ∧
        one [(.rne, 0x40000000, 0x3F3504F3, 1), (.rup, 0x40000000, 0x3F3504F4, 1), (.rne, 0x40800000, 0x3F000000, 0)] i v) ∧
      gives (exec (.vfsqrt d a m ta) s) (fun i v => single i v ∧ (A i = 0x80000000 → v = (0x80000000, 0)) ∧
        (A i = 0xBF800000 → v = (0x7FC00000, 16)) ∧
        one [(.rne, 0x40000000, 0x3FB504F3, 1), (.rne, 0x40800000, 0x40000000, 0)] i v) ∧
      gives (exec (.vfexp2 d a m ta) s) (fun i v => single i v ∧ (A i = 0xFF800000 → v = (0, 0)) ∧
        one [(.rne, 0x40400000, 0x41000000, 0), (.rne, 0x3F000000, 0x3FB504F3, 1)] i v) ∧
      gives (exec (.vflog2 d a m ta) s) (fun i v => single i v ∧ (A i = 0 → v = (0xFF800000, 8)) ∧
        (A i = 0xBF800000 → v = (0x7FC00000, 16)) ∧ (A i = 0x3F800000 → v = (0, 0)) ∧
        one [(.rne, 0x41000000, 0x40400000, 0), (.rne, 0x40400000, 0x3FCAE00D, 1)] i v) ∧
      gives (exec (.vfrnd d a m ta) s) (fun i v => single i v ∧ (A i = 0x7F800000 → v = (0x7F800000, 0)) ∧
        one [(.rne, 0x40200000, 0x40000000, 1), (.rup, 0x40200000, 0x40400000, 1), (.rne, 0xBF000000, 0x80000000, 1)] i v) ∧
      gives (exec (.vcvt d a false .f32 m ta .i32) s) (fun i v => (nan (A i) → v = (0, 16)) ∧
        one [(.rne, 0x40200000, 2, 1), (.rup, 0x40200000, 3, 1), (.rne, 0x4F000000, 0x7FFFFFFF, 16)] i v) ∧
      gives (exec (.vcvt d a false .f32 m ta .n8) s)
        (one [(.rne, 0xBE99999A, 0, 1), (.rdn, 0xBE99999A, 0, 16), (.rne, 0x7F800000, 255, 16)]) ∧
      gives (exec (.vcvt d a false .i32 m ta .f32) s)
        (one [(.rne, 0x01000001, 0x4B800000, 1), (.rup, 0x01000001, 0x4B800001, 1)]) ∧
      gives (exec (.vcvt d a false .f32 m ta .e4m3) s) (fun i v => (nan (A i) → v = (0x7F, 0)) ∧
        one [(.rne, 0x43E80000, 0x7E, 1), (.rne, 0x43E88000, if modBit x.hints 20 then 0x7E else 0x7F, 5),
          (.rne, 0x7F800000, if modBit x.hints 20 then 0x7E else 0x7F, 16)] i v)) ∧
    (Issues s r x w accRep false (fVec d) (fVec a) (fSca b) p q o → SourcesReady x [q] e → x.scalarReady o →
      (x.sget o).setWidth 32 = (0x3F000000 : Word) →
      gives (exec (.vcvts d a b m ta tb .e4m3) s)
        (one [(.rne, 0x44610000, 0x7E, 1), (.rne, 0x3B800000, 1, 0), (.rne, 0x40400000, 0x3C, 0),
          (.rne, 0xC47A0000, if modBit x.hints 20 then 0xFE else 0x7F, 5)])))

/-- (1) R54, R42: VMOV under MOD.PW moves 64-bit entries: a pair of registers to the south, an entry to a pair of
registers, or an entry through; the lanes that are not active are 0 in an entry sent and keep their value in a
register. (2) R229 to R231: TAK2 pops the head entry, keeps its low half, or both under W, in the active lanes, and
passes it on unchanged; PUT2 pushes the pair of its sources in the active lanes and 0 elsewhere; PQRY reads the ports:
the entries in the north port in bits 3 to 0, N_OPEN in 5, N_CLOSED in 6, the entries of the south port and on their
way to its consumer in bits 11 to 8, 0 where it is OPEN or ORPHAN, S_OPEN in 13, S_ORPH in 15, and 0 in every other
bit. -/
def Obligations.PortMoveResult : Prop :=
  (∀ (s : State) (r : RowId) (x : Row) (w : Band) (d a p q o : Reg) (m : MReg) (ta : Bool) (e : Entry),
    Issues s r x w accRep (pwFields d a) (fVec d) (fVec a) fNone p q o → modBit x.hints 18 = true →
    let mk := x.active w.laneW m
    (p = 29 → q.toNat ≤ 26 → x.vectorReady q → x.vectorReady (q + 1) → SouthReady s x →
      exec (.vmov d a m ta) s = .next (completed ((pushSouth s x (entryPair mk (x.vget q) (x.vget (q + 1)))).setRow r x) r)) ∧
    (q = 28 → p.toNat ≤ 26 → NorthReady x e → x.vFull p = true → x.vFull (p + 1) = true →
      exec (.vmov d a m ta) s = .next (completed (s.setRow r
        ((((x.pop.vset p mk (Entry.low e)).vset (p + 1) mk (Entry.high e)).markV p true).markV (p + 1) true)) r)) ∧
    (q = 28 → p = 29 → NorthReady x e → SouthReady s x →
      exec (.vmov d a m ta) s =
        .next (completed ((pushSouth s x.pop (entryPair mk (Entry.low e) (Entry.high e))).setRow r x.pop) r))) ∧
  (∀ (s : State) (r : RowId) (x : Row) (w : Band) (d a b p q o : Reg) (m : MReg) (ta tb : Bool) (e : Entry) (f : Option Entry),
    let mk := x.active w.laneW m
    (Issues s r x w accRep false (fVec d) (fVec 28) fNone p q o → NorthReady x e → SouthReady s x →
      (x.vFull p = true →
        exec (.tak2 d m ta false) s =
          .next (completed ((pushSouth s (x.pop.vset p mk (Entry.low e)) e).setRow r (x.pop.vset p mk (Entry.low e))) r)) ∧
      (x.vFull p = true → x.vFull (p + 1) = true → p.toNat ≤ 26 →
        let y := (x.pop.vset p mk (Entry.low e)).vset (p + 1) mk (Entry.high e)
        exec (.tak2 d m ta true) s = .next (completed ((pushSouth s y e).setRow r y) r))) ∧
    (Issues s r x w accRep false (fVec 29) (fVec a) (fVec b) p q o → SourcesReady x [q, o] f → SouthReady s x →
      exec (.put2 a b m ta tb) s = .next (completed
        ((pushSouth s (afterPop x f) (entryPair mk (vecValue x f q) (vecValue x f o))).setRow r (afterPop x f)) r)) ∧
    (Issues s r x w accRep false (fSca d) fNone fNone p q o → x.sFull p = true →
      ∃ v : Dword, exec (.pqry d) s = .next (completed (s.setRow r (x.sset p v)) r) ∧
        v.extractLsb' 0 4 = BitVec.ofNat 4 (min 8 x.north.fifo.length) ∧ v.getLsbD 5 = x.north.isOpen ∧
        v.getLsbD 6 = x.north.closed ∧ v.getLsbD 13 = x.south.isOpen ∧ v.getLsbD 15 = x.south.orphan ∧
        (x.south.orphan = true ∨ x.south.isOpen = true ∨ x.south.dest = none → v.extractLsb' 8 4 = 0) ∧
        (∀ (c : RowId) (y : Row), x.south.orphan = false → x.south.isOpen = false → x.south.dest = some c → s.row? c = some y →
          v.extractLsb' 8 4 = BitVec.ofNat 4 (min 8 (y.north.fifo.length + y.north.transit.length))) ∧
        v &&& ~~~(0xAF6F : Dword) = 0))

/-- (1) R242 to R248: moves between lanes, reductions, scans and masks. VRED and VSCAN are producers: their
destination is empty until PRODUCER_COMPLETE (R221). (2) R92 to R95, R97, R242, R243: which lane VSHFL reads; what the
integer reductions and scans hold, with an inactive lane as the identity; and values of the FP32 ones at lane width
16: the worked example of R95, a NaN alone in lane 0 of a scan, and no flag of the roundings of inactive lanes. -/
def Obligations.LaneMoveResult : Prop :=
  (∀ (s : State) (r : RowId) (x : Row) (w : Band) (d a b p q o : Reg) (k m n : MReg) (ta tb sx : Bool) (f : BitVec 2)
    (rp : RedOp) (ry : RedTy) (pf : PopFn) (mf : MaskOp) (e : Option Entry),
    let A := vecValue x e q
    let B := vecValue x e o
    let L := x.active w.laneW m
    let put (mk : Mask) (g : Fin 64 → Word) : Out :=
      .next (completed (writeVec s r (afterPop x e) p mk (Vector.ofFn g)) r)
    let row (y : Row) : Out := .next (completed (s.setRow r y) r)
    (Issues s r x w accRep false (fVec d) (fVec a) (fVec b) p q o → SourcesReady x [q, o] e → destReady s x p →
      exec (.vshfl d a b m ta tb f) s = put L (fun i => laneAt A (shuffleLane f w.laneW i (laneAt B i).toNat))) ∧
    (Issues s r x w accRep false (fVec d) (fVec a) (fSca b) p q o → SourcesReady x [q] e → x.scalarReady o →
        destReady s x p →
      exec (.vbcst d a b m ta tb) s = put L (fun _ => laneAt A ((x.sget o).toNat % w.laneW))) ∧
    (Issues s r x w accRep false (fVec d) (fVec a) fNone p q o → SourcesReady x [q] e →
      (destReady s x p →
        exec (.vcprs d a m ta) s =
          put (laneMask (maskLanes L).length) (fun i => laneAt A ((maskLanes L).getD i 64)) ∧
        exec (.vexpd d a m ta) s = put L (fun i => laneAt A (countBits L.toNat i))) ∧
      (x.vFull p = true →
        exec (.vscan d a m ta rp ry) s = row ((afterPop x e).produce
          { dest := .vec p L (Vector.ofFn (fun i => (scanLanes rp ry x.fp.ftz L A w.laneW).1.getD i 0))
            raises := redRaises ry
            fl := (scanLanes rp ry x.fp.ftz L A w.laneW).2 }))) ∧
    (Issues s r x w accRep false (fSca d) (fVec a) fNone p q o → SourcesReady x [q] e → x.sFull p = true →
      exec (.vred d a m ta rp ry) s = row ((afterPop x e).produce
        { dest := .sca p (if ry = .i32 then (reduceLanes rp ry x.fp.ftz L A w.laneW).1.signExtend 64
            else (reduceLanes rp ry x.fp.ftz L A w.laneW).1.setWidth 64)
          raises := redRaises ry
          fl := (reduceLanes rp ry x.fp.ftz L A w.laneW).2 })) ∧
    (Issues s r x w accRep false (fSca d) (fVec a) (fSca b) p q o → SourcesReady x [q] e → x.scalarReady o →
        x.sFull p = true →
      exec (.vtos d a b ta tb sx) s = row ((afterPop x e).sset p
        (if sx then (laneAt A ((x.sget o).toNat % w.laneW)).signExtend 64
         else (laneAt A ((x.sget o).toNat % w.laneW)).setWidth 64))) ∧
    (Issues s r x w accRep false (fVec d) (fSca a) (fSca b) p q o → x.scalarReady q → x.scalarReady o →
        destReady s x p → e = none →
      exec (.stov d a b m ta tb) s =
        put (L &&& (1#64 <<< ((x.sget o).toNat % w.laneW))) (fun _ => (x.sget q).setWidth 32)) ∧
    (Issues s r x w accRep false (fSca d) (fMsk k) fNone p q o → x.sFull p = true →
      exec (.mpopc d k m pf) s = row (x.sset p (BitVec.ofNat 64
        (match pf with
          | .count => (maskLanes (x.mget k &&& L)).length
          | .lowest => (maskLanes (x.mget k &&& L)).headD w.laneW
          | .highest => (maskLanes (x.mget k &&& L)).getLastD w.laneW))) ∧
      exec (.mmovsMS d k) s = row (x.sset p (x.mget k &&& laneMask w.laneW))) ∧
    (Issues s r x w accRep false (fMsk k) (fSca a) fNone p q o → x.scalarReady q →
      exec (.mmovsSM k a ta) s = row (x.mset k (x.sget q &&& laneMask w.laneW))) ∧
    (Issues s r x w accRep false (fMsk k) (fMsk m) (fMsk n) p q o →
      exec (.mlog k m n mf) s = row (x.mset k (laneMask w.laneW &&&
        (match mf with
          | .and => x.mget m &&& x.mget n
          | .or => x.mget m ||| x.mget n
          | .xor => x.mget m ^^^ x.mget n
          | .andn => x.mget m &&& ~~~x.mget n
          | .not => ~~~x.mget m
          | .set => BitVec.allOnes 64
          | .clear => 0))))) ∧
  (∀ (s : State) (r : RowId) (x : Row) (w : Band) (d a b p q o : Reg) (m : MReg) (ta tb : Bool) (e : Option Entry),
    w.laneW ∈ [16, 32, 64] →
    let A := vecValue x e q
    let B := vecValue x e o
    let L := x.active w.laneW m
    let row (y : Row) : Out := .next (completed (s.setRow r y) r)
    let moves (t : Out) (P : Fin 64 → Fin 64 → Prop) : Prop :=
      ∃ g : Fin 64 → Word, t = .next (completed (writeVec s r (afterPop x e) p L (Vector.ofFn g)) r) ∧
        ∀ i j : Fin 64, i.val < w.laneW → P i j → g i = A[j]
    let low (n : Nat) : Dword := BitVec.ofNat 64 (2 ^ n - 1)
    (Issues s r x w accRep false (fVec d) (fVec a) (fVec b) p q o → SourcesReady x [q, o] e → destReady s x p →
      moves (exec (.vshfl d a b m ta tb 0) s) (fun i j => j.val = B[i].toNat % w.laneW) ∧
      moves (exec (.vshfl d a b m ta tb 1) s) (fun i j => j.val = i.val ^^^ (B[i].toNat % w.laneW)) ∧
      moves (exec (.vshfl d a b m ta tb 2) s) (fun i j =>
        (j.val : Int) = if (i.val : Int) - B[i].toNat < 0 then (i.val : Int) else i.val - B[i].toNat) ∧
      moves (exec (.vshfl d a b m ta tb 3) s) (fun i j =>
        j.val = if w.laneW ≤ i.val + B[i].toNat then i.val else i.val + B[i].toNat)) ∧
    (Issues s r x w accRep false (fSca d) (fVec a) fNone p q o → SourcesReady x [q] e → x.sFull p = true →
      let sum : Word := (List.finRange 64).foldl (fun v (i : Fin 64) => if L.getLsbD i.val then v + A[i] else v) 0
      let least (t : Out) (le : Word → Word → Bool) (z : Word) (ext : Word → Dword) : Prop :=
        ∃ v : Word, t = row ((afterPop x e).produce { dest := .sca p (ext v), raises := false, fl := 0 }) ∧
          (∀ i : Fin 64, L.getLsbD i = true → le v A[i] = true) ∧ ((∃ i : Fin 64, L.getLsbD i = true ∧ v = A[i]) ∨ (L = 0 ∧ v = z))
      exec (.vred d a m ta .add .i32) s =
        row ((afterPop x e).produce { dest := .sca p (sum.signExtend 64), raises := false, fl := 0 }) ∧
      exec (.vred d a m ta .add .n32) s =
        row ((afterPop x e).produce { dest := .sca p (sum.setWidth 64), raises := false, fl := 0 }) ∧
      least (exec (.vred d a m ta .min .i32) s) (fun u v => u.sle v) 0x7FFFFFFF (fun v => v.signExtend 64) ∧
      least (exec (.vred d a m ta .min .n32) s) (fun u v => u.ule v) 0xFFFFFFFF (fun v => v.setWidth 64) ∧
      least (exec (.vred d a m ta .max .i32) s) (fun u v => v.sle u) 0x80000000 (fun v => v.signExtend 64) ∧
      least (exec (.vred d a m ta .max .n32) s) (fun u v => v.ule u) 0 (fun v => v.setWidth 64) ∧
      (w.laneW = 16 → L = low 16 →
        (∀ i : Fin 64, i.val < 16 → A[i] = if i.val = 0 then 0x4B800000 else if i.val = 2 ∨ i.val = 3 then 0x3F800000 else 0) →
        exec (.vred d a m ta .add .f32) s =
          row ((afterPop x e).produce { dest := .sca p 0x4B800001, raises := true, fl := 0 }))) ∧
    (Issues s r x w accRep false (fVec d) (fVec a) fNone p q o → SourcesReady x [q] e → x.vFull p = true →
      (∃ v : Lanes, exec (.vscan d a m ta .add .i32) s =
          row ((afterPop x e).produce { dest := .vec p L v, raises := false, fl := 0 }) ∧
        ∀ i : Fin 64, L.getLsbD i = true →
          v[i] = (List.finRange 64).foldl (fun t (j : Fin 64) => if j ≤ i ∧ L.getLsbD j.val = true then t + A[j] else t) 0) ∧
      (∀ (rp : RedOp), w.laneW = 16 → L = 1 → 0x7F800000 < (A[0] &&& 0x7FFFFFFF).toNat →
        ∃ (v : Lanes) (fl : Flags), exec (.vscan d a m ta rp .f32) s =
            row ((afterPop x e).produce { dest := .vec p L v, raises := true, fl := fl }) ∧ v[0] = 0x7FC00000 ∧ fl = 0) ∧
      (w.laneW = 16 → L = low 5 → x.fp.ftz = false → A[0] = 0 → A[1] = 0xBF800000 → A[2] = 0x3F800000 → A[3] = 0 →
          A[4] = 0x30800000 →
        ∃ v : Lanes, exec (.vscan d a m ta .add .f32) s =
            row ((afterPop x e).produce { dest := .vec p L v, raises := true, fl := 0 }) ∧
          v[1] = 0xBF800000 ∧ v[2] = 0 ∧ v[4] = 0x30800000)))

/-- R232, R235, R236: loads. The register is empty until PRODUCER_COMPLETE writes it (R221); a load with no active
lane has no effect. The unit form counts lanes in words, the strided form adds a signed stride for each lane, the
indexed form an unsigned index scaled by 1, 2, 4 or 8. That the words are bound at issue (log entry 21), and that all
posted writes of the row are performed first (log entry 25), are the model's choices. -/
def Obligations.LoadResult : Prop :=
  ∀ (s : State) (r : RowId) (x : Row) (w : Band) (d a b p q o : Reg) (m : MReg) (n : BitVec 6) (k : BitVec 2)
    (h : BitVec 4) (e : Option Entry),
    let L := x.active w.laneW m
    let A := (x.sget q).toNat
    let t := flushPosted (s.setRow r (afterPop x e)) r
    let loads (f : Nat → Int) (i : Instr) : Prop :=
      (L = 0 → exec i s = .next (completed (s.setRow r (afterPop x e)) r)) ∧
      (L ≠ 0 → LocalClear s x w .read 4 f L → WordsGood t (fun _ => w) f L →
        ∃ v : Lanes, exec i s = .next (completed (t.modRow r (fun y => y.produce { dest := .vec p L v })) r) ∧
          ∀ j : Fin 64, L.getLsbD j = true → v[j] = memWord t.mem (winKey w (f j)))
    (Issues s r x w accRep false (fVec d) (fSca a) fNone p q o → x.scalarReady q → x.vFull p = true → e = none →
      loads (fun i => ((A + 4 * n.toNat + 4 * i : Nat) : Int)) (.ldv d a m n)) ∧
    (Issues s r x w accRep false (fVec d) (fSca a) (fSca b) p q o → x.scalarReady q → x.scalarReady o →
        x.vFull p = true → e = none →
      loads (fun i => ((A + 4 * n.toNat : Nat) : Int) + (x.sget o).toInt * i) (.ldvs d a b m n)) ∧
    (Issues s r x w accRep false (fVec d) (fSca a) (fVec b) p q o → x.scalarReady q → SourcesReady x [o] e →
        x.vFull p = true →
      loads (fun i => ((A + 4 * h.toNat + 2 ^ k.toNat * (laneAt (vecValue x e o) i).toNat : Nat) : Int))
        (.ldvx d a b m k h)) ∧
    (Issues s r x w accRep false (fSca d) (fSca a) fNone p q o → x.scalarReady q → x.sFull p = true → e = none →
      let f : Int := ((A + 8 * n.toNat : Nat) : Int)
      LocalClear s x w .read 8 (fun _ => f) 1 → t.badWord (winKey w f) = false →
      exec (.lds d a n) s =
        .next (completed (t.modRow r (fun y => y.produce { dest := .sca p (memDword t.mem (winKey w f)) })) r))

/-- R232 to R236: stores, and their frame: every byte of memory outside the words stored, and every register, flag and
other part of the state but the row's next word, is as it was once the row's posted writes are performed and its port
is popped. That a store performs all posted writes of the row first is the model's choice (log entry 25). -/
def Obligations.StoreResult : Prop :=
  ∀ (s : State) (r : RowId) (x : Row) (w : Band) (d a b p q o : Reg) (m : MReg) (n : BitVec 6) (k : BitVec 2)
    (h : BitVec 4) (e : Option Entry),
    let L := x.active w.laneW m
    let A := (x.sget q).toNat
    let t := flushPosted (s.setRow r (afterPop x e)) r
    s.mem.wf = true →
    let stores (f : Nat → Int) (i : Instr) : Prop :=
      (L = 0 → exec i s = .next (completed (s.setRow r (afterPop x e)) r)) ∧
      (L ≠ 0 → LocalClear s x w .write 4 f L → WordsGood t (fun _ => w) f L →
        ∃ u : State, exec i s = .next (completed u r) ∧ Stored t u w f L (vecValue x e p))
    (Issues s r x w accRep false (fVec d) (fSca a) fNone p q o → x.scalarReady q → SourcesReady x [p] e →
      stores (fun i => ((A + 4 * n.toNat + 4 * i : Nat) : Int)) (.stv d a m n)) ∧
    (Issues s r x w accRep false (fVec d) (fSca a) (fSca b) p q o → x.scalarReady q → x.scalarReady o →
        SourcesReady x [p] e →
      stores (fun i => ((A + 4 * n.toNat : Nat) : Int) + (x.sget o).toInt * i) (.stvs d a b m n)) ∧
    (Issues s r x w accRep false (fVec d) (fSca a) (fVec b) p q o → x.scalarReady q → SourcesReady x [o, p] e →
      stores (fun i => ((A + 4 * h.toNat + 2 ^ k.toNat * (laneAt (vecValue x e o) i).toNat : Nat) : Int))
        (.stvx d a b m k h)) ∧
    (Issues s r x w accRep false (fSca d) (fSca a) fNone p q o → x.scalarReady q → x.scalarReady p → e = none →
      let f : Int := ((A + 8 * n.toNat : Nat) : Int)
      LocalClear s x w .write 8 (fun _ => f) 1 →
      ∃ u : State, exec (.sts d a n) s = .next (completed u r) ∧
        memDword u.mem (winKey w f) = x.sget p ∧ u.badWord (winKey w f) = false ∧
        u = { t with mem := u.mem, badWords := u.badWords } ∧
        ∀ k, (k < winKey w f ∨ winKey w f + 8 ≤ k) → memGet u.mem k = memGet t.mem k)

/-- (1) R237 to R239: remote loads and stores. Bits above 20 of the address name a band of the row's launch; a load is
a producer, a store is posted and stores nothing yet; with no active lane neither has an effect. That a load binds its
words at issue (log entry 21) and sees all posted writes of the row performed (log entry 25), that it waits while the
target's window is away (log entry 95), and that a store follows the steps of the row's atomics (log entry 86), are
the model's choices. (2) R238 to R240: a posted write that is performed stores its lanes at the target core, in order;
an update applies its operation. One that a scoreboard range of its target holds back waits (R161), or that its
target's window is away (R351; log entry 95). -/
def Obligations.RemoteResult : Prop :=
  (∀ (s : State) (r : RowId) (x : Row) (w g : Band) (d a p q o : Reg) (m : MReg) (n : BitVec 6) (e : Option Entry),
    Issues s r x w accRep false (fVec d) (fSca a) fNone p q o → x.scalarReady q →
    let L := x.active w.laneW m
    let A := (x.sget q).toNat
    let f (i : Nat) : Int := ((A % 2 ^ 20 + 4 * n.toNat + 4 * i : Nat) : Int)
    let own (_ : Nat) : Bool := decide (A / 2 ^ 20 = w.bandIx)
    (L = 0 →
      (x.vFull p = true → exec (.rldv d a m n) s = .next (completed s r)) ∧
      (SourcesReady x [p] e → exec (.rstv d a m n) s = .next (completed (s.setRow r (afterPop x e)) r))) ∧
    (L ≠ 0 → A / 2 ^ 20 ≤ w.nb → skeinBand s w (A / 2 ^ 20) = some g → Band.gone s g = false →
      (∀ t, t = flushPosted s r → x.vFull p = true → AccessClear s x w (fun _ => g) own .read 4 f L →
          WordsGood t (fun _ => g) f L →
        ∃ v : Lanes,
          exec (.rldv d a m n) s = .next (completed (t.modRow r (fun y => y.produce { dest := .vec p L v })) r) ∧
          ∀ j : Fin 64, L.getLsbD j = true → v[j] = memWord t.mem (winKey g (f j))) ∧
      (SourcesReady x [p] e → AccessClear s x w (fun _ => g) own .write 4 f L →
        exec (.rstv d a m n) s = .next (completed ((settleAtoms (s.setRow r (afterPop x e)) r).modRow r (fun y =>
          { y with posted := y.posted ++ [⟨g.core, g.id, (maskLanes L).map (fun i =>
            ⟨g.wbase + (f i).toNat, BitVec.ofInt 64 ((A / 2 ^ 20 * 2 ^ 20 : Nat) + f i), none, laneAt (vecValue x e p) i,
              laneAt (vecValue x e p) i⟩)⟩] })) r)))) ∧
  (∀ (s : State) (r : RowId) (x : Row) (p : Posted) (l : List Posted),
    s.row? r = some x → x.posted = p :: l →
    let away : Prop := ∃ b, s.band? p.band = some b ∧ Band.gone s b = true
    ((∃ j ∈ p.lanes, away ∨ ∃ k, sbBlocker s p.core j.off (j.off + 4) true = some k) →
      exec (.remoteWritePerform r) s = .next s) ∧
    (¬ away → (∀ j ∈ p.lanes, sbBlocker s p.core j.off (j.off + 4) true = none) →
    (∀ j ∈ p.lanes, s.badWord (sideKey p.core.toNat j.off) = false) →
    (∀ b ∈ s.bands, b.busy (s.setRow r { x with posted := l }) = true) →
    let key (j : RemoteLane) : Nat := sideKey p.core.toNat j.off
    exec (.remoteWritePerform r) s = .next { s.setRow r { x with posted := l } with
      mem := p.lanes.foldl (fun m j => memWrite m (key j)
        (leBytes 4 (match j.op with
          | none => j.b
          | some f => atomNew f (memWord m (key j)) j.b j.c).toNat)) s.mem }))

/-- (1) R240: one step of an atomic, by its operation: the new word from the old one, the operand and the compare
value. (2) R240, R241: atomics. ATOM, and RATOM with RET, are producers with one step for each active lane in
ascending order; a step writes the new word, and its lane returns the word that the step read; the steps left are made
before a later access of the row. Without RET the updates are posted, one for each lane. A compare-and-swap reads D
too; under release ordering no posted write of the row may report a parity error (R403). The model's choices: values
of the operands are bound at issue (log entry 21), all posted writes of the row are performed first (log entry 25),
and the turns of the row make the steps (log entry 86). (3) R240: a turn of a row makes the first step left of its
oldest atomic, indivisible: the word takes the operation's result, and the lane returns what the word held; a bad word
is not written, and its parity error is due at the row's next boundary (R403); a range that holds the word holds the
step (R161). A producer completes only after its steps, whichever turns have made them (log entry 86). -/
def Obligations.AtomicResult : Prop :=
  (∀ (x b c : Word),
    atomNew .addI32 x b c = x + b ∧ atomNew .and x b c = x &&& b ∧ atomNew .or x b c = x ||| b ∧
    atomNew .xchg x b c = b ∧ atomNew .cas x b c = (if x = c then b else x) ∧
    (atomNew .minI32 x b c).toInt = min x.toInt b.toInt ∧ (atomNew .maxI32 x b c).toInt = max x.toInt b.toInt ∧
    atomNew .addF32 x b c = (addF32 x b).1) ∧
  (∀ (s : State) (r : RowId) (x : Row) (w : Band) (g : Nat → Band) (d a b p q o : Reg) (m : MReg) (ord : BitVec 2) (sc : Bool)
    (f : AtomOp) (e : Option Entry),
    let L := x.active w.laneW m
    let A (i : Nat) : Nat := (laneAt (vecValue x e q) i).toNat
    let B (i : Nat) : Word := laneAt (vecValue x e o) i
    let D (i : Nat) : Word := laneAt (vecValue x e p) i
    let t := flushPosted (s.setRow r (afterPop x e)) r
    let what (c : AtomOp) (b off : Nat → Nat) (i : Nat) : RemoteLane := ⟨b i + off i, BitVec.ofNat 64 (A i), some c, B i, D i⟩
    let D0 : List Reg := if f = .cas then [p] else []
    let ok : Prop := ord.getLsbD 1 = true → ∀ y, (flushPosted s r).row? r = some y → y.ctl.parityDue = none
    let idle (i : Instr) : Prop := L = 0 → exec i s = .next (completed (s.setRow r (afterPop x e)) r)
    let returns (h : Nat → Band) (off : Nat → Nat) (i : Instr) : Prop :=
      exec i s = .next (completed (t.modRow r (fun y => y.produce
        { dest := .vec p L zeroLanes
          todo := (maskLanes L).map (fun j => ⟨j, (h j).core, (h j).id, what f (fun k => (h k).wbase) off j⟩) })) r)
    let posts (c : AtomOp) (i : Instr) : Prop :=
      let l := (maskLanes L).map (fun j => ⟨(g j).core, (g j).id, [what c (fun k => (g k).wbase) (fun k => A k % 2 ^ 20) j]⟩)
      exec i s = .next (completed (t.modRow r (fun y => { y with posted := y.posted ++ l })) r)
    (Issues s r x w accRep false (fVec d) (fVec a) (fVec b) p q o → SourcesReady x ([q, o] ++ D0) e → x.vFull p = true →
        p.toNat < 28 →
      idle (.atom d a b m ord sc f) ∧ idle (.ratom d a b m ord true f) ∧
      (L ≠ 0 → ok → LocalClear s x w .update 4 (fun i => A i) L → WordsGood t (fun _ => w) (fun i => A i) L →
        returns (fun _ => w) A (.atom d a b m ord sc f))) ∧
    ((∀ i, L.getLsbD i = true → A i / 2 ^ 20 ≤ w.nb ∧ skeinBand s w (A i / 2 ^ 20) = some (g i) ∧ Band.gone s (g i) = false) →
      AccessClear s x w g (fun i => decide (A i / 2 ^ 20 = w.bandIx)) .update 4 (fun i => ((A i % 2 ^ 20 : Nat) : Int)) L → L ≠ 0 → ok →
      (Issues s r x w accRep false (fVec d) (fVec a) (fVec b) p q o → SourcesReady x ([q, o] ++ D0) e → x.vFull p = true →
          p.toNat < 28 →
        returns g (fun k => A k % 2 ^ 20) (.ratom d a b m ord true f)) ∧
      (f ≠ .cas → Issues s r x w accRep false fNone (fVec a) (fVec b) p q o → SourcesReady x [q, o] e →
        ∃ l : List Posted,
          exec (.ratom d a b m ord false f) s =
            .next (completed (t.modRow r (fun y => { y with posted := y.posted ++ l })) r) ∧
          l.map (fun k => (k.core, k.band)) = (maskLanes L).map (fun i => ((g i).core, (g i).id)) ∧
          l.map (fun k => k.lanes.map (fun j => (j.off, j.targ, j.op, j.b))) =
            (maskLanes L).map (fun i => [((g i).wbase + A i % 2 ^ 20, BitVec.ofNat 64 (A i), some f, B i)])) ∧
      (Issues s r x w accRep false (fVec d) (fVec a) (fVec b) p q o → SourcesReady x [q, o, p] e →
        posts .cas (.ratom d a b m ord false .cas))) ∧
    (L = 0 → (f ≠ .cas → Issues s r x w accRep false fNone (fVec a) (fVec b) p q o → SourcesReady x [q, o] e →
        idle (.ratom d a b m ord false f)) ∧
      (Issues s r x w accRep false (fVec d) (fVec a) (fVec b) p q o → SourcesReady x [q, o, p] e →
        idle (.ratom d a b m ord false .cas))) ∧
    (∀ (u : State) (y : Row) (k : Producer) (v : Lanes) (l : List AtomStep) (c : AtomStep),
      let key (j : AtomStep) : Nat := sideKey j.core.toNat j.what.off
      let new (z : State) (j : AtomStep) : State := rowStore4 z (key j) (match j.what.op with
        | some h => atomNew h (memWord z.mem (key j)) j.what.b j.what.c
        | none => j.what.b)
      u.row? r = some y → y.prods = [k] → k.dest = .vec p L v → k.todo = c :: l →
      (∀ j ∈ k.todo, u.badWord (key j) = false ∧ j.lane < 64) →
      (wordHold u c.word = none → ∃ v1 : Lanes,
        atomTurn u r = (new u c).setRow r { y with prods := [{ k with dest := .vec p L v1, todo := l }] } ∧
        ∀ i : Fin 64, v1[i] = if i.val = c.lane then memWord u.mem (key c) else v[i]) ∧
      (y.posted = [] → ∃ v1 : Lanes,
        flushPosted u r = (k.todo.foldl new u).setRow r { y with prods := [{ k with dest := .vec p L v1, todo := [] }] } ∧
        ∀ (i : Fin 64) (l1 l2 : List AtomStep) (j : AtomStep), k.todo = l1 ++ j :: l2 → j.lane = i.val → (∀ z ∈ l2, z.lane ≠ i.val) →
          v1[i] = memWord (l1.foldl new u).mem (key j)))) ∧
  (∀ (s : State) (r : RowId) (x : Row) (pre ps : List Producer) (p : Producer) (t : AtomStep) (l : List AtomStep),
    s.row? r = some x → x.prods = pre ++ p :: ps → (∀ q ∈ pre, q.todo = []) → p.todo = t :: l →
    let key := sideKey t.core.toNat t.what.off
    (wordHold s t.word ≠ none → atomTurn s r = s) ∧
    (∀ (d : Reg) (mk : Mask) (v : Lanes) (i : Fin 64) (f : AtomOp), p.dest = .vec d mk v → t.lane = i → t.what.op = some f →
      wordHold s t.word = none → s.badWord key = false →
      atomTurn s r = { s.setRow r { x with prods := pre ++
          { p with dest := .vec d mk (v.set i (memWord s.mem key)), todo := l } :: ps } with
        mem := memWrite s.mem key (leBytes 4 (atomNew f (memWord s.mem key) t.what.b t.what.c).toNat) }) ∧
    (x.status = .running → wordHold s t.word = none → s.badWord key = true → atomTurn s r = s.setRow r { x with
      prods := pre ++ { p with todo := l } :: ps
      ctl := { x.ctl with parityDue := some (x.ctl.parityDue.getD (6, t.what.targ)) } }) ∧
    (x.status = .running → wordsHold s x.stepWords = none →
      ∀ n : Nat, exec (.producerComplete r n) s = exec (.producerComplete r n) (atomTurn s r)) ∧
    (wordsHold s x.stepWords ≠ none → ∀ n : Nat, exec (.producerComplete r n) s = .next s))

/-- (1) R284, R286, R287: SHAPE answers the grant in sD and in the row's shape. A request with a reserved bit or
value, a stride that is no multiple of 8, or a pair of types that the mode does not have is refused with 0; a grant is
VALID, takes K, the types and the stride from the request, and cuts M to the band's height and N to its lanes; SRC and
TERMINAL follow the request and the OPEN flags of the row's ports. (2) R289, R290, R295: MLAT and MGAT take 8 bytes of
the window for each active lane in ascending order toward the latch; MWL takes a doubleword for each lane toward W.
They arrive at LATCH_FILL and MWL_ARRIVE; with no active lane none has an effect. That the row's posted writes are
performed first is the model's choice (log entry 25). -/
def Obligations.ShapeLatchResult : Prop :=
  (∀ (s : State) (r : RowId) (x : Row) (w : Band) (d a : Reg) (ta : Bool),
    Issues s r x w accMod false fNone fNone fNone 0 0 0 → StreamQuiet x → x.scalarReady a → x.sFull d = true →
    x.mx.idle = true → w.height ≤ 128 → 1 ≤ w.height → w.laneW ≤ 64 → 1 ≤ w.laneW →
    ∃ g : Dword,
      exec (.shape d a ta) s = .next (completed (s.setRow r ({ x with mx := { x.mx with shape := g } }.sset d g)) r) ∧
      (shapeRefused (x.sget a) = true → g = 0) ∧
      (shapeRefused (x.sget a) = false →
        tst g 58 = true ∧ fld g 63 62 = fld (x.sget a) 63 62 ∧ fld g 55 32 = fld (x.sget a) 55 32 ∧
        fld g 27 16 = fld (x.sget a) 27 16 ∧
        fld g 14 8 + 1 = min (fld (x.sget a) 14 8 + 1) w.height ∧ fld g 6 0 + 1 = min (fld (x.sget a) 6 0 + 1) w.laneW ∧
        (tst g 57 = true ↔ x.inBand.toNat < fld g 14 8 + 1) ∧
        fld g 61 60 = (if fld (x.sget a) 61 60 ≤ 1 then
            (if x.north.isOpen = false then 1 else if fld (x.sget a) 63 62 = 1 then 3 else 2)
          else fld (x.sget a) 61 60) ∧
        (tst g 59 = true ↔ x.south.isOpen = true ∨ fld (x.sget a) 59 58 = 2 ∨
          (fld (x.sget a) 59 58 = 0 ∧ x.inBand.toNat = fld g 14 8 ∧ fld g 14 8 + 1 < w.height)))) ∧
  (∀ (s : State) (r : RowId) (x : Row) (w : Band) (d b : Reg) (m : MReg) (n : BitVec 6) (e : Option Entry),
    let L := x.active w.laneW m
    let A := (x.sget b).toNat
    let f (i : Nat) : Int := ((A + 8 * n.toNat + 8 * i : Nat) : Int)
    let g (i : Nat) : Int :=
      ((A + 8 * n.toNat + 8 * i + fld x.mx.shape 47 32 * (laneAt (vecValue x e d) i).toNat : Nat) : Int)
    let done (t : State) (h : Nat → Int) : Out := .next (completed (t.modRow r (fun y => { y with mx := { y.mx with
      fly := y.mx.fly ++ [(maskLanes L).flatMap (fun i => memRead t.mem (winKey w (h i)) 8)] } })) r)
    Issues s r x w accMod false fNone fNone fNone 0 0 0 → x.scalarReady b →
    (L = 0 → exec (.mlat b m n) s = .next (completed s r) ∧
      (SourcesReady x [d] e → tst x.mx.shape 58 = true →
        exec (.mgat d b m n) s = .next (completed (s.setRow r (afterPop x e)) r)) ∧
      (StreamQuiet x → x.mx.idle = true → exec (.mwl b m n) s = .next (completed s r))) ∧
    (L ≠ 0 → x.mx.occupancy + 8 * (maskLanes L).length ≤ 8 * w.laneW →
      (LocalClear s x w .read 8 f L → WordsGood s (fun _ => w) f L → exec (.mlat b m n) s = done (flushPosted (s.setRow r x) r) f) ∧
      (SourcesReady x [d] e → tst x.mx.shape 58 = true → LocalClear s x w .read 8 g L → WordsGood s (fun _ => w) g L →
        exec (.mgat d b m n) s = done (flushPosted (s.setRow r (afterPop x e)) r) g)) ∧
    (L ≠ 0 → StreamQuiet x → x.mx.idle = true → LocalClear s x w .read 8 f L → WordsGood s (fun _ => w) f L →
      ∃ v : Entry,
        exec (.mwl b m n) s = .next (completed ((flushPosted s r).modRow r (fun y => { y with mx := { y.mx with
          mwl := y.mx.mwl ++ [(L, v)] } })) r) ∧
        ∀ j : Fin 64, L.getLsbD j = true → v[j] = memDword (flushPosted s r).mem (winKey w (f j))))

/-- (1) R280, R281, R287, R291: MMA, MWF and MWB issue a stream, which becomes the row's running or queued one and a
command of class MX; it keeps the grant, the side operands, its lanes below N' and no step made. That the row's posted
writes are performed first is the model's choice (log entry 25). (2) R322, R323: MMAS issues a sparse stream where the
descriptor names a row and elements of a well-formed card whose type is that of the latch operand, and whose masks
keep N of every M. -/
def Obligations.StreamIssue : Prop :=
  (∀ (s : State) (r : RowId) (x : Row) (w : Band) (a b : Reg) (m : MReg) (ta tb zp : Bool),
    Issues s r x w accMod false fNone fNone fNone 0 0 0 →
    let issues (i : Instr) (kind : StreamKind) (z : Bool) : Prop :=
      StreamReady s x w kind.mode a b →
      ∃ u : Stream,
        exec i s = .next (completed ((flushPosted s r).modRow r (fun y => y.startStream u)) r) ∧
        u.kind = kind ∧ some u.word = encode i ∧ u.zp = z ∧ u.grant = x.mx.shape ∧ (u.base, u.stride) = sideOf x w a b ∧
        u.lanes = x.active w.laneW m &&& laneMask (fld x.mx.shape 6 0 + 1) ∧ u.step = 0 ∧ u.starved = false ∧
        u.remaining = grantK x.mx.shape * (if grantAf x.mx.shape = .q16 then 1 else 2)
    issues (.mma a b m ta tb zp) .mma zp ∧ issues (.mwf a b m ta tb) .mwf false ∧ issues (.mwb a b m ta tb) .mwb false) ∧
  (∀ (s t : State) (r : RowId) (x y : Row) (w : Band) (d a b : Reg) (m : MReg) (ta tb zp : Bool) (hd : List Byte),
    Issues s r x w accMod false fNone fNone fNone 0 0 0 → StreamReady s x w 0 a b → x.scalarReady d →
    t = flushPosted s r → t.row? r = some y →
    let g := x.mx.shape
    let D := x.sget d
    let off := fld D 19 0
    let k := cardOf hd
    let kpe := perEntry (grantBf g)
    let g0 := fld D 47 32 * k.perRow + fld D 63 48 * kpe / k.m
    let n := grantK g * kpe / k.m
    let lo := off + k.moff + (if k.m = 4 then g0 / 2 else g0)
    let hi := off + k.moff + (if k.m = 4 then (g0 + n - 1) / 2 + 1 else g0 + n)
    let md := memRead t.mem (winKey w (lo : Nat)) (hi - lo)
    let masks := (List.range n).map (fun i => metaMask k.m md (if k.m = 4 then g0 % 2 + i else i))
    fld D 31 20 = 0 → CardAt t y w off hd →
    k.ty = grantAf g → ¬ (k.e = 2 ∧ k.m = 8) → fld D 47 32 < k.rop → (fld D 63 48 + grantK g) * kpe ≤ k.kop →
    hi ≤ w.wsize → RangeClear t y w .read lo (hi - lo) → (∀ v ∈ masks, countBits v k.m = k.n) →
    ∃ u : Stream,
      exec (.mmas d a b m ta tb zp) s = .next (completed (t.setRow r (y.startStream u)) r) ∧
      u.kind = .mmas ∧ u.zp = zp ∧ u.grant = g ∧ (u.base, u.stride) = sideOf x w a b ∧ u.card = D ∧ u.cardBytes = hd ∧
      u.masks = masks ∧ u.lanes = x.active w.laneW m &&& laneMask (fld g 6 0 + 1) ∧ u.step = 0 ∧ u.starved = false ∧
      u.remaining = grantK g * ((2 * k.n + k.m - 1) / k.m))

/-- R305 to R309: what clears, scales, drains and moves the accumulators. MSCA and MDRN complete at MSCA_COMPLETE and
PRODUCER_COMPLETE. The values of a lane of MDRN at the end are the worked examples of R90. -/
def Obligations.AccumulatorResult : Prop :=
  ∀ (s : State) (r : RowId) (x : Row) (w : Band) (d a b : Reg) (m : MReg) (ta tb : Bool) (f : TyCode) (c : BitVec 4)
    (e : Option Entry),
    Issues s r x w accMod false fNone fNone fNone 0 0 0 → StreamQuiet x →
    let L := x.active w.laneW m
    let G := L &&& laneMask (fld x.mx.shape 6 0 + 1)
    let row (y : Row) : Out := .next (completed (s.setRow r y) r)
    let shape : Prop := tst x.mx.shape 58 = true ∧ tst x.mx.shape 57 = true
    let drain (y : Row) (src : Lanes) : Out := row (y.produce
      { dest := .vec d G (src.map (fun v => (mdrnLane f (modBit x.hints 20) v ((x.sget a).setWidth 32)
          ((x.sget b).setWidth 32) ((x.sget b).extractLsb' 32 32)).1))
        raises := true
        fl := laneFlags G (fun i => (mdrnLane f (modBit x.hints 20) src[i.val] ((x.sget a).setWidth 32)
          ((x.sget b).setWidth 32) ((x.sget b).extractLsb' 32 32)).2)
        fold := true })
    (x.mx.idle = true →
      (c.getLsbD 3 = true → x.mx.fly = []) →
      exec (.mclr m c) s = row { x with
        mx := { x.mx with
          p := if c.getLsbD 0 then mergeLanes L zeroLanes x.mx.p else x.mx.p
          pbad := if c.getLsbD 0 then x.mx.pbad &&& ~~~L else x.mx.pbad
          a := if c.getLsbD 1 then mergeLanes L zeroLanes x.mx.a else x.mx.a
          abad := if c.getLsbD 1 then x.mx.abad &&& ~~~L else x.mx.abad
          rq := if c.getLsbD 2 then [] else x.mx.rq
          rqBad := if c.getLsbD 2 then [] else x.mx.rqBad
          latch := if c.getLsbD 3 then [] else x.mx.latch
          latchBad := if c.getLsbD 3 then [] else x.mx.latchBad } }) ∧
    (x.mx.idle = true → x.scalarReady a → SourcesReady x [b] e → shape → fld x.mx.shape 63 62 = 0 →
      (x.mx.pbad ||| x.mx.abad) &&& G = 0 →
      exec (.msca a b m ta tb) s = row { afterPop x e with mx := { x.mx with
        msca := some ⟨G, (x.sget a).setWidth 32, vecValue x e b⟩ } }) ∧
    (x.scalarReady a → x.scalarReady b → x.vFull d = true → shape →
      (fld x.mx.shape 63 62 = 0 → x.mx.idle = true → x.mx.abad &&& G = 0 → exec (.mdrn d a b m ta tb f) s = drain x x.mx.a) ∧
      (∀ (q : Lanes) (l : List Lanes), fld x.mx.shape 63 62 ≠ 0 → x.mx.rq = q :: l → 0 ∉ x.mx.rqBad →
        exec (.mdrn d a b m ta tb f) s = drain { x with mx := { x.mx with rq := l, rqBad := x.mx.rqBad.map (fun i => i - 1) } } q)) ∧
    (x.mx.idle = true → destReady s x d →
      (x.mx.pbad &&& L = 0 → exec (.mmovpGP d m) s = .next (completed (writeVec s r x d L x.mx.p) r)) ∧
      (x.mx.abad &&& L = 0 → exec (.mmovpGA d m) s = .next (completed (writeVec s r x d L x.mx.a) r))) ∧
    (x.mx.idle = true → SourcesReady x [a] e →
      exec (.mmovpSP a m ta) s = row { afterPop x e with
        mx := { x.mx with p := mergeLanes L (vecValue x e a) x.mx.p, pbad := x.mx.pbad &&& ~~~L } } ∧
      exec (.mmovpSA a m ta) s = row { afterPop x e with
        mx := { x.mx with a := mergeLanes L (vecValue x e a) x.mx.a, abad := x.mx.abad &&& ~~~L } }) ∧
    mdrnLane .e4m3 false 0x41580000 0x3F800000 0xFF800000 0x7F800000 = (0x56, 1) ∧
    mdrnLane .e4m3 true 0x447A0000 0x3F000000 0xFF800000 0x7F800000 = (0x7E, 5) ∧
    mdrnLane .e4m3 false 0x447A0000 0x3F000000 0xFF800000 0x7F800000 = (0x7F, 5)

/-- (1) R314 to R321: CARDCK answers the summary of a well-formed card; MPACK prunes a dense operand into a card's
metadata and values and answers its NaNs and ties; MUNPK writes the dense operand of a card. Each runs whole, once the
row's posted writes are performed: the model's choices (log entries 25 and 89). (2) R312, R316, R318, R319, R325,
R330, R331: values. The summary by its bits; the places of the masks, two of 4 bits in a byte or one of 8; the
prunings of R318's and of R325's examples, and of two blocks under TFLAG, all elements equal and a heavier diagonal;
the codes, indices and super-scale of R331's example. (3) R329 to R331: QPACK quantises blocks of 64 words to a scale
code and 64 four-bit indices each, answers the super-scale, and raises INVALID where an element is a NaN. It runs
whole, once the row's posted writes are performed: the model's choices (log entries 25 and 89). -/
def Obligations.CardResult : Prop :=
  (∀ (s t : State) (r : RowId) (x y : Row) (w : Band) (d a b : Reg) (ta tb : Bool) (hd : List Byte) (off : Nat) (masks : List Nat),
    Issues s r x w accMod false fNone fNone fNone 0 0 0 → postedHold s x = none → t = flushPosted s r → t.row? r = some y →
    x.scalarReady a → CardAt t y w off hd →
    let k := cardOf hd
    let A := x.sget a
    let B := x.sget b
    (x.sFull d = true → A.toNat = off → off < 2 ^ 20 → CardMasks t y w off k masks →
      exec (.cardck d a ta) s = .next (completed (t.setRow r (y.sset d (cardSummary k))) r)) ∧
    (x.scalarReady b → B.toNat = off → off < 2 ^ 20 → A.toNat &&& 0xFFF00000FFF00000 = 0 →
      let base := fld A 19 0
      let str := fld A 51 32
      DenseFits w k off base str →
      (x.sFull d = true → (∀ i, i < k.rop → RangeClear t y w .read (base + i * str) (k.kop * k.e)) →
        RangeClear t y w .write (off + k.moff) k.mb → RangeClear t y w .write (off + k.voff) k.vb →
        let rows := (List.range k.rop).map (fun i => memRead t.mem (winKey w (base + i * str : Nat)) (k.kop * k.e))
        let elem (i j : Nat) : List Byte := ((rows.getD i []).drop (j * k.e)).take k.e
        let u := sideWrite (sideWrite t w (off + k.moff) (packMasks k.m (k.prune elem).1)) w (off + k.voff)
          (k.packValues (k.prune elem).1 elem)
        exec (.mpack d a b ta tb) s =
          .next (completed (u.setRow r (y.sset d (dw (k.nanCount elem * 2 ^ 32 + (k.prune elem).2)))) r)) ∧
      (CardMasks t y w off k masks → RangeClear t y w .read (off + k.voff) k.vb →
        (∀ i, i < k.rop → RangeClear t y w .write (base + i * str) (k.kop * k.e)) →
        let vals := memRead t.mem (winKey w (off + k.voff : Nat)) k.vb
        exec (.munpk a b ta tb) s = .next (completed ((List.range k.rop).foldl (fun v i =>
          sideWrite v w (base + i * str) ((List.range k.kop).flatMap (fun j => k.element masks vals i j))) t) r)))) ∧
  ((∀ k : Card, k.m = 4 ∨ k.m = 8 → 1 ≤ k.n → k.n ≤ k.m → k.vfmt < 16 → k.extent < 2 ^ 32 →
    let v := cardSummary k
    fld v 63 32 = k.extent ∧ fld v 31 20 = 0 ∧ fld v 19 16 * k.m < 2 * k.n + k.m ∧ 2 * k.n ≤ fld v 19 16 * k.m ∧
    fld v 15 12 = k.vfmt ∧ fld v 11 10 = 0 ∧ tst v 9 = k.tflag ∧ tst v 8 = k.orient ∧ fld v 7 4 = k.m ∧ fld v 3 0 = k.n) ∧
  (∀ l : List Nat, packMasks 8 l = l.map (BitVec.ofNat 8) ∧
    ((∀ q ∈ l, q < 16) → (packMasks 4 l).length = (l.length + 1) / 2 ∧
      ∀ j, j < 2 * ((l.length + 1) / 2) → ((packMasks 4 l).getD (j / 2) 0).toNat / 16 ^ (j % 2) % 16 = l.getD j 0)) ∧
  (let half : Card := ⟨0x5CA7, 1, 2, 4, false, false, 0x9, 1, 4, 0, 40, 32⟩
   let f (_ j : Nat) : List Byte := leBytes 2 ([0x3C00, 0xC200, 0x7E00, 0x4200].getD j 0)
   half.ty = .f16 ∧ half.prune f = ([6], 1) ∧ half.nanCount f = 1 ∧ half.packValues [6] f = [0x00, 0xC2, 0x00, 0x7E]) ∧
  (let fp8 : Card := ⟨0x5CA7, 1, 2, 4, false, false, 0xB, 1, 8, 0, 40, 32⟩
   let f (_ j : Nat) : List Byte := [[0x44, 0, 0, 0xC0, 0, 0x38, 0x30, 0].getD j 0]
   fp8.ty = .e4m3 ∧ fp8.prune f = ([9, 6], 0) ∧ packMasks 4 [9, 6] = [0x69] ∧ fp8.packValues [9, 6] f = [0x44, 0xC0, 0x38, 0x30] ∧
     ∀ j, j < 8 → fp8.element [9, 6] [0x44, 0xC0, 0x38, 0x30] 0 j = f 0 j) ∧
  (let block : Card := ⟨0x5CA7, 1, 1, 4, false, true, 0x4, 4, 4, 0, 40, 32⟩
   block.prune (fun _ _ => [1]) = ([1, 2, 4, 8], 1) ∧
   block.prune (fun i j => [if i + j = 3 then 2 else 1]) = ([8, 4, 2, 1], 0)) ∧
  (let x : List Word := [0x42C80000, 0xC3480000, 0x40400000, 0xBFC00000, 0x3F000000, 0x40200000, 0x3E200000, 0x7FC00000] ++
     List.replicate 56 0
   quantise 12 [x] = ([0xFF], [0x0F, 0x3E, 0xD9, 0x77] ++ List.replicate 28 0x77, 0x40800000, true) ∧
   (quantise 0 [x]).2.2.1 = 0x7F000000)) ∧
  (∀ (s t : State) (r : RowId) (x y : Row) (w : Band) (d a b : Reg) (ta tb : Bool),
    Issues s r x w accMod false fNone fNone fNone 0 0 0 → postedHold s x = none → t = flushPosted s r → t.row? r = some y →
    x.scalarReady a → x.scalarReady b → x.sFull d = true →
    let A := x.sget a
    let B := x.sget b
    let nb := fld A 39 32 + 1
    let src := fld A 19 0
    let code := fld B 51 32
    let idx := fld B 19 0
    A.toNat &&& 0x00FFFF00FFF00000 = 0 → B.toNat &&& 0xFFF00000FFF00000 = 0 → src % 4 = 0 → idx % 8 = 0 →
    src + 256 * nb ≤ w.wsize → code + nb ≤ w.wsize → idx + 32 * nb ≤ w.wsize →
    (src + 256 * nb ≤ code ∨ code + nb ≤ src) → (src + 256 * nb ≤ idx ∨ idx + 32 * nb ≤ src) →
    (code + nb ≤ idx ∨ idx + 32 * nb ≤ code) →
    RangeClear t y w .read src (256 * nb) → RangeClear t y w .write code nb → RangeClear t y w .write idx (32 * nb) →
    let words : List Word := (List.range (64 * nb)).map (fun i => memWord t.mem (winKey w (src + 4 * i : Nat)))
    let q := quantise (fld A 63 56) (blocks64 words nb)
    exec (.qpack d a b ta tb) s = .next (completed
      ((sideWrite (sideWrite t w code q.1) w idx q.2.1).setRow r
        ((y.raise (if q.2.2.2 then flInvalid else 0)).sset d q.2.2.1)) r))

/-- (1) R145, R146, R149 to R161: SHCP, SHSET and SHTR whose checks pass enter the shuttle's queue with their ranges
in the scoreboards; a failed check retires the command at once with its status. That such a command takes no range,
and so needs no room for one, is the model's choice (log entry 50). (2) R149, R151, R153 to R156: the checks of a
shuttle command: RANGE where its group, its size, its alignment, the rows of its destination or the extents of its
operands fail, before PERMISSION where an operand is not wholly inside a window of the launch. Of a sparse SHTR the
group, the alignments and the place of its operands are checked before its card is read (log entry 56). -/
def Obligations.ShuttleIssue : Prop :=
  (∀ (s t : State) (r : RowId) (x y : Row) (w : Band) (d a b : Reg) (bar d3 ex : Bool) (z : BitVec 2),
    t = flushPosted s r → EngineReady s r x y w .sh d → groupReady x a 4 →
    let g := r.core
    let issues (i : Instr) (B : Dword) (check : Cmd → Option Byte) (rg : Cmd → List SbRange) : Prop :=
      let k0 := issuedCmd t r x w .sh i a B [] []
      let k := issuedCmd t r x w .sh i a B [] (rg k0)
      (check k0 = none → sbRoom t (rg k0) = true → exec i s = .next (completed (entered t r y w d k) r)) ∧
      (∀ st, check k0 = some st → sbRoom t [] = true →
        exec i s = .next (completed (retireCmd (entered t r y w d k0) k0 st 0) r))
    let copyRanges (k : Cmd) := operandRange g true (k.op 0) k.copyDstLen ++ operandRange g false (k.op 1) k.copySrcLen
    let fillRanges (k : Cmd) := operandRange g true (k.op 0) k.copyDstLen
    (Issues s r x w accSchd false (fSca d) (fSca a) (if d3 then fSca b else fNone) d a (if d3 then b else 0) →
      (d3 = true → x.scalarReady b) →
      let B : Dword := if d3 then x.sget b else 0
      issues (.shcp d a b bar d3) B (copyCheck t) copyRanges ∧ issues (.shset d a b z bar d3) B (copyCheck t) fillRanges) ∧
    (Issues s r x w accSchd false (fSca d) (fSca a) fNone d a 0 →
      issues (.shtr d a ex bar false) 0 (trCheck t)
        (fun k => operandRange g true (k.op 0) k.trDstLen ++ operandRange g false (k.op 1) k.trSrcLen) ∧
      issues (.shtr d a ex bar true) 0 (spCheck t)
        (fun k => operandRange g true (k.op 0) (toWindowEnd t k.launch g (k.op 0))
          ++ operandRange g false (k.op 1) (toWindowEnd t k.launch g (k.op 1))))) ∧
  (∀ (s : State) (k : Cmd) (d a b : Reg) (bar d3 ex : Bool) (z : BitVec 2),
    let answers (check : Option Byte) (range permission : Prop) : Prop :=
      (range → check = some 0x44) ∧ (¬ range → permission → check = some 0x42) ∧ (¬ range → ¬ permission → check = none)
    let dst := resolveTag k.core (k.op 0)
    let src := resolveTag k.core (k.op 1)
    let meet (m n : Nat) : Prop := lqaInst dst = lqaInst src ∧ lqaOff dst < lqaOff src + n ∧ lqaOff src < lqaOff dst + m
    let out (i n : Nat) : Prop := outsideWindow s k.core k.launch (k.op i) n = true
    let odd (e : Nat) (l : List Nat) : Prop := ∃ v ∈ l, v % e ≠ 0
    let A := (k.op 0).toNat
    let S := (k.op 1).toNat
    let O := k.op 2
    let drs := fld (k.op 3) 63 32
    let srs := fld (k.op 3) 31 0
    let dps := if d3 then fld k.b 63 32 else 0
    let sps := if d3 then fld k.b 31 0 else 0
    let P := fld O 55 40 + 1
    let R := fld O 39 24 + 1
    let B := fld O 23 0 + 1
    let dlen := (P - 1) * dps + (R - 1) * drs + B
    let slen := (P - 1) * sps + (R - 1) * srs + B
    let common : Prop := fld O 63 62 ≠ 0 ∨ (d3 = false ∧ P ≠ 1) ∨ 2 ^ 24 < B * R * P ∨ odd 4 [A, B, drs, dps] ∨
      (1 < R ∧ drs < B) ∨ (1 < P ∧ dps < (R - 1) * drs + B)
    let e := 2 ^ fld O 33 32
    let r := fld O 15 0 + 1
    let c := fld O 31 16 + 1
    (k.instr = .shcp d a b bar d3 →
      answers (copyCheck s k) (common ∨ odd 4 [S, srs, sps] ∨ meet dlen slen) (out 0 dlen ∨ out 1 slen)) ∧
    (k.instr = .shset d a b z bar d3 →
      answers (copyCheck s k) (common ∨ srs ≠ 0 ∨ sps ≠ 0 ∨ B % 2 ^ z.toNat ≠ 0) (out 0 dlen)) ∧
    (k.instr = .shtr d a ex bar false → (∃ q, k.src = .row q) →
      answers (trCheck s k)
        (fld O 63 62 ≠ 0 ∨ fld O 55 34 ≠ 0 ∨ 2 ^ 24 < r * c * e ∨ odd e [A, S, drs, srs] ∨ (1 < c ∧ drs < r * e) ∨
          meet ((c - 1) * drs + r * e) ((r - 1) * srs + c * e))
        (out 0 ((c - 1) * drs + r * e) ∨ out 1 ((r - 1) * srs + c * e))) ∧
    (k.instr = .shtr d a ex bar true →
      answers (spCheck s k) (fld O 63 62 ≠ 0 ∨ fld O 55 0 ≠ 0 ∨ srs ≠ 0 ∨ odd 64 [A, S]) (out 0 1 ∨ out 1 1)))

/-- (1) R171 to R177: GATH, SCAT and SRED whose checks pass enter the gather-scatter queue, with the indices of the
register pair or of the list in the window; an index whose bytes are uncorrectable is the model's 2^64 (log entry 53).
A command that fails its checks retires at once with RANGE, and writes its fault vector with every bit set where the
vector's own range passes (log entry 46). (2) R171, R172, R174: the checks of a gather-scatter command, and the status
of a failed one; w is the window's size and lw the lane width. -/
def Obligations.GatherScatterIssue : Prop :=
  (∀ (s t : State) (r : RowId) (x y : Row) (w : Band) (d a b : Reg) (bar ixr ord : Bool) (p : SredOp),
    Issues s r x w accSchd false (fSca d) (fSca a) (if ixr then fVec b else fNone) d a (if ixr then b else 0) →
    t = flushPosted s r → EngineReady s r x y w .gs d → groupReady x a 4 →
    (ixr = true → x.vectorReady b ∧ x.vectorReady (b + 1)) →
    let k0 (i : Instr) : Cmd := issuedCmd t r x w .gs i a 0 [] []
    let index (k : Cmd) (j : Nat) : Nat :=
      if ixr then
        (if tst (k.op 2) 11 then (laneAt (x.vget (b + 1)) j).toNat * 2 ^ 32 + (laneAt (x.vget b) j).toNat
         else if j < w.laneW then (laneAt (x.vget b) j).toNat else (laneAt (x.vget (b + 1)) (j - w.laneW)).toNat)
      else
        let key := winKey w (k.ixOff + j * k.ixSize : Nat)
        if t.badWords.any (fun v => decide (key < 8 * v + 8) && decide (8 * v < key + k.ixSize)) then 2 ^ 64
        else leNat (memRead t.mem key k.ixSize)
    let cmd (i : Instr) : Cmd :=
      issuedCmd t r x w .gs i a 0 ((List.range (k0 i).count).map (index (k0 i))) (gsRanges (k0 i) w.wbase)
    let passes (i : Instr) : Prop := gsCheck (k0 i) w.wsize w.laneW = none ∧ sbRoom t (gsRanges (k0 i) w.wbase) = true
    let fails (i : Instr) : Prop := gsCheck (k0 i) w.wsize w.laneW = some 0x44 ∧ sbRoom t [] = true
    let rejected (i : Instr) : Prop :=
      let v := retireCmd (entered t r y w d (k0 i)) (k0 i) 0x44 0
      exec i s = .next (completed (if (k0 i).statOff % 8 = 0 ∧ (k0 i).statOff + (k0 i).statLen ≤ w.wsize
        then placeWrite v (cmdPlace v (k0 i) (k0 i).statOff) (leBytes (k0 i).statLen (2 ^ (k0 i).count - 1)) else v) r)
    (passes (.gath d a b bar ixr) →
      exec (.gath d a b bar ixr) s = .next (completed (entered t r y w d (cmd (.gath d a b bar ixr))) r)) ∧
    (passes (.scat d a b bar ixr) →
      exec (.scat d a b bar ixr) s = .next (completed (entered t r y w d (cmd (.scat d a b bar ixr))) r)) ∧
    (passes (.sred d a b p ord bar ixr) →
      exec (.sred d a b p ord bar ixr) s = .next (completed (entered t r y w d (cmd (.sred d a b p ord bar ixr))) r)) ∧
    (fails (.gath d a b bar ixr) → rejected (.gath d a b bar ixr)) ∧
    (fails (.scat d a b bar ixr) → rejected (.scat d a b bar ixr)) ∧
    (fails (.sred d a b p ord bar ixr) → rejected (.sred d a b p ord bar ixr))) ∧
  (∀ (k : Cmd) (w lw : Nat),
    let n := k.count
    let len := n * k.esz
    let apart (a m b l : Nat) : Prop := a + m ≤ b ∨ b + l ≤ a
    (gsCheck k w lw = none ∨ gsCheck k w lw = some 0x44) ∧
    (gsCheck k w lw = none ↔
      (fld (k.op 1) 63 52 = 0 ∧ fld (k.op 1) 31 20 = 0 ∧ fld (k.op 2) 63 62 = 0 ∧ fld (k.op 2) 55 52 = 0 ∧
        fld (k.op 2) 31 22 = 0 ∧ fld (k.op 2) 10 8 = 0 ∧ fld (k.op 3) 31 0 = 0 ∧ (k.ixr = true → k.ixOff = 0)) ∧
      (fld (k.op 0) 63 61 = 0 ∧ (k.op 0).toNat % 4 = 0 ∧ fld (k.op 3) 63 32 % 4 = 0) ∧
      (k.ixr = true → n ≤ if tst (k.op 2) 11 then lw else 2 * lw) ∧
      (k.dataOff % 4 = 0 ∧ k.dataOff + len ≤ w ∧ k.statOff % 8 = 0 ∧ k.statOff + k.statLen ≤ w ∧
        (k.ixr = false → k.ixOff % k.ixSize = 0 ∧ k.ixOff + n * k.ixSize ≤ w)) ∧
      apart k.statOff k.statLen k.dataOff len ∧
      (k.ixr = false → apart k.statOff k.statLen k.ixOff (n * k.ixSize)) ∧
      (k.isGath = true → k.ixr = false → apart k.dataOff len k.ixOff (n * k.ixSize))))

/-- (1) R190 to R192: WKST whose checks pass enters its walker's queue, where the queue has room and no other row of
the core began to wait for it earlier; one that fails them retires at once with RANGE, with its status record where
that may be written, and a fault release of its slot (log entry 94 says which of its checks are those of the record).
(2) R122, R190, R191: the checks of WKST: RANGE, or none. The argument block is aligned, in the window and apart from
the status record, as the model reads it (log entry 94). (3) R437 to R443: NPUT, NGET, NSIG and NRED whose checks pass
enter the network queue; NSIG acts first as a fence (R443), NRED begins with nothing received (R442) and its first
advance. A failed check retires the command at once. (4) R121, R123, R435, R438, R439, R441 to R443: the checks of a
network command, in order: RANGE where its group or an alignment fails; of a local operand RANGE for tags 100 and 101
or an address that R121 does not allow, PERMISSION where it is outside the windows of the launch; LINK where the
device cannot be reached; of NRED RANGE where its group is not enabled. An unreachable device that fails at the start,
and the order of the local operand's checks, are the model's readings (log entry 54). -/
def Obligations.WalkNetworkIssue : Prop :=
  (∀ (s t : State) (r : RowId) (x y : Row) (w : Band) (d a : Reg) (rl bar : Bool),
    Issues s r x w accSchd false (fSca d) (fSca a) fNone d a 0 → groupReady x a 4 →
    x.isLead w = true → x.sFull d = true → classRoom s w .wk = true → walkBehind s r = false → postedHold s x = none →
    t = flushPosted (s.modCore r.core (fun k => { k with walkQ := k.walkQ.filter (fun q => q != r) })) r →
    t.row? r = some y → y.ctl.parityDue = none →
    let i := Instr.wkst d a rl bar
    let k0 := issuedCmd t r x w .wk i a 0 [] []
    let sb := [wideRange r.core false (w.wbase + k0.argsOff) (w.wbase + k0.argsOff + 64),
      wideRange r.core true (w.wbase + k0.walkStat) (w.wbase + k0.walkStat + 32)]
    let k := issuedCmd t r x w .wk i a 0 [] sb
    (walkCheck k0 w.wsize = none → sbRoom t sb = true →
      exec i s = .next (completed ((entered t r y w d k).modWalker (clusterOf r.core)
        (fun v => { v with queue := v.queue ++ [k.id] })) r)) ∧
    (walkCheck k0 w.wsize = some 0x44 → sbRoom t [] = true →
      exec i s = .next (completed (walkReject (retireCmd (entered t r y w d k0) k0 0x44 0) k0 w.wsize) r)) ∧
    (walkCheck k0 w.wsize = none ∨ walkCheck k0 w.wsize = some 0x44)) ∧
  (∀ (k : Cmd) (w : Nat),
    let args := fld (k.op 1) 19 0
    let stat := fld (k.op 3) 19 0
    (walkCheck k w = none ∨ walkCheck k w = some 0x44) ∧
    (walkCheck k w = none ↔
      (fld (k.op 1) 63 44 = 0 ∧ fld (k.op 1) 31 20 = 0 ∧ fld (k.op 2) 63 62 = 0 ∧ fld (k.op 2) 55 12 = 0 ∧ fld (k.op 3) 63 20 = 0) ∧
      (fld (k.op 0) 63 61 = 0 ∨ fld (k.op 0) 63 61 = 1 ∨ fld (k.op 0) 63 61 = 2 ∨ fld (k.op 0) 63 61 = 6) ∧
      fld (k.op 0) 5 0 = 0 ∧ args % 64 = 0 ∧ args + 64 ≤ w ∧ stat % 32 = 0 ∧ stat + 32 ≤ w ∧
      (args + 64 ≤ stat ∨ stat + 32 ≤ args) ∧ fld (k.op 2) 11 0 ≤ fld (k.op 1) 43 32)) ∧
  (∀ (s t : State) (r : RowId) (x y : Row) (w : Band) (d a : Reg) (bar st : Bool) (p : SredOp),
    Issues s r x w accSchd false (fSca d) (fSca a) fNone d a 0 → t = flushPosted s r → EngineReady s r x y w .nw d →
    let issues (i : Instr) (after : State → Cmd → State) : Prop :=
      let k0 := issuedCmd t r x w .nw i a 0 [] []
      let k := issuedCmd t r x w .nw i a 0 [] (netRanges k0 w.wbase)
      (netCheck t k0 w.wsize = none → sbRoom t (netRanges k0 w.wbase) = true →
        exec i s = .next (completed (after (entered t r y w d k) k) r)) ∧
      (∀ f, netCheck t k0 w.wsize = some f → sbRoom t [] = true →
        exec i s = .next (completed (retireCmd (entered t r y w d k0) k0 f 0) r))
    (groupReady x a 4 →
      issues (.nput d a) (fun u _ => u) ∧ issues (.nget d a bar) (fun u _ => u) ∧
      issues (.nred d a p) (fun u k =>
        nredAdvance { u with net := { u.net with nred := u.net.nred ++ [⟨k.id, none, none, false⟩] } } k p)) ∧
    (groupReady x a 3 → Undisturbed x → issues (.nsig d a st) (fun u _ => u))) ∧
  (∀ (s : State) (k : Cmd) (w : Nat) (d a : Reg) (bar st : Bool) (p : SredOp),
    let O := k.op 2
    let n := fld O 23 0 + 1
    let dev : BitVec 12 := O.extractLsb' 48 12
    let away : Prop := dev ≠ s.net.devid ∧ ∀ m, m < 12 → (s.net.route.find? (fun r => r.1 == dev.toNat)).map (fun r => r.2.toNat) ≠ some m
    let bad (i : Nat) : Prop := 4 ≤ fld (resolveTag k.core (k.op i)) 63 61 ∨ tagOk (resolveTag k.core (k.op i)) n = false
    let out (i : Nat) : Prop := outsideWindow s k.core k.launch (k.op i) n = true
    let answers (range permission link : Prop) : Prop :=
      (range → netCheck s k w = some 0x44) ∧ (¬ range → permission → netCheck s k w = some 0x42) ∧
      (¬ range → ¬ permission → link → netCheck s k w = some 0x46) ∧ (¬ range → ¬ permission → ¬ link → netCheck s k w = none)
    let far : Prop := fld O 63 60 ≠ 0 ∨ fld O 47 42 ≠ 0
    let odd : Prop := (k.op 0).toNat % 4 ≠ 0 ∨ (k.op 1).toNat % 4 ≠ 0 ∨ n % 4 ≠ 0
    (k.instr = .nput d a →
      answers (far ∨ fld O 39 24 ≠ 0 ∨ fld (k.op 1) 63 52 ≠ 0 ∨ fld (k.op 3) 63 52 ≠ 0 ∨ odd ∨ (k.op 3).toNat % 8 ≠ 0 ∨ bad 0)
        (out 0) away) ∧
    (k.instr = .nget d a bar →
      answers (far ∨ fld O 39 24 ≠ 0 ∨ fld (k.op 1) 63 52 ≠ 0 ∨ fld (k.op 3) 63 62 ≠ 0 ∨ fld (k.op 3) 55 0 ≠ 0 ∨ odd ∨ bad 0)
        (out 0) away) ∧
    (k.instr = .nsig d a st → answers (far ∨ fld O 39 0 ≠ 0 ∨ slotAddrOk (k.op 0) = false) False away) ∧
    (k.instr = .nred d a p →
      let off := fld (k.op 3) 19 0
      let group := s.net.grp0[fld O 63 60]?.getD 0
      let range : Prop := fld O 59 48 ≠ 0 ∨ fld O 31 24 ≠ 0 ∨ fld (k.op 3) 63 20 ≠ 0 ∨ odd ∨ off % 8 ≠ 0 ∨ w < off + 8
      (range ∨ bad 0 → netCheck s k w = some 0x44) ∧
      (¬ range → ¬ bad 0 → (out 0 → netCheck s k w = some 0x42) ∧
        (¬ out 0 → (bad 1 → netCheck s k w = some 0x44) ∧ (¬ bad 1 → out 1 → netCheck s k w = some 0x42) ∧
          (¬ bad 1 → ¬ out 1 → netCheck s k w = if tst group 31 then none else some 0x44)))))

/-- R164 to R166, R385: SEAL closes the open commands of a class as its next batch and answers its number; WAIT marks
sD empty and waits until at most N sealed batches are outstanding, then answers the fault summary of the batches
completed since the last one; a WAIT of class MX is held while a pace change of its cluster is pending; WSTAT answers
a batch's record, and is a producer; that the record is the one at issue is the model's choice (log entry 21). -/
def Obligations.BatchResult : Prop :=
  ∀ (s : State) (r : RowId) (x : Row) (w : Band) (d a : Reg) (c : BClass) (n : BitVec 4) (ad : Bool),
    let k := x.clsOf c
    (Issues s r x w accSchd false (fSca d) fNone fNone d 0 0 →
      (x.sFull d = true → k.outstanding < 8 →
        exec (.seal d c) s = .next (completed (sealClass (s.setRow r (x.sset d (BitVec.ofNat 64 (k.counter + 1)))) r c) r)) ∧
      (x.sFull d = true → 8 ≤ k.outstanding → exec (.seal d c) s = .next (s.setRow r (waitAt s r x 8 .v))) ∧
      (Undisturbed x → (c = .mx → StreamQuiet x) →
        (∀ q ∈ x.prods, ∀ v, q.dest = .sca d v → x.sFull d = true) →
        let free : Prop := k.outstanding ≤ n.toNat ∧ (c = .mx → paceBusy s (clusterOf r.core) = false)
        (free → exec (.wait d c n) s = .next (completed (s.setRow r
            (((x.sset d (k.summary.setWidth 64)).markS d true).modCls c ClassState.cover)) r)) ∧
        (¬ free → exec (.wait d c n) s =
            .next ((s.setRow r (x.markS d false)).modRow r (fun y => waitAt (s.setRow r (x.markS d false)) r y 8 (classDom c)))))) ∧
    (Issues s r x w accSchd false (fSca d) (fSca a) fNone d a 0 → x.scalarReady a → x.sFull d = true →
      exec (.wstat d a c ad) s = .next (completed (s.setRow r
        (x.produce { dest := .sca d (k.wstat (x.sget a).toNat ad) })) r))

/-- (1) R374: BINIT gives a slot that has no owner, or the row's launch, a new generation, this owner, the
configuration of its operand and phase 0 with status OK; BINV gives a slot of the launch a new generation, no owner
and phase 0. A row that waits at the slot by a token of the old generation is released, with BARRIER_RESET after BINIT
and BARRIER_INVALID after BINV. The configuration that BINV leaves is the model's choice (log entry 41). (2) R239,
R374: BARX counts an arrival, once the row's posted writes are performed, and answers the token of the phase before
it. BARV counts an arrival and waits for that phase. The wait of the posted writes for a range is the model's reading
(log entry 85). -/
def Obligations.BarrierSetArrival : Prop :=
  (∀ (s : State) (r : RowId) (x : Row) (w : Band) (a b : Reg) (i : BitVec 6) (ta tb : Bool),
    x.scalarReady a → x.sget a = i.setWidth 64 →
    let k := slotOf s r i
    let released (t : State) (st : Byte) : Prop :=
      ∀ (q : RowId) (y : Row) (v : BarWait), q ≠ r → clusterOf q.core = clusterOf r.core → s.row? q = some y →
        y.ctl.barrier = some v → v.result = none → v.gbar = false → v.gens = [] → v.token.setWidth 6 = i →
        v.token.extractLsb' 16 16 = k.gen → y.ctl.trap = none → preempting s y = false →
        ∃ (z : Row) (u : Dword), t.row? q = some z ∧ z.ctl.barrier = some { v with result := some u } ∧
          u.extractLsb' 8 6 = i ∧ u.setWidth 8 = st
    (Issues s r x w accSchd false fNone (fSca a) (fSca b) 0 a b → x.scalarReady b →
      (k.owner = none ∨ k.owner = some w.launch) →
      ∃ t : State, exec (.binit a b ta tb) s = .next (completed t r) ∧
        (slotOf t r i).owner = some w.launch ∧ (slotOf t r i).gen = k.gen + 1 ∧ (slotOf t r i).phase = 0 ∧
        (slotOf t r i).exp = (x.sget b).setWidth 16 ∧ (slotOf t r i).txexp = (x.sget b).extractLsb' 16 48 ∧
        (slotOf t r i).ra = (x.sget b).setWidth 16 ∧ (slotOf t r i).rb = ((x.sget b).extractLsb' 16 48).toNat ∧
        (slotOf t r i).fstat = 0 ∧ released t 0x48 ∧
        (∀ j : BitVec 6, j ≠ i → slotOf t r j = slotOf s r j) ∧ t.mem = s.mem) ∧
    (Issues s r x w accSchd false fNone (fSca a) fNone 0 a 0 → k.owner = some w.launch →
      ∃ t : State, exec (.binv a ta) s = .next (completed t r) ∧
        (slotOf t r i).owner = none ∧ (slotOf t r i).gen = k.gen + 1 ∧ (slotOf t r i).phase = 0 ∧
        (slotOf t r i).fstat = 0 ∧ released t 0x49 ∧
        (∀ j : BitVec 6, j ≠ i → slotOf t r j = slotOf s r j) ∧ t.mem = s.mem)) ∧
  (∀ (s t : State) (r : RowId) (x y : Row) (w : Band) (d a : Reg) (i : BitVec 6) (ta : Bool),
    Issues s r x w accSchd false (fSca d) (fSca a) fNone d a 0 → x.scalarReady a → x.sFull d = true →
    x.sget a = i.setWidth 64 → (slotOf s r i).owner = some w.launch → (slotOf s r i).ra ≠ 0 →
    postedHold s x = none → t = flushPosted s r → t.row? r = some y → y.ctl.parityDue = none →
    let k := slotOf s r i
    let tok : Dword := k.phase ++ k.gen ++ (0 : BitVec 10) ++ i
    exec (.barx d a ta) s = .next (completed (arrival (t.setRow r (y.sset d tok)) r w i) r) ∧
    (Undisturbed x → x.ctl.barrier = none →
      exec (.barv d a ta) s =
        .next (heldAt (arrival (t.setRow r (barrierWait y ⟨tok, [], false, none⟩)) r w i) r)))

/-- (1) R371, R374, R385, R388: when the wait of BARV, BWAIT, BWANY or GBAR has its result, the instruction completes
with it: sD and BSTAT; while a pace change of its cluster is pending, a row at BARV, BWAIT or BWANY is held, and keeps
the result. (2) R374: BWAIT on a token whose phase has completed goes on at once: with the slot's status where that
was the latest phase, with OK where the slot has gone further; with BARRIER_RESET where the slot has a new generation,
or BARRIER_INVALID where it has no owner; it waits while the phase is the slot's own. No pace change is pending. (3)
R371, R374: BWANY looks at the slots its mask names, from its row's start, cyclically, and answers for the first whose
phase has advanced past its byte; it waits where none has. No pace change is pending. (4) R371: a phase completes when
the last arrival has come and no byte is outstanding: the phase count goes up by one, arrivals and bytes start again,
the status is OK. Where no arrival is expected, each expected number of bytes completes one phase, and where no byte
is either, the slot completes one phase at each change (the model's choice, log entry 42). A credit reaches a slot of
its generation and owner, and is otherwise counted as stale (R375); a fault release completes the phase with its
status. -/
def Obligations.BarrierWaits : Prop :=
  (∀ (s : State) (r : RowId) (x : Row) (w : Band) (d a b : Reg) (ta tb : Bool) (q : BarWait) (v : Dword),
    x.ctl.barrier = some q → q.result = some v →
    let free : Prop := paceBusy s (clusterOf r.core) = false
    let held : Out := .next (heldAt (s.setRow r (barrierWait x q)) r)
    (Issues s r x w accSchd false (fSca d) (fSca a) fNone d a 0 → q.gens = [] →
      (free → exec (.barv d a ta) s = .next (completed (s.setRow r (barrierDone x d v false)) r) ∧
        exec (.bwait d a ta) s = .next (completed (s.setRow r (barrierDone x d v false)) r)) ∧
      (¬ free → exec (.barv d a ta) s = held ∧ exec (.bwait d a ta) s = held)) ∧
    (Issues s r x w accSchd false (fSca d) (fSca a) (fSca b) d a b → q.gens ≠ [] →
      (free → exec (.bwany d a b ta tb) s = .next (completed (s.setRow r (barrierDone x d v true)) r)) ∧
      (¬ free → exec (.bwany d a b ta tb) s = held)) ∧
    (Issues s r x w accSchd false (fSca d) fNone fNone d 0 0 →
      (∀ l, s.launch? w.launch = some l → (dieOf r.core, (clusterOf r.core).toNat % 16) ∉ l.gbarOut) →
      exec (.gbar d) s = .next (completed (s.setRow r (barrierDone x d v false)) r))) ∧
  (∀ (s : State) (r : RowId) (x : Row) (w : Band) (d a : Reg) (i : BitVec 6) (g : BitVec 16) (p : BitVec 32) (ta : Bool),
    Issues s r x w accSchd false (fSca d) (fSca a) fNone d a 0 → x.scalarReady a → x.sFull d = true → Undisturbed x →
    x.ctl.barrier = none → x.sget a = p ++ g ++ (0 : BitVec 10) ++ i → paceBusy s (clusterOf r.core) = false →
    let k := slotOf s r i
    let done (v : Dword) : Out := .next (completed (s.setRow r (barrierDone x d v false)) r)
    let word (st : Byte) : Dword := p ++ (0 : BitVec 18) ++ i ++ st
    (k.gen = g → k.phase = p + 1 → exec (.bwait d a ta) s = done (word k.fstat)) ∧
    (k.gen = g → 1 < (k.phase - p).toNat → (k.phase - p).toNat < 2 ^ 31 → exec (.bwait d a ta) s = done (word 0)) ∧
    (k.gen ≠ g → ∃ v : Dword, exec (.bwait d a ta) s = done v ∧ v.extractLsb' 8 6 = i ∧
      v.setWidth 8 = (if k.owner.isSome then 0x48 else 0x49)) ∧
    (k.gen = g → k.phase = p →
      exec (.bwait d a ta) s = .next (heldAt (s.setRow r (barrierWait x ⟨x.sget a, [], false, none⟩)) r))) ∧
  (∀ (s : State) (r : RowId) (x : Row) (w : Band) (d a b : Reg) (ta tb : Bool),
    Issues s r x w accSchd false (fSca d) (fSca a) (fSca b) d a b → x.scalarReady a → x.scalarReady b → x.sFull d = true →
    x.ctl.barrier = none → x.waitA = a → x.waitB = b → paceBusy s (clusterOf r.core) = false →
    let G := x.sget a
    let slot (j : Nat) : BitVec 6 := BitVec.ofNat 6 (8 * fld G 2 0 + j)
    let past (j : Nat) : Nat := ((slotOf s r (slot j)).phase.setWidth 8 - (x.sget b).extractLsb' (8 * j) 8).toNat
    fld G 63 16 = 0 → fld G 7 3 = 0 → fld G 15 8 ≠ 0 →
    (∀ j, j < 8 → tst G (8 + j) = true → (slotOf s r (slot j)).owner = some w.launch) →
    (∀ n, n < 8 →
      let j := (x.csr.bwany.toNat + n) % 8
      tst G (8 + j) = true → 0 < past j → past j ≤ 127 →
      (∀ m, m < n → tst G (8 + (x.csr.bwany.toNat + m) % 8) = true →
        past ((x.csr.bwany.toNat + m) % 8) = 0 ∨ 127 < past ((x.csr.bwany.toNat + m) % 8)) →
      exec (.bwany d a b ta tb) s = .next (completed (s.setRow r (barrierDone x d
        (((slotOf s r (slot j)).phase - 1) ++ (0 : BitVec 18) ++ slot j ++ (slotOf s r (slot j)).fstat) true)) r)) ∧
    ((∀ j, j < 8 → tst G (8 + j) = true → past j = 0 ∨ 127 < past j) →
      exec (.bwany d a b ta tb) s = .next (heldAt (s.setRow r (barrierWait x
        ⟨0, (List.range 8).map (fun j => (slotOf s r (slot j)).gen), false, none⟩)) r))) ∧
  (∀ (s : State) (r : RowId) (i : BitVec 6) (n launch : Nat) (st : Byte) (gen : BitVec 16),
    let k := slotOf s r i
    let cl := clusterOf r.core
    let after (t : State) : Slot := slotOf t r i
    (∀ j : Slot, j.exp = 0 → j.txexp ≠ 0 → j.ra = 0 → j.rb ≤ 0 →
      ∃ m : Nat, 1 ≤ m ∧ j.settle = { j with fstat := 0, phase := j.phase + BitVec.ofNat 32 m, ra := 0, rb := j.rb + m * j.txexp.toNat } ∧
        0 < j.settle.rb ∧ j.settle.rb ≤ j.txexp.toNat) ∧
    (∀ j : Slot, (j.exp ≠ 0 ∨ j.txexp = 0) → j.ra = 0 → j.rb ≤ 0 →
      j.settle = { j with fstat := 0, phase := j.phase + 1, ra := j.exp, rb := j.rb + j.txexp.toNat }) ∧
    (∀ j : Slot, (j.ra ≠ 0 ∨ 0 < j.rb) → j.settle = j) ∧
    (k.gen = gen → k.owner = some launch →
      (slotCredit s cl r.core i gen launch n).2 = false ∧
      after (slotCredit s cl r.core i gen launch n).1 = ({ k with rb := max (-(2 ^ 48 : Int)) (k.rb - n) }).settle ∧
      after (slotFault s cl r.core i gen launch st) =
        { k with fstat := st, phase := k.phase + 1, ra := k.exp, rb := k.txexp.toNat }) ∧
    ((k.gen ≠ gen ∨ k.owner ≠ some launch) →
      (slotCredit s cl r.core i gen launch n).2 = true ∧
      after (slotCredit s cl r.core i gen launch n).1 = k ∧ after (slotFault s cl r.core i gen launch st) = k))

/-- R340, R367, R374, R377: FENCE performs the steps of the row's atomics, and of skein scope or wider the row's
posted writes; BPARK of a row with park rights arrives, leaves a continuation and ends the row; GBAR of a GANG launch
waits for every row of it. The wait of the posted writes for a range, which these premises leave out, is the model's
reading (log entry 85). -/
def Obligations.FencePark : Prop :=
  ∀ (s t : State) (r : RowId) (x y : Row) (w : Band) (d a b : Reg) (i : BitVec 6) (ta tb : Bool),
    Undisturbed x →
    (∀ (u : State) (z : Row), Issues s r x w accSchd false fNone fNone fNone 0 0 0 → wordsHold s x.stepWords = none →
      u = settleAtoms s r → u.row? r = some z → z.ctl.parityDue = none →
      exec (.fence .row) s = .next (completed u r) ∧ exec (.fence .band) s = .next (completed u r) ∧
      exec (.fence .core) s = .next (completed u r)) ∧
    (postedHold s x = none → t = flushPosted s r → t.row? r = some y → y.ctl.parityDue = none →
    (Issues s r x w accSchd false fNone fNone fNone 0 0 0 →
      exec (.fence .skein) s = .next (completed t r) ∧
      exec (.fence .die) s = .next (completed t r) ∧ exec (.fence .pkg) s = .next (completed t r) ∧
      exec (.fence .sys) s = .next (completed t r)) ∧
    (Issues s r x w accSchd false fNone (fSca a) (fSca b) 0 a b → StreamQuiet x → x.scalarReady a → x.scalarReady b →
      x.sget a = i.setWidth 64 → (slotOf s r i).owner = some w.launch → (slotOf s r i).ra ≠ 0 →
      x.canPark w = true → (x.sget b).toNat % 4 = 0 → exitHeld y = false →
      ∃ q : Continuation,
        exec (.bpark a b ta tb) s =
          .next (exitRow (arrival ({ t with conts := t.conts ++ [q] } : State).bump r w i) r w.launch) ∧
        q.launch = w.launch ∧ q.core = r.core ∧ q.pc = x.sget b ∧ q.s = x.regs.s ∧ q.wid = x.csr.wid ∧ q.slot = i ∧
        q.gen = (slotOf s r i).gen ∧ q.phase = (slotOf s r i).phase ∧ q.result = none) ∧
    (Issues s r x w accSchd false (fSca d) fNone fNone d 0 0 → x.sFull d = true → x.ctl.barrier = none →
      ((∀ l, s.launch? w.launch = some l → l.gang = false) →
        exec (.gbar d) s = .next (trapped s r x 0x11 0 0 0)) ∧
      (∀ l, s.launch? w.launch = some l → l.gang = true →
        exec (.gbar d) s = .next (heldAt (gbarTry (t.setRow r (barrierWait y ⟨0, [], true, none⟩)) w.launch) r))))

/-- R11, R387, R398, R399: taking a trap keeps the record (TRAPINFO, TARG, the word, the CYCLE), the PC and the
pending hints; the row stops waiting, reads the grants in force and joins its core's trapped rows behind those that
trapped earlier, or in this V-cycle in a lower physical row, then pane. No register, mask, flag, port or matrix state
of it changes (but that the sD which a WAIT has marked empty is full again, log entry 77), no other row changes, and
no byte of memory outside its die's trace buffer. -/
def Obligations.TrapEntry : Prop :=
  ∀ (s : State) (r : RowId) (x : Row) (cause detail : Byte) (code : BitVec 14) (targ : Dword),
    s.row? r = some x → s.mem.wf = true →
    let t := trapped s r x cause detail code targ
    let now := (s.core r.core).cycle
    let place (q : RowId) : Nat := q.prow.toNat * 4 + q.pane.toNat
    t.row? r = some { x with
      regs := match x.ctl.wait with
        | some v => if v.reason = 8 then { x.regs with sfull := x.regs.sfull ||| ~~~pendingScalars x.prods } else x.regs
        | none => x.regs
      ctl := { x.ctl with trap := some ⟨cause, detail, code, targ, x.ibuf.getD 0, now⟩, wait := none, stamp := s.stampAt r, gather := (0, 0),
                           hnDue := 0 }
      csr := { x.csr with
        paceg := pacegWord s r.core
        paceev := x.csr.paceev ||| paceChanges x.csr.paceg (pacegWord s r.core) ||| x.ctl.hnDue } } ∧
    (∀ q, q ≠ r → t.row? q = s.row? q) ∧
    (r ∉ (s.core r.core).trapQ → ∃ l1 l2 : List RowId,
      (s.core r.core).trapQ = l1 ++ l2 ∧ (t.core r.core).trapQ = l1 ++ r :: l2 ∧
      (∀ q ∈ l1, ∀ y k, s.row? q = some y → y.ctl.trap = some k → k.cycle = now → place q < place r) ∧
      (∀ q ∈ l2.head?, ∃ y k, s.row? q = some y ∧ y.ctl.trap = some k ∧ k.cycle = now ∧ place r ≤ place q)) ∧
    (∀ g, g ≠ r.core → t.core g = s.core g) ∧
    (∀ k, untraced r.core k →
      memGet t.mem k = memGet s.mem k) ∧
    t.bands = s.bands ∧ t.launches = s.launches ∧ t.cmds = s.cmds ∧ t.clusters = s.clusters ∧ t.badWords = s.badWords

/-- (1) R276: TRAP takes USER_TRAP and BKPT takes BREAKPOINT, with the immediate as CODE and sA as TARG. (2) R58,
R400: a word that fails a step of the check order traps: PRIVILEGE for a word of major opcode 0xEF in a row (step 3),
ILLEGAL with the step as DETAIL and the PC as TARG for the others. The monitor instructions trap so in a row. (3) R40,
R273: while the divergence mask holds no lane, every row instruction but IF, ELSE, ENDIF, LOOP, BRKM and ENDL is
passed over: the row goes on and nothing else of it changes; a hint word sets no pending state. (4) R99: a delivery
point waits for the row's flag-raising producers and for an MSCA; with PEND set it clears PEND and traps with
FP_DEFERRED, before its own effect. The delivery points are FENCE, WAIT, EXIT, BARV, BWAIT, BPARK, GBAR, LNCH, EVSIG
and NSIG. -/
def Obligations.TrapInstructions : Prop :=
  (∀ (s : State) (r : RowId) (x : Row) (w : Band) (a : Reg) (i : BitVec 14),
    Issues s r x w accSchd false fNone (fSca a) fNone 0 a 0 → x.scalarReady a →
    exec (.trap a i) s = .next (trapped s r x 0x14 0 i (x.sget a)) ∧
    exec (.bkpt a i) s = .next (trapped s r x 0x0E 0 i (x.sget a))) ∧
  (∀ (s : State) (r : RowId) (x : Row) (w : Band) (n : Nat) (d a b : Reg),
    Executes s r x w →
    (n ≠ 3 → exec (.illegalEncoding n) s = .next (trapped s r x 0x01 (BitVec.ofNat 8 n) 0 x.pc)) ∧
    (∀ i ∈ [Instr.illegalEncoding 3, Instr.krdr d a, Instr.kwrr a b, Instr.krsm a, Instr.kkil a, Instr.ksav d a b,
        Instr.klod d a b, Instr.kret],
      exec i s = .next (trapped s r x 0x0D 0 0 0))) ∧
  (∀ (s : State) (r : RowId) (x : Row) (w : Band) (v : Instr),
    Executes s r x w → x.skips w.laneW = true → passedOver v = true → exec v s = .next (completed s r)) ∧
  (∀ (s : State) (r : RowId) (x : Row) (w : Band) (d a b : Reg) (c : BClass) (n : BitVec 4) (k : Scope) (ta tb : Bool),
    let delivers (i : Instr) : Prop :=
      (x.prods.any (fun p => p.raises) = true → exec i s = .next (s.setRow r (waitAt s r x 1 .v))) ∧
      (x.prods.any (fun p => p.raises) = false → x.mx.msca.isSome = true →
        exec i s = .next (s.setRow r (waitAt s r x 5 .m))) ∧
      (x.flagWait = none → x.fp.pend = true →
        exec i s = .next (trapped s r { x with fp := { x.fp with pend := false } } 0x09 0 0 0))
    (Issues s r x w accSchd false fNone fNone fNone 0 0 0 → delivers (.fence k)) ∧
    (Issues s r x w accNone false fNone fNone fNone 0 0 0 → delivers .exit) ∧
    (Issues s r x w accSchd false (fSca d) fNone fNone d 0 0 →
      ((c = .mx → StreamQuiet x) → delivers (.wait d c n)) ∧
      (x.sFull d = true → x.ctl.barrier = none → delivers (.gbar d))) ∧
    (Issues s r x w accSchd false (fSca d) (fSca a) fNone d a 0 → x.sFull d = true →
      (x.scalarReady a → x.ctl.barrier = none → delivers (.barv d a ta) ∧ delivers (.bwait d a ta)) ∧
      (groupReady x a 2 → x.ctl.evsig = none → delivers (.evsig d a ta)) ∧
      (groupReady x a 2 → x.ctl.lnch = none → fld (x.sget a) 19 0 % 64 = 0 → fld (x.sget a) 19 0 + 256 ≤ w.wsize →
        delivers (.lnch d a)) ∧
      (groupReady x a 3 → x.isLead w = true → classRoom s w .nw = true → delivers (.nsig d a ta))) ∧
    (Issues s r x w accSchd false fNone (fSca a) (fSca b) 0 a b → x.scalarReady a → x.scalarReady b →
      delivers (.bpark a b ta tb)))

/-- (1) R215, R275: CSRR answers the special register of the row; PACEEV is cleared by the read (R390); BSTAT is a
producer; TRAPINFO is the monitor's alone (R408). (2) R8, R215, R275: CSRW writes the fields of a register that can be
written and leaves the rest; a read-only register is unchanged. -/
def Obligations.SpecialRegisters : Prop :=
  (∀ (s : State) (r : RowId) (x : Row) (w : Band) (d : Reg) (k : BitVec 12),
    Issues s r x w accSchd false (fSca d) fNone fNone d 0 0 →
    let reads (n : BitVec 12) (v : Dword) : Prop :=
      exec (.csrr d n) s = .next (completed (s.setRow r (x.sset d v)) r)
    exec (.csrr d 0x070) s = .next (trapped s r x 0x0D 0 0 0) ∧
    (x.sFull d = true →
      (k ∉ [0x010, 0x011, 0x012, 0x013, 0x021, 0x050, 0x070] → reads k (csrValue s r x w k)) ∧
      (x.flagWait = none →
        reads 0x010 ((bit x.fp.pend ++ (0 : BitVec 3) ++ x.fp.flags).setWidth 64) ∧ reads 0x011 (x.fp.en.setWidth 64) ∧
        reads 0x012 (x.fp.rmode.setWidth 64) ∧ reads 0x013 (if x.fp.ftz then 1 else 0)) ∧
      reads 0x000 (BitVec.ofNat 64 ((dieOf r.core).toNat * 2 ^ 16 + (clusterOf r.core).toNat % 16 * 2 ^ 12 + r.core.toNat % 4 * 2 ^ 10
        + r.pane.toNat * 2 ^ 8 + r.prow.toNat)) ∧
      reads 0x002 (BitVec.ofNat 64 (w.nb * 2 ^ 20 + w.bandIx * 2 ^ 16 + w.height * 2 ^ 8 + x.inBand.toNat)) ∧
      reads 0x004 (BitVec.ofNat 64 ((if x.canPark w then 2 ^ 8 else 0) + (if x.isLead w then 2 ^ 7 else 0) + w.lead)) ∧
      reads 0x005 (BitVec.ofNat 64 (w.wsize * 2 ^ 32 + w.wbase)) ∧
      reads 0x001 x.csr.wid ∧ reads 0x003 (BitVec.ofNat 64 w.laneW) ∧ reads 0x020 x.csr.paceg ∧ reads 0x022 w.pacereq ∧
      reads 0x030 (x.repix.setWidth 64) ∧ reads 0x031 (BitVec.ofNat 64 x.stack.length) ∧
      reads 0x040 (s.core r.core).cycle ∧ reads 0x041 (s.core r.core).mcycle ∧ reads 0x060 x.csr.wdlim ∧
      exec (.csrr d 0x021) s = .next (completed (s.setRow r
        { x.sset d (x.csr.paceev.setWidth 64) with csr := { x.csr with paceev := 0 } }) r) ∧
      exec (.csrr d 0x050) s = .next (completed (s.setRow r
        (x.produce { dest := .sca d (bstatWord s r x w) })) r))) ∧
  (∀ (s : State) (r : RowId) (x : Row) (w : Band) (a : Reg) (k : BitVec 12),
    Issues s r x w accSchd false fNone (fSca a) fNone 0 a 0 → x.scalarReady a →
    let v := x.sget a
    let row (y : Row) : Out := .next (completed (s.setRow r y) r)
    exec (.csrw a 0x070) s = .next (trapped s r x 0x0D 0 0 0) ∧
    (x.flagWait = none →
      exec (.csrw a 0x010) s = row { x with fp := { x.fp with flags := v.setWidth 5, pend := v.getLsbD 8 } } ∧
      exec (.csrw a 0x011) s = row { x with fp := { x.fp with en := v.setWidth 5 } } ∧
      exec (.csrw a 0x012) s = row { x with fp := { x.fp with rmode := v.setWidth 2 } } ∧
      exec (.csrw a 0x013) s = row { x with fp := { x.fp with ftz := v.getLsbD 0 } }) ∧
    exec (.csrw a 0x060) s = row { x with csr := { x.csr with wdlim := v &&& 0x1F1F1F1F } } ∧
    (x.isLead w = false → exec (.csrw a 0x022) s = .next (completed s r)) ∧
    (x.isLead w = true → exec (.csrw a 0x022) s = .next (completed (s.modBand w.id (fun b =>
      { b with pacereq := pacereqNew b.pacereq v })) r)) ∧
    (k ∉ [0x010, 0x011, 0x012, 0x013, 0x022, 0x060, 0x070] → exec (.csrw a k) s = .next (completed s r)))

/-- (1) R277: LNCH whose operand has a reserved bit is answered RANGE; otherwise it reads the block and the row waits
until the distributor takes it. At LNCH_BLOCK_TAKEN the block of an allowed launch is written at the queue's tail,
which moves on, and sD receives the entry's index; a launch of another ASID or a higher PRIO is answered PERMISSION,
before a full queue (the model's choice, log entry 61), which is answered 0x100; a row whose count has reached its
limit is left to its watchdog (R395). It answers at once where the memory serves it (log entry 61); a watchpoint on
the block traps (R447). (2) R278: EVSIG sends the update of an event slot and the row waits; at EVSIG_UPDATE_PERFORMED
the update is made under the launch's ASID and sD receives its status: the slot then holds the sum modulo 2^64, or the
value; a failed update changes no byte, and an address with a tag, or that is no multiple of 8, is RANGE; a row whose
count has reached its limit is left to its watchdog (R395). -/
def Obligations.LaunchSignal : Prop :=
  (∀ (s t : State) (r : RowId) (x y : Row) (w : Band) (d a : Reg),
    (Issues s r x w accSchd false (fSca d) (fSca a) fNone d a 0 → x.ctl.lnch = none → groupReady x a 2 →
      x.sFull d = true → Undisturbed x → fld (x.sget a) 19 0 % 64 = 0 → fld (x.sget a) 19 0 + 256 ≤ w.wsize →
      postedHold s x = none → t = flushPosted s r → t.row? r = some y → y.ctl.parityDue = none →
      let off := fld (x.sget a) 19 0
      ((fld (x.sget a) 63 20 ≠ 0 ∨ fld (x.sget (a + 1)) 63 4 ≠ 0) →
        exec (.lnch d a) s = .next (completed (t.setRow r (y.sset d 0x44)) r)) ∧
      (fld (x.sget a) 63 20 = 0 → fld (x.sget (a + 1)) 63 4 = 0 →
        RangeClear t y w .read off 256 →
        let z := { y with ctl := { y.ctl with
          lnch := some ⟨memRead t.mem (winKey w off) 256, (x.sget (a + 1)).setWidth 4⟩ } }
        exec (.lnch d a) s = .next ((t.setRow r z).modRow r (fun v => waitAt (t.setRow r z) r v 15 .v)))) ∧
    (∀ o : LnchOp, s.row? r = some x → x.ctl.lnch = some o → x.ctl.trap = none → lnchHeld s x o = false → watchdogDue x = none →
      let q := s.queue o.queue
      let z := { x with ctl := { x.ctl with lnch := none } }
      let answer (u : State) (v : Dword) : Prop :=
        exec (.lnchBlockTaken r) s = .next (((u.setRow r (retireRow (z.sset z.waitD v) (u.stampAt r))).bump))
      (lnchAllowed s x o = false → answer s 0x42) ∧
      (lnchAllowed s x o = true → (q.ring = 0 ∨ q.ring ≤ q.count + 1) → answer s 0x100) ∧
      (lnchAllowed s x o = true → q.ring ≠ 0 → q.count + 1 < q.ring → q.entryPa q.tail.toNat + 256 ≤ hbmEnd →
        s.crossFail = false →
        (∀ i, i < 4 → s.paFailed (q.entryPa q.tail.toNat + 64 * i) = false) →
        ∃ u : State, answer u (BitVec.ofNat 64 (q.tail.toNat * 2 ^ 32)) ∧
          (s.mem.wf = true → o.block.length = 256 → memRead u.mem (q.entryPa q.tail.toNat) 256 = o.block) ∧
          (u.queue o.queue).tail = BitVec.ofNat 12 ((q.tail.toNat + 1) % q.ring)))) ∧
  (∀ (s t : State) (r : RowId) (x y : Row) (w : Band) (d a : Reg) (st : Bool),
    (Issues s r x w accSchd false (fSca d) (fSca a) fNone d a 0 → x.ctl.evsig = none → groupReady x a 2 →
      x.sFull d = true → Undisturbed x → postedHold s x = none → t = flushPosted s r → t.row? r = some y → y.ctl.parityDue = none →
      let z := { y with ctl := { y.ctl with evsig := some ⟨x.sget a, x.sget (a + 1), st⟩ } }
      exec (.evsig d a st) s = .next ((t.setRow r z).modRow r (fun v => waitAt (t.setRow r z) r v 15 .v))) ∧
    (∀ e : EvsigOp, s.row? r = some x → s.band? x.band = some w → x.ctl.evsig = some e → x.ctl.trap = none → watchdogDue x = none →
      let g := netRequester s (s.bandAsid w) (some w.launch) r.core
      let u := updateSlot s g e.slot e.v e.set
      let z := { x with ctl := { x.ctl with evsig := none } }
      slotHeld s g e.slot e.set = false →
      exec (.evsigUpdatePerformed r) s =
        .next ((u.1.setRow r (retireRow (z.sset z.waitD (u.2.setWidth 64)) (u.1.stampAt r))).bump) ∧
      ((fld e.slot 2 0 ≠ 0 ∨ fld e.slot 63 61 ≠ 0) → u = (s, 0x44)) ∧
      (u.2 ≠ 0 → u.1.mem = s.mem) ∧
      (∀ pl, u.2 = 0 → s.mem.wf = true → resolve (walked s g (if e.set then .write else .update) e.slot 8) g (if e.set then .write else .update) e.slot 8 = .ok pl →
        placeBytes u.1 pl 8 = leBytes 8 (if e.set then e.v.toNat else (leNat (placeBytes s pl 8) + e.v.toNat) % 2 ^ 64))))

/-- R50, R100, R390, R405: the monitor executes scalar and control words on its own registers, of which s0 reads zero
and is not written; each goes on to the next word or to its target; IMX extends the immediate of the next word. In
privileged mode CSRR reads, and CSRW writes, the special registers of the row that it has taken, PACEEV being cleared
by the read; a floating-point one waits for the row's instructions that raise flags; with no row taken CSRR of CYCLE
and MCYCLE gives the core's, of another a free value, and CSRW only goes on (log entry 20). -/
def Obligations.MonitorScalar : Prop :=
  ∀ (s : State) (g : CoreId) (m : Monitor) (d a b : Reg) (c : BitVec 4) (ta tb u : Bool) (i : BitVec 14) (n : BitVec 6) (j : BitVec 24)
    (o : BitVec 19) (e : BitVec 24) (k : BitVec 12),
    s.active = .monitor g → (s.core g).mon = m → m.imx2 = none →
    let A := m.sget a
    let B := m.sget b
    let put (v : Dword) : Out := .next (monWent s g (fun m => m.sset d v))
    let goes (pc : Dword) : Out := .next (s.modMon g (fun m => { m with pc := pc, count := m.count + 1 }))
    (m.imx1 = some e →
      exec (.saddi d a i) s = put (A + (e ++ i).signExtend 64) ∧ exec (.sandi d a i) s = put (A &&& (e ++ i).signExtend 64) ∧
      exec (.sori d a i) s = put (A ||| (e ++ i).signExtend 64) ∧ exec (.sxori d a i) s = put (A ^^^ (e ++ i).signExtend 64) ∧
      exec (.sli d i) s = put ((e ++ i).signExtend 64)) ∧
    (m.imx1 = none →
      exec (.imx e) s = .next (s.modMon g (fun m => { m with pc := m.pc + 4, imx1 := some e, count := m.count + 1 })) ∧
      exec (.sadd d a b ta tb) s = put (A + B) ∧ exec (.ssub d a b ta tb) s = put (A - B) ∧
      exec (.sand d a b ta tb) s = put (A &&& B) ∧ exec (.sor d a b ta tb) s = put (A ||| B) ∧
      exec (.sxor d a b ta tb) s = put (A ^^^ B) ∧ exec (.smul d a b ta tb) s = put (A * B) ∧
      exec (.smulh d a b ta tb u) s = put (if u then BitVec.ofNat 64 (A.toNat * B.toNat / 2 ^ 64)
        else BitVec.ofInt 64 (A.toInt * B.toInt / 2 ^ 64)) ∧
      exec (.sdiv d a b ta tb u) s = put (if B = 0 then BitVec.allOnes 64 else if u then A.udiv B else A.sdiv B) ∧
      exec (.srem d a b ta tb u) s = put (if B = 0 then A else if u then A.umod B else A.srem B) ∧
      exec (.sshl d a b ta tb) s = put (if B.toNat < 64 then A <<< B.toNat else 0) ∧
      exec (.sshr d a b ta tb true) s = put (if B.toNat < 64 then A >>> B.toNat else 0) ∧
      exec (.sshr d a b ta tb false) s =
        put (if B.toNat < 64 then A.sshiftRight B.toNat else if A.msb then BitVec.allOnes 64 else 0) ∧
      exec (.smin d a b ta tb u) s = put (if (if u then A.ult B else A.slt B) then A else B) ∧
      exec (.smax d a b ta tb u) s = put (if (if u then A.ult B else A.slt B) then B else A) ∧
      exec (.scmp d a b ta tb u .eq) s = put (if A = B then 1 else 0) ∧
      exec (.scmp d a b ta tb u .ne) s = put (if A = B then 0 else 1) ∧
      exec (.scmp d a b ta tb u .lt) s = put (if (if u then A.ult B else A.slt B) then 1 else 0) ∧
      exec (.scmp d a b ta tb u .le) s = put (if (if u then A.ule B else A.sle B) then 1 else 0) ∧
      exec (.scmp d a b ta tb u .gt) s = put (if (if u then B.ult A else B.slt A) then 1 else 0) ∧
      exec (.scmp d a b ta tb u .ge) s = put (if (if u then B.ule A else B.sle A) then 1 else 0) ∧
      exec (.ssel d a b ta tb c) s = put (if m.sget (c.setWidth 5) = 0 then B else A) ∧
      exec (.spopc d a ta) s = put (BitVec.ofNat 64 ((List.range 64).countP (fun k => A.getLsbD k))) ∧
      exec (.sclz d a ta) s = put (BitVec.ofNat 64 (((List.range 64).find? (fun k => A.getLsbD (63 - k))).getD 64)) ∧
      exec (.smov d a ta) s = put A ∧ exec (.saddi d a i) s = put (A + i.signExtend 64) ∧
      exec (.sandi d a i) s = put (A &&& i.signExtend 64) ∧ exec (.sori d a i) s = put (A ||| i.signExtend 64) ∧
      exec (.sxori d a i) s = put (A ^^^ i.signExtend 64) ∧
      exec (.sli d i) s = put (i.signExtend 64) ∧ exec (.sshli d a n) s = put (A <<< n.toNat) ∧
      exec (.sshri d a false n) s = put (A >>> n.toNat) ∧ exec (.sshri d a true n) s = put (A.sshiftRight n.toNat) ∧
      exec .nop s = goes (m.pc + 4) ∧ exec (.bra j) s = goes (m.pc + 4 * j.signExtend 64) ∧
      exec (.call j) s = .next (s.modMon g (fun m =>
        { m.sset 31 (m.pc + 4) with pc := m.pc + 4 * j.signExtend 64, count := m.count + 1 })) ∧
      exec (.bz a o) s = goes (if A = 0 then m.pc + 4 * o.signExtend 64 else m.pc + 4) ∧
      exec (.bnz a o) s = goes (if A = 0 then m.pc + 4 else m.pc + 4 * o.signExtend 64) ∧
      (A.toNat % 4 = 0 → exec (.ret a ta) s = goes A ∧ exec (.jmpr a ta) s = goes A) ∧
      (A.toNat % 4 ≠ 0 → m.mode = .handler → exec (.ret a ta) s = .next (monRet s g) ∧ exec (.jmpr a ta) s = .next (monRet s g)) ∧
      (m.mode = .privileged → m.row = none →
        exec (.csrr d 0x040) s = put (s.core g).cycle ∧ exec (.csrr d 0x041) s = put (s.core g).mcycle ∧
        (k ≠ 0x040 → k ≠ 0x041 → exec (.csrr d k) s = put (Config.csrOfNoRow k)) ∧
        exec (.csrw a k) s = .next (monWent s g (fun m => m))) ∧
      (∀ (q : RowId) (x : Row) (w : Band), m.mode = .privileged → m.row = some q → s.row? q = some x → s.band? x.band = some w →
        let fp : Prop := k ∈ [0x010, 0x011, 0x012, 0x013] ∧ x.flagWait ≠ none
        (fp → exec (.csrr d k) s = .next s ∧ exec (.csrw a k) s = .next s) ∧
        (k ≠ 0x021 → ¬ fp → exec (.csrr d k) s = put (csrValue s q x w k)) ∧
        exec (.csrr d 0x021) s = .next (monWent (s.setRow q { x with csr := { x.csr with paceev := 0 } }) g
          (fun m => m.sset d (x.csr.paceev.setWidth 64))) ∧
        (¬ fp → exec (.csrw a k) s = .next (monWent (csrWrite s q x w k A) g (fun m => m)))))

/-- (1) R410, R411: KRDR reads and KWRR writes an item of a leased row of the core: here a scalar register, and the PC
read. In handler mode the row is the trapped one; a selector with a reserved bit is a handler fault there, and in
privileged mode reads all ones and writes nothing. (2) R412 to R414: KRSM of the handler resumes the trapped row, at
its word, or past it where SKIP is set or the trap was USER_TRAP or a BREAKPOINT of BKPT, and the handler ends; KKIL
ends its band; KRET ends the handler and the default action is taken. A row trapped by PARITY is not resumed (R404).
In privileged mode KRSM and KKIL act on any row of the core and KRET ends the activation. (3) R406 to R408: an idle
monitor takes the oldest trapped row of its core. With a handler and a cause other than PARITY it starts the handler
at its PC with TRAPINFO, TARG, the selector base and the row's PC in s1 to s4; otherwise the default action is taken.
(4) R408: handler mode may not write special registers, read others than TRAPINFO, or run KSAV and KLOD: such a word
has the effect of KRET. So has the 2^20th instruction of a run. -/
def Obligations.MonitorSystem : Prop :=
  (∀ (s : State) (g : CoreId) (m : Monitor) (d a b : Reg) (q : RowId) (x : Row) (w : Band) (i : Reg),
    MonitorRuns s g m → s.row? q = some x → s.band? x.band = some w →
    (m.mode = .privileged ∨ m.mode = .handler ∧ m.row = some q) →
    let put (v : Dword) : Out := .next (monWent s g (fun m => m.sset d v))
    (selOf g (m.sget a) = ⟨1, q, i.toNat, false⟩ →
      exec (.krdr d a) s = put (x.sget i) ∧
      exec (.kwrr a b) s = .next (monWent (s.setRow q (x.sset i (m.sget b))) g (fun m => m))) ∧
    (selOf g (m.sget a) = ⟨4, q, 0, false⟩ →
      exec (.krdr d a) s = put x.pc ∧
      ((m.sget b).toNat % 4 = 0 →
        ∃ y : Row, exec (.kwrr a b) s = .next (monWent (s.setRow q y) g (fun m => m)) ∧ y.pc = m.sget b ∧
          y.regs = x.regs ∧ y.hints = x.hints ∧ y.fp = x.fp ∧ y.mx = x.mx ∧ y.ctl.trap = x.ctl.trap)) ∧
    (∀ (p n : Nat), selOf g (m.sget a) = ⟨p, q, n, true⟩ →
      (m.mode = .privileged → exec (.krdr d a) s = put (BitVec.allOnes 64) ∧
        exec (.kwrr a b) s = .next (monWent s g (fun m => m))) ∧
      (m.mode = .handler → exec (.krdr d a) s = .next (monRet s g) ∧ exec (.kwrr a b) s = .next (monRet s g)))) ∧
  (∀ (s : State) (g : CoreId) (m : Monitor) (a : Reg) (q : RowId) (x : Row) (t : TrapRec) (skip : Bool),
    MonitorRuns s g m →
    (m.mode = .handler → m.row = some q → q.core = g → s.row? q = some x → x.ctl.trap = some t →
      (selOf g (m.sget a) = ⟨0, q, (if skip then 1 else 0), false⟩ →
        (t.cause ≠ 0x16 → ∃ (y : Row) (u : State), exec (.krsm a) s = .next u ∧ u.row? q = some y ∧
          y.ctl.trap = none ∧ y.regs = x.regs ∧ y.fp = x.fp ∧ y.stack = x.stack ∧
          (u.core g).mon.mode = .idle ∧ (u.core g).trapQ = (s.core g).trapQ.filter (fun r => r != q) ∧
          ((skip = true ∨ t.cause = 0x14 ∨ (t.cause = 0x0E ∧ t.detail = 0)) → y.pc = x.pc + 4 ∧ y.hints = {} ∧ y.repix = 0) ∧
          ((skip = false ∧ t.cause ≠ 0x14 ∧ (t.cause ≠ 0x0E ∨ t.detail ≠ 0)) →
            y.pc = x.pc ∧ y.hints = x.hints ∧ y.repix = x.repix)) ∧
        (t.cause = 0x16 → exec (.krsm a) s = .next (monRet s g))) ∧
      (selOf g (m.sget a) = ⟨0, q, 0, false⟩ → exec (.kkil a) s = .next (kkilRow (monIdle s g) q)) ∧
      exec .kret s = .next (defaultAction (monIdle s g) q)) ∧
    (m.mode = .privileged →
      exec .kret s = .next (monIdle s g) ∧
      (selOf g (m.sget a) = ⟨0, q, 0, false⟩ →
        exec (.kkil a) s = .next (kkilRow (monWent s g (fun m => m)) q) ∧
        (s.row? q = some x → x.ctl.trap = some t → t.cause ≠ 0x16 →
          exec (.krsm a) s = .next (monWent (resumeRow s q x t false) g (fun m => m))) ∧
        (s.row? q = some x → x.ctl.trap = none → exec (.krsm a) s = .next (monWent s g (fun m => m)))))) ∧
  (∀ (s : State) (g : CoreId) (q : RowId) (x : Row) (w : Band) (l : Launch) (t : TrapRec),
    (s.core g).mon.mode = .idle → nextTrapped s g = some q → s.row? q = some x → s.band? x.band = some w →
    s.launch? w.launch = some l → x.ctl.trap = some t → debugClaims s q w t = false →
    (t.cause ≠ 0x16 → l.handler ≠ 0 → ∃ u : State, exec (.monitorTrapDispatch g) s = .next u ∧
      (u.core g).mon.mode = .handler ∧ (u.core g).mon.pc = l.handler ∧ (u.core g).mon.row = some q ∧
      (u.core g).mon.sget 1 = t.info ∧ (u.core g).mon.sget 2 = t.targ ∧ (u.core g).mon.sget 3 = selBase q ∧
      (u.core g).mon.sget 4 = x.pc ∧ (∀ i : Reg, 5 ≤ i.toNat → (u.core g).mon.sget i = 0) ∧
      u = { s with cores := u.cores }) ∧
    ((t.cause = 0x16 ∨ l.handler = 0) → exec (.monitorTrapDispatch g) s = .next (defaultAction s q))) ∧
  (∀ (s : State) (g : CoreId) (m : Monitor) (d a b : Reg) (k : BitVec 12) (q : RowId) (x : Row) (w : Band) (t : TrapRec),
    MonitorRuns s g m → m.mode = .handler → m.row = some q → s.row? q = some x → s.band? x.band = some w →
    let rejected : Out := .next (monRet s g)
    exec (.csrw a k) s = rejected ∧ (k ≠ 0x070 → exec (.csrr d k) s = rejected) ∧
    (x.ctl.trap = some t → exec (.csrr d 0x070) s = .next (monWent s g (fun m => m.sset d t.info))) ∧
    exec (.ksav d a b) s = rejected ∧ exec (.klod d a b) s = rejected ∧
    (2 ^ 20 ≤ m.count + 1 → exec (.handlerInstructionLimit g) s = rejected))

/-- (1) R417, R423 to R427: KSAV of a stopped unit's band writes its save area and takes its rows and commands out of
the machine, once the remote operations aimed at its window are performed (log entry 95); KLOD puts them back from the
area; both answer 0. A band that is not stopped, or not saved, is answered RANGE and nothing changes. While a line of
the area waits at the memory, the word waits (R107, R118; log entry 68). (2) R423, R424: places in a save area. The
header has HEIGHT, LANEW, the window's size, NB, BAND, ROW0, PANE and the core by their bits, then WID, the serial and
PACEREQ; the record of row i follows at 256 + i (1024 + 232 w). The record of a row that goes on has its PC, WDLIM,
shape, s0 to s31, m0 to m7, the batch counters, the trap's words, the lanes of v0 to v27 and of P at the places of
R424; the mask stack, its bottom entry first, is in an order that R424 leaves open (log entry 30). -/
def Obligations.ContextResult : Prop :=
  (∀ (s : State) (g : CoreId) (m : Monitor) (d a b : Reg) (w : Band),
    MonitorRuns s g m → m.mode = .privileged → selBand s (selOf g (m.sget a)) = some w →
    let adr := fld (m.sget b) 39 0
    let answer (t : State) (v : Dword) : Out := .next (monWent t g (fun m => m.sset d v))
    physHeld s adr (areaSize s w) = false → physHeld s adr (viewLen s w adr) = false →
    (∀ (u : State) (k : Band), w.preempt = some .requested → (unitOf s w).all (bandStopped s) = true → u = drainAimed s w →
      u.band? w.id = some k → k.preempt = some .requested → bandParity u k = none → saveFails u k adr (areaSize u k) = none →
      exec (.ksav d a b) s = answer ((List.range (areaSize u k / 64)).foldl (fun v i =>
        placeWrite v (.hbm (adr + 64 * i)) (((areaBytes u k adr).drop (64 * i)).take 64)) (shelveBand u k adr)) 0) ∧
    ((∀ p ∈ s.rows, p.2.aimsAt w.id = false) → drainAimed s w = s) ∧
    (w.preempt ≠ some .requested → exec (.ksav d a b) s = answer s 0x44) ∧
    (w.preempt ≠ some .saved → exec (.klod d a b) s = answer s 0x44) ∧
    (w.preempt = some .saved → leasable s w = true → adr % 4096 = 0 →
      let v := areaView s w adr
      let lines := List.range (v.map.stop / 64)
      adr + v.map.stop ≤ hbmEnd → (∀ i ∈ lines, s.paFailed (adr + 64 * i) = false ∧ s.paBad (adr + 64 * i) = false) →
      s.crossFail = false →
      let u := unshelve (lines.foldl (fun u i => noteLineRead u (adr + 64 * i)) s) w v
      ∃ t : State, exec (.klod d a b) s = answer t 0 ∧ t.rows = u.rows ∧ t.cmds = u.cmds ∧ t.mem = u.mem)) ∧
  (∀ (s : State) (b : Band) (a off i : Nat),
    let bytes := areaBytes s b a
    let at8 (l : List Byte) (n : Nat) (v : Dword) : Prop := (l.drop n).take 8 = leBytes 8 v.toNat
    (b.height < 2 ^ 7 → b.laneW < 2 ^ 7 → b.wsize / 4096 - 1 < 2 ^ 8 → b.nb < 2 ^ 4 → b.bandIx < 2 ^ 4 → b.row0 < 2 ^ 7 →
      let h := dw (leNat (bytes.take 8))
      fld h 6 0 = b.height ∧ fld h 14 8 = b.laneW ∧ fld h 23 16 = b.wsize / 4096 - 1 ∧ fld h 27 24 = b.nb ∧ fld h 31 28 = b.bandIx ∧
      fld h 38 32 = b.row0 ∧ fld h 41 40 = b.pane.toNat ∧ fld h 45 44 = b.core.toNat % 4 ∧ fld h 49 46 = b.core.toNat / 4 % 16 ∧
      fld h 51 50 = b.core.toNat / 64 ∧ fld h 63 52 = 0 ∧ at8 bytes 8 b.wid0 ∧ at8 bytes 0x10 (b.serial.setWidth 64) ∧
      at8 bytes 0x18 b.pacereq) ∧
    (i < b.height →
      let place (j : Nat) : Nat := 256 + j * (1024 + 232 * b.laneW)
      let record (j : Nat) : List Byte := rowRecord s b j (a + place j) (maskOffset s b j)
      (∀ j, j < i → (record j).length = 1024 + 232 * b.laneW) → (bytes.drop (place i)).take (record i).length = record i) ∧
    (∀ x : Row, b.lastRow s i = some x → x.status ≠ .exited → x.stack.length ≤ 16 →
      let k := rowRecord s b i a off
      at8 k 0 x.pc ∧ at8 k 0x28 x.csr.wdlim ∧ at8 k 0x38 x.mx.shape ∧ (∀ j : Fin 32, at8 k (0xC0 + 8 * j) (x.sget (BitVec.ofFin j))) ∧
      (∀ j : Fin 8, at8 k (0x340 + 8 * j) x.regs.m[j]) ∧ (∀ j : Fin 5, at8 k (0x380 + 8 * j) (dw x.cls[j].counter)) ∧
      (∀ (j : Nat) (e : MaskEntry), x.stack.reverse[j]? = some e →
        at8 k (0x1C0 + 24 * j) (dw ((if e.isLoop then 1 else 0) + (if e.elseDone then 2 else 0))) ∧ at8 k (0x1C8 + 24 * j) e.saved ∧
        at8 k (0x1D0 + 24 * j) e.pend) ∧
      (∀ t, x.ctl.trap = some t → at8 k 0x3B0 t.info ∧ at8 k 0x3B8 t.targ) ∧
      (∀ (j : Fin 28) (n : Nat), n < b.laneW →
        (k.drop (0x400 + 4 * b.laneW * j + 4 * n)).take 4 = leBytes 4 (laneAt x.regs.v[j] n).toNat) ∧
      (∀ n, n < b.laneW → (k.drop (0x400 + 128 * b.laneW + 4 * n)).take 4 = leBytes 4 (laneAt x.mx.p n).toNat)))

/-- R199, R203: the walker's register instructions; w0 reads zero and is not written (R187). -/
def Obligations.WalkerRegisters : Prop :=
  ∀ (s : State) (cl : ClusterId) (k : Cmd) (v : Walker) (d a b : WReg) (i : BitVec 18) (j : BitVec 22),
    WalkRuns s cl k v →
    let A := v.get a
    let B := v.get b
    let put (n : Dword) : Out := .next (walkWent s cl (v.set d n) (v.pc + 1))
    exec (.wadd d a b) s = put (A + B) ∧ exec (.wsub d a b) s = put (A - B) ∧ exec (.wmul d a b) s = put (A * B) ∧
    exec (.wand d a b) s = put (A &&& B) ∧ exec (.wor d a b) s = put (A ||| B) ∧ exec (.wxor d a b) s = put (A ^^^ B) ∧
    exec (.wshl d a b) s = put (A <<< (B.toNat % 64)) ∧ exec (.wshr d a b) s = put (A >>> (B.toNat % 64)) ∧
    exec (.waddi d a i) s = put (A + i.signExtend 64) ∧ exec (.wli d j) s = put (j.signExtend 64) ∧
    exec (.wpopc d a) s = put (BitVec.ofNat 64 ((List.range 64).countP (fun n => A.getLsbD n))) ∧
    exec (.wpfx d a b) s =
      put (BitVec.ofNat 64 ((List.range 64).countP (fun n => A.getLsbD n && decide (n < B.toNat))))

/-- (1) R195, R200: BCC and J add their offset to the PC; a target outside the program stops the walker with CAUSE 4.
(2) R189, R201, R202: LD reads an aligned value from a line of the read buffer, zero-extended; where the line is not
there the walker requests it and waits, also while 32 fetches are outstanding. A misaligned address, or one under tag
100 or 101, stops the walker with CAUSE 1 and RANGE. PREF requests lines and goes on; a request beyond 32 is dropped.
(3) R204 to R207: ISECT writes a pair of ranks for each common bit and advances both ranks and the cursor; PART writes
the splits of a pointer array, read as its command observes memory (log entry 90). A write that fails leaves the
registers written and stops the walker with CAUSE 2; a cursor that is no side-memory target stops ISECT before any
effect. The first descending entry of PART's array, a line that cannot be read, and its failed checks stop it with
CAUSE 7. -/
def Obligations.WalkerAccesses : Prop :=
  (∀ (s : State) (cl : ClusterId) (k : Cmd) (v : Walker) (a b : WReg) (c : WCond) (o : BitVec 15),
    WalkRuns s cl k v →
    let holds : Bool := match c with
      | .eq => v.get a == v.get b
      | .ne => v.get a != v.get b
      | .lt => decide ((v.get a).toInt < (v.get b).toInt)
      | .ge => decide ((v.get b).toInt ≤ (v.get a).toInt)
      | .ltu => decide ((v.get a).toNat < (v.get b).toNat)
      | .geu => decide ((v.get b).toNat ≤ (v.get a).toNat)
    (∀ t : Nat, (t : Int) = (v.pc : Int) + o.toInt → t < k.nwords →
      exec (.wj o) s = .next (walkWent s cl v t) ∧ (holds = true → exec (.wbcc a b c o) s = .next (walkWent s cl v t))) ∧
    (holds = false → exec (.wbcc a b c o) s = .next (walkWent s cl v (v.pc + 1))) ∧
    ((v.pc : Int) + o.toInt < 0 ∨ (k.nwords : Int) ≤ (v.pc : Int) + o.toInt →
      exec (.wj o) s = .next (walkStop s cl 4 0x44 0) ∧ (holds = true → exec (.wbcc a b c o) s = .next (walkStop s cl 4 0x44 0)))) ∧
  (∀ (s : State) (cl : ClusterId) (k : Cmd) (v : Walker) (d a : WReg) (z : BitVec 2) (i : BitVec 16),
    WalkRuns s cl k v →
    let adr := v.get a + i.signExtend 64
    let line : Dword := BitVec.ofNat 64 (adr.toNat / 64 * 64)
    (adr.toNat % 2 ^ z.toNat ≠ 0 ∨ fld adr 63 61 = 4 ∨ fld adr 63 61 = 5 →
      exec (.wld d a z i) s = .next (walkStop s cl 1 0x44 adr)) ∧
    (adr.toNat % 2 ^ z.toNat = 0 → fld adr 63 61 ≠ 4 → fld adr 63 61 ≠ 5 →
      (∀ l, v.buf.find? (fun l => l.addr == line) = some l →
        ∃ buf, exec (.wld d a z i) s = .next (walkWent s cl
          { v.set d (BitVec.ofNat 64 (leNat ((l.data.drop (adr.toNat % 64)).take (2 ^ z.toNat)))) with buf := buf } (v.pc + 1))) ∧
      (v.buf.find? (fun l => l.addr == line) = none → v.fetches.any (fun p => p.1 == line) = false → v.fetches.length < 32 →
        ∃ u : Walker, exec (.wld d a z i) s = .next (s.modWalker cl (fun _ => u)) ∧
          u.fetches = v.fetches ++ [(line, some adr)] ∧ u.pc = v.pc ∧ u.count = v.count ∧ u.w = v.w) ∧
      (v.buf.find? (fun l => l.addr == line) = none → v.fetches.any (fun p => p.1 == line) = true →
        exec (.wld d a z i) s = .next (s.modWalker cl (fun _ => { v with
          fetches := v.fetches.map (fun p => if p.1 = line then (line, some adr) else p) }))) ∧
      (v.buf.find? (fun l => l.addr == line) = none → v.fetches.any (fun p => p.1 == line) = false → 32 ≤ v.fetches.length →
        exec (.wld d a z i) s = .next s)) ∧
    ∃ u : Walker, exec (.wpref d a i) s = .next (walkWent s cl u (v.pc + 1)) ∧ u.w = v.w ∧ u.count = v.count ∧
      u.emis = v.emis ∧ u.stop = v.stop ∧ (d = 0 → v.buf.any (fun l => l.addr == line) = false →
        v.fetches.any (fun p => p.1 == line) = false → v.fetches.length < 32 → u.fetches = v.fetches ++ [(line, none)]) ∧
      (32 ≤ v.fetches.length → u = v) ∧
      (∀ l, u.fetches.any (fun p => p.1 == l) = true → v.fetches.any (fun p => p.1 == l) = false →
        ∃ n : Nat, n ≤ d.toNat ∧ l = line + BitVec.ofNat 64 (64 * n))) ∧
  (∀ (s : State) (cl : ClusterId) (k : Cmd) (v : Walker) (d a b e : WReg),
    WalkRuns s cl k v →
    let A := v.get a
    let B := v.get b
    let cur := v.get e
    let q := walkRequester s k.core k.launch
    let count (m : Dword) : Nat := (List.range 64).countP (fun n => m.getLsbD n)
    let n := count (A &&& B)
    let below (m : Dword) (i : Nat) : Nat := (List.range i).countP (fun n => m.getLsbD n)
    let stopOf (f : Option (Byte × Dword)) : Option WalkStop := f.map (fun p => ⟨2, p.1, v.pc, v.get 15, p.2⟩)
    (cur.toNat % 8 ≠ 0 ∨ sideTarget cl k cur = false → exec (.isect d a b e) s = .next (walkStop s cl 2 0x44 cur)) ∧
    (cur.toNat % 8 = 0 → sideTarget cl k cur = true → emissionMeets k v.emis cur (8 * n) = false →
      savedHeld s q cur (8 * n) = false → v.stop = none →
      let pairs := ((List.range 64).filter (fun i => (A &&& B).getLsbD i)).zipIdx.map (fun p =>
        (cur + BitVec.ofNat 64 (8 * p.2),
          leBytes 8 ((fld (v.get 14) 31 0 + below B p.1) % 2 ^ 32 * 2 ^ 32 + (fld (v.get 13) 31 0 + below A p.1) % 2 ^ 32)))
      let r := walkWrites k.id q pairs (s, none)
      let u := (((v.set 13 (v.get 13 + BitVec.ofNat 64 (count A))).set 14 (v.get 14 + BitVec.ofNat 64 (count B))).set e
        (cur + BitVec.ofNat 64 (8 * n))).set d (BitVec.ofNat 64 n)
      exec (.isect d a b e) s = .next (if r.2.isSome
        then walkFinish (walkWent r.1 cl { u with stop := stopOf r.2 } (v.pc + 1)) cl else walkWent r.1 cl u (v.pc + 1))) ∧
    (fld B 63 44 ≠ 0 ∨ fld B 31 24 ≠ 0 ∨ cur.toNat % 4 ≠ 0 ∨ sideTarget cl k cur = false →
      exec (.part d a b e) s = .next (walkStop s cl 7 0x44 0)) ∧
    (fld B 63 44 = 0 → fld B 31 24 = 0 → cur.toNat % 4 = 0 → sideTarget cl k cur = true →
      A.toNat % 4 ≠ 0 ∨ fld A 63 61 = 4 ∨ fld A 63 61 = 5 → exec (.part d a b e) s = .next (walkStop s cl 7 0x44 A)) ∧
    (let np := fld B 43 32 + 1
     let nr := fld B 23 0 + 1
     let rd := readingFrom (unseenMem s k) s (fun t => readPrefix t q A (pieces A (4 * (nr + 1))))
     let ptr := ptrsOf rd.2.1
     fld B 63 44 = 0 → fld B 31 24 = 0 → cur.toNat % 4 = 0 → sideTarget cl k cur = true → A.toNat % 4 = 0 →
      fld A 63 61 ≠ 4 → fld A 63 61 ≠ 5 → emissionMeets k v.emis cur (4 * (np + 1)) = false →
      savedHeld s q cur (4 * (np + 1)) = false → accessHeld s q .read A (4 * (nr + 1)) = false → v.stop = none →
      let stopAt (st : Byte) (r : Nat) : Out := .next (walkFinish (rd.1.modWalker cl (fun w =>
        w.halt ⟨7, st, w.pc, BitVec.ofNat 64 r, A + BitVec.ofNat 64 (4 * r)⟩)) cl)
      let rising (n : Nat) : Prop := ∀ j, j + 1 < n → ptr.getD j 0 ≤ ptr.getD (j + 1) 0
      (∀ r, rising r → 0 < r → r < ptr.length → ptr.getD r 0 < ptr.getD (r - 1) 0 → exec (.part d a b e) s = stopAt 0x44 r) ∧
      (∀ st o, rising ptr.length → rd.2.2 = some (st, o) → exec (.part d a b e) s = stopAt st (o / 4)) ∧
      (rising ptr.length → rd.2.2 = none →
        let total := ptr.getD nr 0 - ptr.headD 0
        let split (n : Nat) : Nat :=
          ((List.range nr).find? (fun r => decide (n * total ≤ np * (ptr.getD r 0 - ptr.headD 0)))).getD nr
        let r := walkWrites k.id q (((List.range np).map split ++ [nr]).zipIdx.map (fun x =>
          (cur + BitVec.ofNat 64 (4 * x.2), leBytes 4 x.1))) (rd.1, none)
        let u := v.set d (BitVec.ofNat 64 total)
        exec (.part d a b e) s = .next (if r.2.isSome
          then walkFinish (walkWent r.1 cl { u with stop := stopOf r.2 } (v.pc + 1)) cl else walkWent r.1 cl u (v.pc + 1)))))

/-- (1) R206 to R209: EMIT and EMITZ start an emission and go on, waiting while four are in flight; a failed check
stops the walker with CAUSE 2 and RANGE (with ADDR 0: log entry 57). SIGB credits bytes, and END stops the command
with OK or BARRIER_STALE, once every emission is complete. (2) R194, R208 to R210: a walk that stops with no emission
in flight writes its 32-byte record, PC, CAUSE and STATUS, w15, the address and w12, retires with the status, and the
walker is free; with emissions in flight it records the first stop and lets them complete. -/
def Obligations.WalkerEmits : Prop :=
  (∀ (s : State) (cl : ClusterId) (k : Cmd) (v : Walker) (d a b e : WReg) (cr z : Bool),
    WalkRuns s cl k v →
    let dst := v.get d
    let src := v.get a
    let B := v.get b
    let E := v.get e
    let rows := fld B 43 32 + 1
    let n := fld B 19 0 + 1
    let i : Instr := if z then .emitz d b e cr else .emit d a b e cr
    let fits : Prop := fld B 63 44 = 0 ∧ fld B 31 20 = 0 ∧ dst.toNat % 4 = 0 ∧ n % 4 = 0 ∧ fld E 63 32 % 4 = 0 ∧
      fld E 31 0 % 4 = 0 ∧ rows * n ≤ 2 ^ 20 ∧ (1 < rows → n ≤ fld E 63 32) ∧ sideTarget cl k dst = true ∧
      (z = false → src.toNat % 4 = 0 ∧ fld src 63 61 ≠ 4 ∧ fld src 63 61 ≠ 5)
    (¬ fits → exec i s = .next (walkStop s cl 2 0x44 0)) ∧
    (fits →
      (v.emis.length < 4 → exec i s = .next (walkWent s cl { v with
        emis := v.emis ++ [⟨v.nextEm, dst, if z then none else some src, rows, n, fld E 63 32, fld E 31 0,
          if cr then rows * n else 0, v.pc, v.get 15⟩]
        nextEm := v.nextEm + 1 } (v.pc + 1))) ∧
      (4 ≤ v.emis.length → exec i s = .next s)) ∧
    (v.emis = [] →
      (let r := slotCredit s cl k.core k.slot k.gen k.launch (src.toNat % 2 ^ 32)
       let t := if k.bar then (if r.2 then r.1.modWalker cl (fun w => { w with stale := true }) else r.1) else s
       exec (.sigb a) s = .next (t.modWalker cl (fun w => { w with pc := w.pc + 1, count := w.count + 1 }))) ∧
      exec .wend s = .next (walkStop s cl 0 (if v.stale then 0x47 else 0) 0)) ∧
    (v.emis ≠ [] → exec (.sigb a) s = .next s ∧ exec .wend s = .next s)) ∧
  (∀ (s : State) (cl : ClusterId) (k : Cmd) (v : Walker) (cause st : Byte) (adr : Dword),
    WalkRuns s cl k v →
    (v.emis ≠ [] → walkStop s cl cause st adr = s.modWalker cl (fun w =>
      { w with stop := some (v.stop.getD ⟨cause, st, v.pc, v.get 15, adr⟩) })) ∧
    (v.emis = [] → v.stop = none → walkStop s cl cause st adr =
      (let t := placeWrite (s.modWalker cl (fun w => { w with stop := some ⟨cause, st, v.pc, v.get 15, adr⟩ }))
        (cmdPlace s k k.walkStat)
        (leBytes 8 (v.pc % 2 ^ 12 * 2 ^ 16 + cause.toNat * 2 ^ 8 + st.toNat) ++ leBytes 8 (v.get 15).toNat ++
          leBytes 8 adr.toNat ++ leBytes 8 (v.get 12).toNat)
       let u := t.modWalker cl (fun w => { w with
        cmd := none, buf := [], fetches := [], emis := [], stale := false, stop := none })
       let c := if k.bar && st != 0 && st != 0x47 then slotFault u (clusterOf k.core) k.core k.slot k.gen k.launch st else u
       retireCmd c k st adr)))

/-- (1) R100, R221, R222: a producer that completes writes its destination, which is full again, and raises its flags;
an MDRN's folds the matrix exception record in. The row's other registers, masks and memory stay. (2) R88, R100, R307:
MSCA computes A + P rs ls in its lanes, rounded once, and clears P there; it raises INVALID and OVERFLOW, and folds
and clears the matrix exception record. A parity error of P or A in its lanes is due to the row where its band is not
being pre-empted (R404, R419; log entry 34). (3) R290, R295, R302, R404: entries reach a port with room, latch bytes
the latch, and an MWL's words the lanes of W, which hold no parity error then. -/
def Obligations.RowCompletion : Prop :=
  (∀ (s : State) (r : RowId) (x : Row) (n : Nat) (p : Producer),
    s.row? r = some x → x.prods[n]? = some p → x.status = .running → p.parity = none → (∀ q ∈ x.prods, q.todo = []) →
    ∃ y : Row, exec (.producerComplete r n) s = .next (s.setRow r y) ∧ y.prods = x.prods.eraseIdx n ∧
      (∀ d L v, p.dest = .vec d L v → d.toNat < 28 → y.vFull d = true ∧ y.regs.s = x.regs.s ∧ y.regs.m = x.regs.m ∧
        (∀ i : Fin 64, (y.vget d)[i] = if L.getLsbD i then v[i] else (x.vget d)[i]) ∧
        (∀ e : Reg, e ≠ d → y.vget e = x.vget e)) ∧
      (∀ d v, p.dest = .sca d v → d ≠ 0 → y.sFull d = true ∧ y.sget d = v ∧ y.regs.v = x.regs.v ∧ y.regs.m = x.regs.m ∧
        (∀ e : Reg, e ≠ d → y.sget e = x.sget e)) ∧
      (p.fold = false → y.fp.flags = x.fp.flags ||| p.fl ∧ y.fp.mi = x.fp.mi ∧ y.fp.mo = x.fp.mo) ∧
      (p.fold = true → y.fp.mi = false ∧ y.fp.mo = false ∧ y.fp.flags = x.fp.flags ||| p.fl |||
        (if x.fp.mi then flInvalid else 0) ||| (if x.fp.mo then flOverflow else 0)) ∧
      y.pc = x.pc ∧ y.hints = x.hints ∧ y.north = x.north ∧ y.mx = x.mx) ∧
  (∀ (s : State) (r : RowId) (x : Row) (o : MscaOp), s.row? r = some x → x.mx.msca = some o →
    let lane (i : Fin 64) : Word × Bool × Bool := mscaLane (x.mx.a)[i] (x.mx.p)[i] o.rs (o.ls)[i]
    ((x.mx.pbad ||| x.mx.abad) &&& o.lanes = 0 ∨ ∀ b, s.band? x.band = some b → b.preempt = none) →
    ∃ y : Row, exec (.mscaComplete r) s = .next (s.setRow r y) ∧ y.mx.msca = none ∧ y.regs = x.regs ∧
      y.fp.mi = false ∧ y.fp.mo = false ∧ y.mx.pbad = x.mx.pbad &&& ~~~o.lanes ∧ y.mx.abad = x.mx.abad &&& ~~~o.lanes ∧
      y.ctl.parityDue = (if (x.mx.pbad ||| x.mx.abad) &&& o.lanes ≠ 0 ∧ x.ctl.parityDue = none then some (4, 0)
        else x.ctl.parityDue) ∧
      y.fp.flags = x.fp.flags |||
        (if x.fp.mi = true ∨ ∃ i : Fin 64, o.lanes.getLsbD i = true ∧ (lane i).2.1 = true then flInvalid else 0) |||
        (if x.fp.mo = true ∨ ∃ i : Fin 64, o.lanes.getLsbD i = true ∧ (lane i).2.2 = true then flOverflow else 0) ∧
      ∀ i : Fin 64, (o.lanes.getLsbD i = true → (y.mx.p)[i] = 0 ∧ (y.mx.a)[i] = (lane i).1) ∧
        (o.lanes.getLsbD i = false → (y.mx.p)[i] = (x.mx.p)[i] ∧ (y.mx.a)[i] = (x.mx.a)[i])) ∧
  (∀ (s : State) (r : RowId) (x : Row), s.row? r = some x →
    (∀ e l, x.north.transit = e :: l → x.north.fifo.length < 8 →
      exec (.portEntryArrive r) s =
        .next (s.setRow r { x with north := { x.north with fifo := x.north.fifo ++ [e], transit := l } })) ∧
    (∀ bs l, x.mx.fly = bs :: l →
      exec (.latchFill r) s = .next (s.setRow r { x with mx := { x.mx with latch := x.mx.latch ++ bs, fly := l } })) ∧
    (∀ L v l, x.mx.mwl = (L, v) :: l →
      exec (.mwlArrive r) s = .next (s.setRow r { x with mx := { x.mx with
        w := Vector.ofFn (fun i : Fin 64 => if L.getLsbD i.val then v[i.val] else x.mx.w[i.val]), mwl := l
        wbad := x.mx.wbad &&& ~~~L } })))

/-- (1) R291 to R297: a stream that can step pops its entry, takes its latch bytes, computes in its cells and forwards
the entry, MWF the partial sums, where it is not TERMINAL; R298: a stream that finds its port empty and closed
completes; R304: so does one that has made its last step, and the row's queued stream starts. A parity error that a
step would meet in a pre-emption ends the unit (R419). (2) R84 to R86, R293 to R297, R324: what a step leaves in its
row and sends on. A result-stationary step adds to P, in each active lane, the products of the next latch values with
the values of the entry, MMAS those of the kept positions; MWF adds those of the chunk with W to the partial sum that
came in; MWB appends the words of its tree to RQ. Each sum is rounded once, an infinity times zero gives a NaN and
records INVALID, and the values are those shown. The remaining cost falls by c_e once for each step of the source row,
in the rows below it too (R326; which row is the source, log entry 104). -/
def Obligations.StreamEvents : Prop :=
  (∀ (s : State) (r : RowId) (x : Row) (w : Band) (t : Stream),
    s.row? r = some x → s.band? x.band = some w → x.mx.running = some t →
    (stepReady s x w t = true → (t.terminal = true ∨ x.south.orphan = true ∨ southFull s x = false) →
      (w.preempt = none ∨ x.status = .exited ∨ stepParity s x w t = none) →
      (∀ e l, t.north = true → x.north.fifo = e :: l → exec (.streamStep r) s = .next (makeStep s r x w t e)) ∧
      (t.north = false → exec (.streamStep r) s =
        .next (makeStep s r x w t (if fld t.grant 61 60 = 2 then sideEntry s w t else zeroEntry)))) ∧
    (∀ c v, stepReady s x w t = true → (t.terminal = true ∨ x.south.orphan = true ∨ southFull s x = false) → w.preempt ≠ none →
      x.status ≠ .exited → stepParity s x w t = some (c, v) → (t.north = true → x.north.fifo ≠ []) →
      exec (.streamStep r) s = .next (endByParity s r x c v)) ∧
    (stepReady s x w t = true ↔ t.step < grantK t.grant ∧ t.starved = false ∧ x.mx.msca = none ∧ x.mx.mwl = [] ∧
      t.latchNeed ≤ x.mx.latch.length ∧
      ((t.kind = .mwb ∨ (t.kind = .mwf ∧ t.terminal = true)) → x.mx.rq.length < 4) ∧
      (fld t.grant 61 60 = 2 → sbBlocker s w.core (w.wbase + t.base + t.step * t.stride)
        (w.wbase + t.base + t.step * t.stride + 8 * w.laneW) false = none)) ∧
    (stepReady s x w t = false → (t.north = true → x.north.closed = true → x.north.fifo = [] → x.north.transit = [] → t.starved = true) →
      exec (.streamStep r) s = .next s) ∧
    (t.step < grantK t.grant → t.starved = false → x.mx.msca = none → t.north = true → x.north.fifo = [] → x.north.closed = true → x.north.transit = [] →
      exec (.streamStep r) s = .next (completeStream s r (x.streamFault true none) w t)) ∧
    (grantK t.grant ≤ t.step → exec (.streamComplete r) s = .next (completeStream s r x w t)) ∧
    (∀ (e : Entry) (n : Fin 64), t.kind = .mma → t.zp = false →
      grantAf t.grant = .i8 → grantBf t.grant = .i8 → t.lanes.getLsbD n = true → 8 ≤ x.mx.latch.length →
      ∃ y : Row, (makeStep s r x w t e).row? r = some y ∧
        (y.mx.p)[n] = (x.mx.p)[n] + BitVec.ofInt 32 ((List.range 8).foldl (fun z j =>
          z + ((x.mx.latch.getD j 0).toInt * ((e[n]).extractLsb' (8 * j) 8).toInt)) 0) ∧
        y.mx.latch = x.mx.latch.drop 8) ∧
    (x.status = .running → w.preempt = none → t.part = [] → ∃ y : Row,
      (completeStream s r x w t).row? r = some y ∧ y.mx.running = x.mx.queued ∧ y.mx.queued = none ∧
      y.mx.p = x.mx.p ∧ y.mx.rq = x.mx.rq ∧ y.regs = x.regs) ∧
    (w.preempt = some .requested → streamCanStep s x w t = false →
      exec (.streamStarved r) s = .next (s.setRow r { x with mx := { x.mx with running := some { t with starved := true } } }))) ∧
  ((∀ (s : State) (r : RowId) (x : Row) (w : Band) (t : Stream) (e : Entry),
    s.row? r = some x → s.band? x.band = some w → x.mx.running = some t → stepParity s x w t = none →
    let u := makeStep s r x w t e
    let af := grantAf t.grant
    let bf := grantBf t.grant
    let kv := perEntry bf
    let kept : List Nat := if t.kind = .mmas
      then (List.range kv).filter (fun j => Nat.testBit (t.masks.getD ((t.step * kv + j) / max 1 (cardM t.cardBytes)) 0)
        ((t.step * kv + j) % max 1 (cardM t.cardBytes)))
      else List.range kv
    let bytes := if t.kind = .mwb then 0 else kept.length * eltBits af / 8
    let a (j : Nat) : Nat := leNat (x.mx.latch.take bytes) / 2 ^ (eltBits af * j) % 2 ^ eltBits af
    let el (v : Dword) (j : Nat) : Nat := v.toNat / 2 ^ (eltBits bf * j) % 2 ^ eltBits bf
    let rs (i : Fin 64) : Word × Bool × Bool := cellStep af bf (if t.zp = true ∧ t.step = 0 then 0 else (x.mx.p)[i])
      (kept.zipIdx.map (fun q => (a q.2, el e[i] q.1)))
    let wf (i : Fin 64) : Word × Bool × Bool := cellStep af bf (e[i].setWidth 32)
      ((List.range kv).map (fun j => (a j, el (x.mx.w)[i] j)))
    let marks (y : Row) (f : Fin 64 → Word × Bool × Bool) : Prop :=
      (y.fp.mi = true ↔ x.fp.mi = true ∨ ∃ i : Fin 64, t.lanes.getLsbD i = true ∧ (f i).2.1 = true) ∧
      (y.fp.mo = true ↔ x.fp.mo = true ∨ ∃ i : Fin 64, t.lanes.getLsbD i = true ∧ (f i).2.2 = true)
    let out (i : Fin 64) : Word := if t.lanes.getLsbD i then (wf i).1 else e[i].setWidth 32
    let sent : Entry := if t.kind = .mwf then Vector.ofFn (fun i : Fin 64 => (out i).setWidth 64) else e
    (∃ y : Row, u.row? r = some y ∧ y.mx.latch = x.mx.latch.drop bytes ∧ (∃ t' : Stream, y.mx.running = some t' ∧
        t'.step = t.step + 1 ∧ (let c := t.stepCost; t'.remaining =
          if grantK t.grant * c ≤ t.remaining + t.step * c then t.remaining - c else t.remaining) ∧ t'.grant = t.grant ∧ t'.lanes = t.lanes ∧ t'.kind = t.kind) ∧
      y.north.fifo = (if t.north then x.north.fifo.tail else x.north.fifo) ∧ y.regs = x.regs ∧ y.pc = x.pc ∧ y.mx.a = x.mx.a ∧
      y.mx.w = x.mx.w ∧ y.mx.queued = x.mx.queued ∧ y.fp.flags = x.fp.flags ∧
      (t.kind = .mma ∨ t.kind = .mmas → y.mx.rq = x.mx.rq ∧ marks y rs ∧
        ∀ i : Fin 64, (y.mx.p)[i] = if t.lanes.getLsbD i then (rs i).1 else (x.mx.p)[i]) ∧
      (t.kind = .mwf → marks y wf ∧ (∀ i : Fin 64, (y.mx.p)[i] = if t.lanes.getLsbD i then (wf i).1 else (x.mx.p)[i]) ∧
        y.mx.rq = if t.terminal then x.mx.rq ++ [Vector.ofFn (fun i : Fin 64 => if i.val < w.laneW then out i else 0)]
          else x.mx.rq) ∧
      (t.kind = .mwb → y.mx.p = x.mx.p ∧
        let ws := t.part ++ (List.range kv).map (fun j => (wbWord t x.mx e w.laneW j).1)
        (w.laneW ≤ ws.length → y.mx.rq = x.mx.rq ++ [Vector.ofFn (fun i : Fin 64 => if i.val < w.laneW then ws.getD i 0 else 0)] ∧
          ∃ t', y.mx.running = some t' ∧ t'.part = ws.drop w.laneW) ∧
        (ws.length < w.laneW → y.mx.rq = x.mx.rq ∧ ∃ t', y.mx.running = some t' ∧ t'.part = ws))) ∧
    (t.kind = .mwb → af = .i8 → bf = .i8 → ∀ j, (wbWord t x.mx e w.laneW j).1 = BitVec.ofInt 32 (((List.range w.laneW).map
      (fun n => if t.lanes.getLsbD n then ((BitVec.ofNat 8 (entryAt e n)).toInt) *
        ((BitVec.ofNat 8 (el (BitVec.ofNat 64 (entryAt x.mx.w n)) j)).toInt) else 0)).sum)) ∧
    (t.kind = .mwb → af = .bf16 → bf = .bf16 → w.laneW = 16 → t.lanes = 3 → entryAt e 0 = 0x3F80 → entryAt e 1 = 0x4000 →
      entryAt x.mx.w 0 = 0x4040 → entryAt x.mx.w 1 = 0x4080 → wbWord t x.mx e w.laneW 0 = (0x41300000, false, false)) ∧
    (t.terminal = true → ∀ q : RowId, q ≠ r → u.row? q = s.row? q) ∧
    (t.terminal = false → x.south.orphan = false → ∀ (q : RowId) (z : Row), x.south.dest = some q → q ≠ r → s.row? q = some z →
      let paid := z.mx.payEntry (z.north.fifo.length + z.north.transit.length)
      let next (m : Matrix) : Row := { z with mx := m, north := { z.north with transit := z.north.transit ++ [sent] } }
      (sourceRow s r t = false → u.row? q = some (next z.mx)) ∧
      (sourceRow s r t = true → paid.2 = false ∨ z.south.orphan = true ∨ z.south.dest = none →
        u.row? q = some (next paid.1))) ∧
    (∀ (i : Nat) (v : Stream), x.mx.running = some v → v.north = true → v.step + i < grantK v.grant →
      x.mx.payEntry i = ({ x.mx with running := some (v.pay (v.step + i)) }, !v.terminal))) ∧
  cellStep .bf16 .bf16 0x3F800000 [(0x4000, 0x4040)] = (0x40E00000, false, false) ∧
  cellStep .bf16 .bf16 0x3F800000 [(0x3980, 0x3980), (0x3980, 0x3980)] = (0x3F800001, false, false) ∧
  cellStep .f16 .f16 0 [(0x7C00, 0)] = (0x7FC00000, true, false) ∧
  cellStep .f16 .f16 0x7F800000 [(0xFC00, 0x3C00)] = (0x7FC00000, true, false) ∧
  cellStep .bf16 .bf16 0x7F7FFFFF [(0x7F7F, 0x3F80)] = (0x7F800000, false, true) ∧
  cellStep .bf16 .bf16 0x7FC00001 [(0, 0)] = (0x7FC00000, false, false) ∧
  cellStep .e4m3 .e5m2 0 [(0x38, 0x3C), (0x40, 0x40)] = (0x40A00000, false, false) ∧
  cellStep .q16 .bf16 0 [(14, 0x3F80)] = (0x3F3C0000, false, false) ∧
  cellStep .i8 .i8 0x7FFFFFFF [(2, 1), (0xFF, 2)] = (0x7FFFFFFF, false, false))

/-- (1) R268, R270, R394, R395: a row that runs receives the word at its PC, or traps with ILLEGAL and the status of
the fetch, and waits while the memory cannot answer (R107, R118; log entry 68); a YIELD's interval ends; a wait that
has reached the limit of its domain traps with WATCHDOG, and the LNCH or EVSIG that waits is withdrawn with it (the
model's choice, log entry 76). A PARITY that is due is taken in place of either trap (R399). (2) R371, R378, R388:
BARRIER_RELEASE gives a waiting row that nothing holds its result and the row goes on, unless its count has reached
its limit (R395); the slew limiter releases a GBAR's clusters four of a die at a time. (3) R449, R451: a PC sample of
a traced launch is a record of type 7 with the PC and the stall reason, 0 where the row has issued in the V-cycle; the
trace port takes the oldest record of a ring, the rings of the dies in turn. -/
def Obligations.RowTimers : Prop :=
  (∀ (s : State) (r : RowId) (x : Row) (w : Band), s.row? r = some x → s.band? x.band = some w →
    (rowHeld s r x = false → x.ibuf = none → fetchHeld s r.core (s.bandAsid w) x.pc = true →
      exec (.instructionFetchComplete r) s = .next s) ∧
    (rowHeld s r x = false → x.ibuf = none → fetchHeld s r.core (s.bandAsid w) x.pc = false →
      (∀ t v, fetchWord s r.core (s.bandAsid w) x.pc = (t, .ok v) →
        exec (.instructionFetchComplete r) s = .next (t.setRow r { x with ibuf := some v })) ∧
      (∀ t st, fetchWord s r.core (s.bandAsid w) x.pc = (t, .error st) →
        (x.ctl.parityDue = none → exec (.instructionFetchComplete r) s = .next (takeTrap t r x 0x01 st 0 x.pc)) ∧
        (∀ c v, x.ctl.parityDue = some (c, v) → exec (.instructionFetchComplete r) s =
          .next (takeTrap t r { x with ctl := { x.ctl with parityDue := none } } 0x16 c 0 v)))) ∧
    (x.ctl.yieldLeft = 1 →
      exec (.yieldIntervalEnd r) s = .next (s.setRow r { x with ctl := { x.ctl with yieldLeft := 0 } })) ∧
    (∀ q : WaitRec, rowHeld s r x = false → x.ctl.wait = some q → q.dom = .v → fld x.csr.wdlim 4 0 ≠ 0 →
      2 ^ max (fld x.csr.wdlim 4 0) 10 ≤ q.count →
      (x.ctl.parityDue = none →
        exec (.watchdog r) s = .next (takeTrap s r { x with ctl := { x.ctl with lnch := none, evsig := none } } 0x10 1 0
          (BitVec.ofNat 64 (2 ^ max (fld x.csr.wdlim 4 0) 10)))) ∧
      (∀ c v, x.ctl.parityDue = some (c, v) → exec (.watchdog r) s = .next (takeTrap s r { x with ctl := { x.ctl with
        lnch := none, evsig := none, parityDue := none } } 0x16 c 0 v))) ∧
    (∀ d : Reg, exec (.paceevRead r d) s = .next (s.setRow r
      { x.sset d (x.csr.paceev.setWidth 64) with csr := { x.csr with paceev := 0 } })) ∧
    (∀ v : Dword, (x.isLead w = true → exec (.pacereqWrite r v) s = .next (s.modBand w.id (fun b =>
        { b with pacereq := pacereqNew b.pacereq v }))) ∧
      (x.isLead w = false → exec (.pacereqWrite r v) s = .next s))) ∧
  (∀ (s : State) (r : RowId) (x : Row) (w : Band) (q : BarWait) (v : Dword) (l : Launch) (d : DieId),
    s.row? r = some x → s.band? x.band = some w → x.ctl.barrier = some q → x.ctl.trap = none → q.gbar = false →
    q.result = some v →
    (watchdogDue x ≠ none → exec (.barrierRelease r) s = .next s) ∧
    (paceHeld s r x = false → preempting s x = false → watchdogDue x = none →
      exec (.barrierRelease r) s = .next ((s.setRow r (retireRow
        ({ x with
          csr := { x.csr with
            bslot := v.extractLsb' 8 6
            blast := v.setWidth 8
            bwany := if q.gens.isEmpty then x.csr.bwany else x.csr.bwany + 1 }
          ctl := { x.ctl with barrier := none } }.sset x.waitD v) (s.stampAt r))).bump)) ∧
    (paceHeld s r x = true → exec (.barrierRelease r) s = .next s) ∧
    (s.launch? l.id = some l → l.gbarOut.Nodup →
      exec (.gbarSlewRelease l.id d) s = .next (s.modLaunch l.id (fun k => { k with
        gbarOut := k.gbarOut.filter (fun p => !(((k.gbarOut.filter (fun q => q.1 == d)).take 4).contains p)) })) ∧
      (l.gbarOut.filter (fun p => !(((l.gbarOut.filter (fun q => q.1 == d)).take 4).contains p))).length + 4 ≥
        l.gbarOut.length)) ∧
  (∀ (s : State) (g : CoreId) (p : Nat) (r : RowId) (x : Row) (w : Band) (d : DieId),
    (s.row? r = some x → s.band? x.band = some w → (s.die (dieOf g)).trSmp = true →
      nextSampled s g p ((s.core g).sampler[p]?.getD 0) = some r →
      ∃ t : State, exec (.pcSample g p) s = .next (traceRecord t w.launch g (some r) 7 x.pc.toNat
          (if x.ctl.stamp = s.stampAt r then 0 else stallReason t r x)) ∧ t = { s with cores := t.cores }) ∧
    (let holds (k : DieId) : Prop := (s.die k).trRd ≠ (s.die k).trWr
     holds d → (∀ i : Nat, i < (d - s.tracePort).toNat → ¬ holds (s.tracePort + BitVec.ofNat 2 i)) →
      exec (.tracePortSend d) s = .next { s.modDie d (fun k => { k with trRd := k.trRd + 1 }) with tracePort := d + 1 }))

/-- (1) R131, R147: a line of a shuttle command that nothing holds back is read and written, or fails and leaves its
destination as it was; the command retires with its last line. It reads memory without what other commands in flight
have written (R148; log entry 90), so plain memory where none has written, and waits for main memory (log entry 68).
One line copied to a good place of main memory carries its bytes. (2) R147, R152, R165, R166: a command that retires
leaves its queue and its scoreboards, counts in its batch, with the first failing unit's status and address, and what
it wrote is observed from then on (R148; log entry 90). With BAR it credits its slot with its bytes; a credit for
another generation or owner is counted as stale. -/
def Obligations.ShuttleLine : Prop :=
  (∀ (s : State) (k : Cmd) (q b : Nat) (f : Bool),
    s.cmd? k.id = some k → k.cls = .sh → cmdStopped s k = false → (q, b) ∈ k.linesLeft → k.sparse = false →
    heldByEarlier s k q b = false →
    let c := coreRequester s k.core k.launch f
    (lineHeld s c (k.line q b) = true → exec (.shuttleLineComplete k.id q b f) s = .next s) ∧
    (lineHeld s c (k.line q b) = false →
    let r := doLine (unseenMem s k) s c (k.line q b)
    let k' : Cmd := { k with
      done := k.done ++ [lineOrder q b]
      fails := match r.2 with
        | some p => k.fails ++ [(lineOrder q b, p.1.status, p.2)]
        | none => k.fails }
    let t := (if r.2.isSome then r.1 else r.1.noted s k.id (lineKeys s k q b)).modCmd k.id (fun _ => k')
    (k'.linesLeft ≠ [] → exec (.shuttleLineComplete k.id q b f) s = .next t) ∧
    (∀ g : RowId, k'.linesLeft = [] → k.src = .row g →
      exec (.shuttleLineComplete k.id q b f) s = .next (retireCmd t k' k'.outcome.1 k'.outcome.2)) ∧
    (r.2.isSome = true → r.1.mem = s.mem) ∧
    (s.notes = [] → unseenMem s k = s.mem) ∧
    (∀ (d a : Dword) (n y : Nat) (bs : List Byte), k.line q b = [⟨d, .addr a, n⟩] → 0 < n → d.toNat % 64 + n ≤ 64 →
      let v := readAddr { s with mem := unseenMem s k } c a n
      let u : State := { v.1 with mem := s.mem }
      v.2 = .ok bs → bs.length = n → resolve u c .write d n = .ok (.hbm y) → writeFails u (.hbm y) n = false →
      resolve (walked u c .write d n) c .write d n = .ok (.hbm y) → writeFails (walked u c .write d n) (.hbm y) n = false →
      s.mem.wf = true → c.link = false → r.2 = none ∧ memRead r.1.mem y n = bs))) ∧
  (∀ (s : State) (k : Cmd) (r : RowId) (x : Row) (st : Byte) (ad : Dword),
    k.src = .row r → s.row? r = some x → x.band = k.band →
    let t := retireCmd s k st ad
    let cl := clusterOf k.core
    let u := (s.cluster cl).slots[k.slot.toNat]
    let hits : Bool := u.gen == k.gen && u.owner == some k.launch
    t.cmds = s.cmds.filter (fun c => c.id != k.id) ∧ t.notes = settledNotes k.id [] s.notes ∧
    (k.bar = false ∨ k.credit = 0 ∨ hits = false →
      t.row? r = some (x.modCls k.cls (fun c => c.retire k.batch k.pos st ad)) ∧ (∀ q, q ≠ r → t.row? q = s.row? q)) ∧
    (k.bar = false ∨ k.credit = 0 → t.clusters = s.clusters) ∧
    (k.bar = true → k.credit ≠ 0 → hits = false → t.clusters = (countStale s cl k.launch).clusters) ∧
    (k.bar = true → k.credit ≠ 0 → hits = true → (t.cluster cl).slots[k.slot.toNat] =
      ({ u with rb := max (-(2 ^ 48 : Int)) (u.rb - k.credit) }).settle) ∧
    (∀ (d a b : Reg) (br d3 : Bool) (z : BitVec 2), k.instr = .shcp d a b br d3 ∨ k.instr = .shset d a b z br d3 →
      k.credit = (fld (k.op 2) 23 0 + 1) * (fld (k.op 2) 39 24 + 1) * (fld (k.op 2) 55 40 + 1)) ∧
    (∀ (d a b : Reg) (br ix o : Bool) (p : SredOp),
      k.instr = .gath d a b br ix ∨ k.instr = .scat d a b br ix ∨ k.instr = .sred d a b p o br ix →
      k.credit = (fld (k.op 2) 7 0 + 1) * (4 * (fld (k.op 2) 21 12 + 1))))

/-- (1) R173 to R179: a position of a GATH or SCAT that nothing holds back moves between its slot and its element, or
fails, under an address of tag 000; the fault vector is written and the command retires with the last position. A GATH
whose address is out of range clears its slot. (2) R180 to R183: SRED_COMBINE leaves out the positions that fail and
combines the slots of each distinct index in ascending order of position; SRED_UPDATE_APPLY updates an element as a
whole, or fails every position combined into it. -/
def Obligations.ElementEvents : Prop :=
  (∀ (s : State) (k : Cmd) (p : Nat) (f : Bool),
    s.cmd? k.id = some k → k.cls = .gs → k.sredForm = none → cmdStopped s k = false → p ∈ k.positionsLeft →
    gsHeld s k (elementKeys s k p) = false → scatHeld s k p (elementKeys s k p) = false →
    (elementHeld s k p f = true → exec (.gsElementComplete k.id p f) s = .next s) ∧
    (elementHeld s k p f = false →
    let r := if k.isGath then gathPosition s k p f else scatPosition s k p f
    let k' : Cmd := { k with
      done := k.done ++ [p]
      fails := match r.2 with
        | some st => k.fails ++ [(p, st, k.eaAddr p)]
        | none => k.fails }
    let t := r.1.modCmd k.id (fun _ => k')
    (k'.positionsLeft ≠ [] → exec (.gsElementComplete k.id p f) s = .next t) ∧
    (k'.positionsLeft = [] → exec (.gsElementComplete k.id p f) s = .next (retireCmd
      (placeWrite t (cmdPlace t k' k'.statOff) (faultVector k'.count (fun p => k'.fails.any (fun f => f.1 == p))))
      k' k'.outcome.1 k'.outcome.2)) ∧
    fld (k.eaAddr p) 63 61 = 0 ∧
    (k.badIx p = false → k.eaAddr p = BitVec.ofNat 64 ((k.base + k.idx.getD p 0 * k.stride) % 2 ^ 61)) ∧
    (k.isGath = true → k.badIx p = false → 2 ^ 52 < k.base + k.idx.getD p 0 * k.stride + k.esz →
      r.2 = some 0x44 ∧ r.1 = (gathWrite s k p (List.replicate k.esz 0)).1) ∧
    (k.isGath = false → r.2.isSome = true → r.1.mem = s.mem))) ∧
  (∀ (s : State) (k : Cmd) (op : SredOp) (o : Bool) (f : Bool),
    s.cmd? k.id = some k → k.sredForm = some (op, o) →
    (k.combined = false →
      (s.cmds.takeWhile (fun e => e.id != k.id)).any (fun e => e.core == k.core && e.sredForm.isSome && !e.combined) = false →
      sredHeld s k = false →
      let t := sredWalked s k
      let ok := (List.range k.count).filter (fun p => (combineStatus t k p).isNone)
      ∃ k' : Cmd, exec (.sredCombine k.id) s = .next (gsNote t k' [] none) ∧ k'.combined = true ∧ k'.id = k.id ∧
        (∀ u ∈ k'.groups, u.p ∈ ok ∧ u.addr = BitVec.ofNat 64 (k.ea u.p) ∧
          u.words = combineGroup t k op (ok.filter (fun q => k.idx.getD q 0 == k.idx.getD u.p 0)) ∧
          ∀ q ∈ ok, k.idx.getD q 0 = k.idx.getD u.p 0 → u.p ≤ q) ∧
        (∀ p ∈ ok, ∃ u ∈ k'.groups, k.idx.getD u.p 0 = k.idx.getD p 0) ∧
        (∀ p, p ∈ k'.done ↔ p < k.count ∧ p ∉ ok)) ∧
    (∀ (u : SredGroup), k.groups.find? (fun v => v.p == u.p) = some u → gsHeld s k (elementKeys s k u.p) = false →
      elementHeld s k u.p f = false →
      let r := applyUpdate s (gsRequester s k f) op u.addr k.esz u.words
      let t := if r.2.isSome then r.1 else r.1.noted s k.id (elementKeys s k u.p)
      let k' : Cmd := { k with groups := k.groups.filter (fun v => v.p != u.p) }
      exec (.sredUpdateApply k.id u.p f) s = .next (gsNote t k' (sameIndex k' k'.positionsLeft u.p) r.2) ∧
      (r.2.isSome = true → r.1.mem = s.mem)))

/-- (1) R438 to R440: the acknowledgement of a line that was sent finishes it; a command that takes longer than its
limit retires with LINK. (2) R428, R434 to R436, R442: an access of a peer is performed under PEERASID where EN is
set, and acknowledged with its status, a read with its data as well, a signal as an event slot is updated; a flit for
another device leaves by its port; nothing leaves by a port that is down or leads nowhere (log entry 92); 16 failing
flits in a row bring a link down, which the host link reports (R428); an NRED keeps what its children send, and fails
where the operation or the length differs; a join records NonFinite of what it makes (R442). -/
def Obligations.NetworkEvents : Prop :=
  (∀ (s : State) (k : Cmd) (l : Nat) (st : Byte),
    s.cmd? k.id = some k → k.cls = .nw →
    (netHeld s k l = true → exec (.networkAck k.id l st []) s = .next s) ∧
    (l ∈ k.sent → l ∉ k.done → netHeld s k l = false → (∀ d a b, k.instr ≠ .nget d a b) →
      exec (.networkAck k.id l st []) s =
        .next (noteUnit s k l (if st = 0 then none else some (st, netAddr k l)) (fun j => !j.netLeft.isEmpty))) ∧
    (∀ (d a : Reg) (b : Bool) (bs : List Byte), k.instr = .nget d a b → l ∈ k.sent → l ∉ k.done →
      bs.length = blockLen k.lineBase k.bytes l → netHeld s k l = false →
      exec (.networkAck k.id l 0 bs) s = .next (netFinish s k l 0 bs)) ∧
    (netLimit s ≤ k.timer →
      exec (.networkTimeout k.id) s = .next (retireCmd
        { s with net := { s.net with nred := s.net.nred.filter (fun n => n.cmd != k.id) } } k 0x46
        (netAddr k ((k.netLeft.head?).getD 0))))) ∧
  (∀ (s : State) (src : BitVec 12) (acc : PeerAccess) (dst : BitVec 12) (bs : List Byte) (p : Fin 12),
    (s.peersUp = false → exec (.peerAccessArrival src acc) s = .next s ∧ exec (.peerFlitForward dst bs) s = .next s) ∧
    (portUp s dst = false → exec (.peerFlitForward dst bs) s = .next s) ∧
    (s.peersUp = true → s.net.peerEn = false → portUp s src = false → exec (.peerAccessArrival src acc) s = .next s) ∧
    (s.peersUp = true → s.net.peerEn = false →
      exec (.peerAccessArrival src acc) s = .next (sendPeer s src (.ack src 0x42 []))) ∧
    (∀ va data, s.peersUp = true → s.net.peerEn = true → acc = .write va data → peerHeld s acc = false →
      let r := writeAddr s (peerRequester s) (va.setWidth 64) data
      exec (.peerAccessArrival src acc) s = .next (sendPeer r.1 src (.ack src (r.2.elim 0 Fail.status) []))) ∧
    (∀ va n, s.peersUp = true → s.net.peerEn = true → acc = .read va n → peerHeld s acc = false →
      let r := readAddr s (peerRequester s) (va.setWidth 64) n
      (∀ d, r.2 = .ok d → exec (.peerAccessArrival src acc) s = .next (sendPeer r.1 src (.ack src 0 d))) ∧
      (∀ e, r.2 = .error e → exec (.peerAccessArrival src acc) s = .next (sendPeer r.1 src (.ack src e.status [])))) ∧
    (∀ va v set, s.peersUp = true → s.net.peerEn = true → acc = .signal va v set → peerHeld s acc = false →
      let r := updateSlot s (peerRequester s) (va.setWidth 64) v set
      exec (.peerAccessArrival src acc) s = .next (sendPeer r.1 src (.ack src r.2 []))) ∧
    (∀ q, routePort s dst = some q → dst ≠ s.net.devid → portUp s dst = true → s.peersUp = true →
      exec (.peerFlitForward dst bs) s = .next (sendPeer s dst (.forward dst (BitVec.ofNat 4 q) bs))) ∧
    (s.net.ports[p.val].down = false → s.net.ports[p.val].fails < 15 →
      exec (.peerFlitCrcError p.val) s = .next { s with net := { s.net with
        ports := s.net.ports.set p.val ⟨false, s.net.ports[p.val].fails + 1⟩ p.isLt } }) ∧
    (s.net.ports[p.val].down = false → 15 ≤ s.net.ports[p.val].fails →
      ∃ t : State, exec (.peerFlitCrcError p.val) s = .next t ∧ (t.net.ports[p.val]).down = true ∧
        t.mgmt.msix = s.mgmt.msix ++ [19]) ∧
    (s.treadle.down = false →
      exec .treadleFlitCrcError s = .next { s with
        treadle := ⟨decide (15 ≤ s.treadle.fails), s.treadle.fails + 1⟩
        mgmt := { s.mgmt with aer := s.mgmt.aer + if 15 ≤ s.treadle.fails then 1 else 0 } }) ∧
    nredJoin .addF32 ([0x7F7FFFFF], 0, false) ([0x7F7FFFFF], 0, false) = ([0x7F800000], 1, false) ∧
    nredJoin .addF32 ([0x7F800000], 1, false) ([0xFF800000], 1, false) = ([0x7FC00000], 3, false) ∧
    (∀ (k : Cmd) (op : SredOp) (n : NredState) (v : NredPart) (nf : BitVec 2) (bad : Bool),
      s.cmd? k.id = some k → k.nredOp = some op → s.net.nred.find? (fun n => n.cmd == k.id) = some n →
      let w := (v.words, nf, bad || v.op != op || v.words.length * 4 != k.bytes)
      (n.child0 = none → exec (.nredReceive k.id .child0 v nf bad) s = .next (nredAdvance
        { s with net := { s.net with nred := s.net.nred.map (fun m => if m.cmd = k.id then
          { m with child0 := some w } else m) } } k op)) ∧
      (n.child1 = none → exec (.nredReceive k.id .child1 v nf bad) s = .next (nredAdvance
        { s with net := { s.net with nred := s.net.nred.map (fun m => if m.cmd = k.id then
          { m with child1 := some w } else m) } } k op)) ∧
      (n.sentUp = true → nredHeld s k = false → exec (.nredReceive k.id .parent v nf bad) s = .next (nredFinish s k op w))))

/-- R188, R193 to R197, R201, R208: a walker without a command starts the head of its queue: its program, resident or
loaded under its tag, its argument block in w1 to w8, its entry; a load that fails stops it with CAUSE 6 and leaves no
image, and an argument block that cannot be read stops it at ENTRY with the block's address (log entry 38); it reads
memory without what other commands in flight have written (R148; log entry 90); a line awaited arrives, or stops the
LD that waits for it; an emission is written and credited; a word that decodes to no walker instruction stops it with
CAUSE 3, and the 2^32th instruction with CAUSE 5. -/
def Obligations.WalkerEvents : Prop :=
  ∀ (s : State) (cl : ClusterId) (k : Cmd) (v : Walker),
    s.walker cl = v →
    (v.cmd = none → walkHead s v = some k → v.resume.find? (fun r => r.cmd == k.id) = none →
      let q := walkRequester s k.core k.launch
      let tag := some (q.asid, k.op 0, k.nwords)
      let u := s.modWalker cl (fun _ => { v with
        cmd := some k.id, queue := v.queue.filter (fun c => c != k.id), resume := v.resume.filter (fun r => r.cmd != k.id)
        buf := [], fetches := [], emis := [], stale := false, stop := none, pc := k.entry, count := 0 })
      let r := readingFrom (unseenMem u k) u (fun t => readLines t q (k.op 0) (pieces (k.op 0) (4 * k.nwords)))
      let place := cmdPlace r.1 k k.argsOff
      (k.reload = true ∨ v.tag ≠ tag →
        (accessHeld s q .read (k.op 0) (4 * k.nwords) = true → exec (.walkerCommandStart cl) s = .next s) ∧
        (accessHeld s q .read (k.op 0) (4 * k.nwords) = false →
          (∀ bs, r.2 = .ok bs → readFails r.1 place 64 = false → exec (.walkerCommandStart cl) s =
            .next (r.1.modWalker cl (fun w => { w with tag := tag, prog := wordsOf bs, w := argRegs (seenBytes r.1 k place 64) }))) ∧
          (∀ st a, r.2 = .error (st, a) → exec (.walkerCommandStart cl) s = .next (walkFinish (r.1.modWalker cl (fun w =>
            ({ w with tag := none, prog := [] } : Walker).halt ⟨6, st, k.entry, w.get 15, a⟩)) cl)))) ∧
      (k.reload = false → v.tag = tag → readFails s (cmdPlace s k k.argsOff) 64 = true →
        exec (.walkerCommandStart cl) s = .next (walkFinish (u.modWalker cl (fun w =>
          { w with stop := some ⟨Config.argumentCause k.id, 0x43, k.entry, w.get 15,
            sideLqa k.core (cmdBase s k + k.argsOff)⟩ })) cl))) ∧
    (v.cmd = none → walkHead s v = some k → v.resume.find? (fun r => r.cmd == k.id) = none → k.reload = false →
      v.tag = some ((walkRequester s k.core k.launch).asid, k.op 0, k.nwords) →
      readFails s (cmdPlace s k k.argsOff) 64 = false →
      exec (.walkerCommandStart cl) s = .next (s.modWalker cl (fun _ => { v with
        cmd := some k.id, queue := v.queue.filter (fun c => c != k.id), resume := v.resume.filter (fun r => r.cmd != k.id)
        buf := [], fetches := [], emis := [], stale := false, stop := none, pc := k.entry, count := 0
        w := argRegs (seenBytes s k (cmdPlace s k k.argsOff) 64) }))) ∧
    (v.cmd = some k.id → s.cmd? k.id = some k →
      (∀ (line : Dword) (want : Option Dword), v.fetches.find? (fun p => p.1 == line) = some (line, want) →
        accessHeld s (walkRequester s k.core k.launch) .read line 64 = false →
        let r := readingFrom (unseenMem s k) s (fun t => readAddr t (walkRequester s k.core k.launch) line 64)
        let u := r.1.modWalker cl (fun w => { w with fetches := w.fetches.filter (fun p => p.1 != line) })
        (∀ bs, r.2 = .ok bs → exec (.walkerLoadData cl line) s =
          .next (u.modWalker cl (fun w => { w with buf := ⟨line, bs⟩ :: w.buf }))) ∧
        (∀ f a, r.2 = .error f → want = some a → exec (.walkerLoadData cl line) s = .next (walkStop u cl 1 f.status a)) ∧
        (∀ f, r.2 = .error f → want = none → exec (.walkerLoadData cl line) s = .next u)) ∧
      (∀ m : Emission, v.emis.find? (fun e => e.id == m.id) = some m →
        emissionMeets k (v.emis.takeWhile (fun e => e.id != m.id)) m.dst ((m.rows - 1) * m.drs + m.bytes) = false →
        lineHeld s (walkRequester s k.core k.launch) m.lines = false →
        let r := emitLines k (walkRequester s k.core k.launch) m.lines (s, none)
        let t := (if m.credit = 0 then r.1 else walkCredit r.1 cl k m.credit).modWalker cl
          (fun w => { w with emis := w.emis.filter (fun e => e.id != m.id) })
        exec (.walkerEmissionComplete cl m.id) s = .next (walkFinish (match r.2 with
          | some (st, a) => t.modWalker cl (fun w => w.halt ⟨2, st, m.pc, m.elem, a⟩)
          | none => t) cl)) ∧
      (∀ x, v.prog[v.pc]? = some x → decodeWalker x = none →
        exec (.illegalWalkerWord cl) s = .next (walkStop s cl 3 0x44 0)) ∧
      (2 ^ 32 ≤ v.count → exec (.walkerInstructionLimit cl) s = .next (walkStop s cl 5 0x44 0)))

/-- (1) R8, R352, R353: a write of a register of the management space acts under its access codes: here ROOT, HOLDLIM,
the queue's TAIL, the read-only BOOTSTAT, DEVID once LOCK is set, and the counters of a channel, whose bits a 1
clears. The reading of the last is the model's (log entry 51). (2) R128, R129: XINVC with GO starts an invalidation of
the entries that XINVA, its ASID and SCOPE name; when it is done no cache holds such an entry. A walk that ends
inserts its leaf where the leaf allows a read or a write, but nothing while an invalidation is in progress; one that
waits for main memory goes on (log entries 12, 68). (3) R120, R428, R430 to R432: a host access is served, held during
a freeze with the window base that it met, or lost while the treadle is down, but for the adapter's own registers (log
entry 69). BAR2 reaches main memory through WINBASE once the device is ready; a held read that has waited HOLDLIM
completes with Completer Abort and is counted. -/
def Obligations.HostRegisters : Prop :=
  (∀ (s : State) (v : Dword) (n : Fin 64) (q : BitVec 4) (ch : Fin 384),
    (∃ t : State, exec (.registerWrite (0x10000 + 8 * n.val) v) s = .next t ∧
      t.regs.roots[n.val] = v &&& 0xFFFFFFF005 ∧ (∀ k : Fin 64, k ≠ n → t.regs.roots[k.val] = s.regs.roots[k.val]) ∧
      t = { s with regs := { s.regs with roots := t.regs.roots } }) ∧
    exec (.registerWrite 0x60008 v) s = .next { s with regs := { s.regs with holdlim := v.setWidth 6 } } ∧
    exec (.registerWrite 0 v) s = .next s ∧
    (s.net.lock = true → exec (.registerWrite 0x51000 v) s = .next s) ∧
    (s.mgmt.bootState ≠ 2 → exec (.registerWrite (0x30000 + 0x40 * q.toNat + 0x18) v) s =
      .next (s.modQueue q (fun k => k.putTail (v.setWidth 12)))) ∧
    (s.mgmt.bootState ≠ 2 → exec (.qtailWrite q v) s = .next (s.modQueue q (fun k => k.putTail (v.setWidth 12)))) ∧
    (∃ t : State, exec (.registerWrite (0x20000 + 0x100 * (ch.val / 32) + 4 * (ch.val % 32)) v) s = .next t ∧
      (t.chans[ch.val]).cecnt = (s.chans[ch.val]).cecnt &&& ~~~v.extractLsb' 16 16 ∧
      (t.chans[ch.val]).failed = (s.chans[ch.val]).failed)) ∧
  (∀ (s : State) (v : Dword) (k : CacheId) (asid : BitVec 6) (va : BitVec 52),
    (v.getLsbD 0 = true → fld v 5 4 ≠ 3 → s.regs.invalidating = none →
      exec (.xinvcGo v) s = .next { s with regs := { s.regs with
        xinvc := v &&& 0xFF0, invalidating := some (s.regs.xinva, v) } }) ∧
    (∀ a c, s.regs.invalidating = some (a, c) → ∃ t : State, exec .invalidationDone s = .next t ∧
      t.regs.invalidating = none ∧ (∀ p, p ∈ t.tcache ↔ p ∈ s.tcache ∧ namedBy a c p.2 = false) ∧
      (∀ e ∈ t.tables, e ∈ s.tables ∧ e.asid.toNat ≠ fld c 11 6) ∧ t.mem = s.mem) ∧
    let waits := walkHeld s (cacheWalker k) s.crossFail asid va.toNat
    let found := walkRoot s (cacheWalker k) s.crossFail asid va.toNat
    (waits = true → exec (.translationWalkComplete k asid va) s = .next s) ∧
    (∀ e b, waits = false → found = .ok (e, b) →
      (s.regs.invalidating ≠ none ∨ (leafAllows e .read = false ∧ leafAllows e .write = false)) →
      ∃ t : State, exec (.translationWalkComplete k asid va) s = .next t ∧ t.tcache = s.tcache ∧ t.tables = s.tables ∧
        t.mem = s.mem ∧ t.rows = s.rows ∧ t.regs = s.regs) ∧
    (∀ e b, waits = false → found = .ok (e, b) → s.regs.invalidating = none →
      (leafAllows e .read = true ∨ leafAllows e .write = true) →
      ∃ t : State, exec (.translationWalkComplete k asid va) s = .next t ∧
        (k, (⟨asid, b, va.toNat / 2 ^ b, e⟩ : Translation)) ∈ t.tcache ∧ t.mem = s.mem ∧ t.rows = s.rows) ∧
    (∀ st, waits = false → found = .error st →
      ∃ t : State, exec (.translationWalkComplete k asid va) s = .next t ∧ t.tcache = s.tcache ∧ t.tables = s.tables)) ∧
  (∀ (s : State) (off n : Nat) (bs : List Byte),
    (s.treadle.down = false → s.freeze = .none → off < 2 ^ 25 →
      exec (.hostRead (.bar0 off) n) s = .next (replyHost (passTreadle s)
        (some ((List.range n).map (fun i => mgmtByte (passTreadle s) (off + i)))))) ∧
    (s.treadle.down = false → s.mgmt.bootState = 1 → s.freeze = .none → off < 2 ^ 36 → s.regs.winbase.toNat ≤ 8 →
      let pa := s.regs.winbase.toNat * 2 ^ 36 + off
      (∀ a : Nat, s.paFailed a = false ∧ s.paBad a = false) → s.crossFail = false → pa + n ≤ hbmEnd →
      physHeld s pa n = false →
      (∃ t : State, exec (.hostRead (.bar2 off) n) s = .next t ∧
        t.mgmt.replies = s.mgmt.replies ++ [some (memRead s.mem pa n)] ∧ t.mem = s.mem) ∧
      (bs.length = n → s.mem.wf = true → ∃ t : State, exec (.hostWrite (.bar2 off) bs) s = .next t ∧ memRead t.mem pa n = bs ∧
        ∀ k, (k < pa ∨ pa + n ≤ k) → memGet t.mem k = memGet s.mem k)) ∧
    (s.freeze = .gated → s.treadle.down = false → s.mgmt.bootState = 1 → off < 2 ^ 36 →
      exec (.hostRead (.bar2 off) n) s = .next { s with heldHost := s.heldHost ++ [.read (.bar2 off) n s.regs.winbase] } ∧
      ((s.heldHost.map (fun h => match h with | .write _ d _ => d.length | .read .. => 0)).sum + bs.length ≤ 2 ^ 18 →
        exec (.hostWrite (.bar2 off) bs) s = .next { s with heldHost := s.heldHost ++ [.write (.bar2 off) bs s.regs.winbase] })) ∧
    (s.treadle.down = true → exec (.hostRead (.bar2 off) n) s = .next s ∧ exec (.hostWrite (.bar2 off) bs) s = .next s ∧
      (off < 0x60000 ∨ 0x60018 ≤ off → exec (.hostRead (.bar0 off) n) s = .next s ∧ exec (.hostWrite (.bar0 off) bs) s = .next s) ∧
      (0x60000 ≤ off → off < 0x60018 → ∃ t : State, exec (.hostRead (.bar0 off) n) s = .next t ∧
        t.mgmt.replies.length = s.mgmt.replies.length + 1)) ∧
    (∀ win : BitVec 4, win.toNat ≤ 8 → performHeld s (.write (.bar2 off) bs win) =
      hostPhysWrite (passTreadle s) (win.toNat * 2 ^ 36 + off) bs) ∧
    (∀ l, dropRead s.heldHost = some l → ∃ t : State, exec .hostReadHoldTimeout s = .next t ∧ t.heldHost = l ∧
      t.mgmt.replies = s.mgmt.replies ++ [none] ∧
      (s.regs.nabort ≠ BitVec.allOnes 32 → t.regs.nabort = s.regs.nabort + 1)))

/-- (1) R475, R477, R478: a mailbox command of the OP that runs answers with its status and its reply in the buffer,
NOTREADY before the device is ready where it is not one of recovery mode, BADARG for a bad argument. QUOTE reports the
measurements of the images verified at bring-up, FWCOMMIT leaves them, and SETCAP starts a round; MAILBOX_REPLY then
ends it with MSI-X 16. That NOTREADY comes before the other errors, that the image of FWCOMMIT is the whole staging
area, and that KEYSTAT gives the index modulo 2^16 are the model's choices (log entry 70). (2) R477, R479: PREEMPT
asks every resident unit of a PREEMPTIBLE launch to stop and holds it, and RESUME asks that its held units be
restored, or has BADARG where there is none; each has its reply, the number of units, once every band of each of them
has been saved or restored, or has ended. MAILBOX_REPLY ends a command: BUSY falls, with MSI-X 16. -/
def Obligations.MailboxResult : Prop :=
  (∀ (s : State) (op : Nat),
    s.mgmt.mbBusy = true → s.mgmt.mbDone = false → fld s.mgmt.mbcmd 15 0 = op →
    let len := fld s.mgmt.mbcmd 63 32
    let a := leNat (memRead s.mem (mailboxKey 0) 4)
    let reply (t : State) (bs : List Byte) : Out := .next (mbFinish t 0 bs)
    let fails (i : Instr) (st : Nat) : Prop := exec i s = .next (mbFinish s st [])
    (s.mgmt.bootState ≠ 1 → (op = 1 → fails .rdpoints 4) ∧ (op = 2 → fails .quote 4) ∧ (op = 3 → fails .setcap 4) ∧
      (op = 4 → fails .rdlog 4) ∧ (op = 9 → fails .preempt 4) ∧ (op = 10 → fails .resume 4) ∧ (op = 11 → fails .endlaunch 4)) ∧
    (s.mgmt.bootState = 1 →
      (op = 1 → len = 4 → a < 64 → exec .rdpoints s = reply s (((s.cluster (BitVec.ofNat 6 a)).pace.fuses).flatMap
        (fun f => leBytes 8 (f.m + f.v * 2 ^ 8 + f.mv * 2 ^ 16 + f.mw * 2 ^ 32)))) ∧
      (op = 2 → len = 32 → ∀ m i, nextIndex s.mgmt = (m, some i) →
        let body := Config.quoteBody (memRead s.mem (mailboxKey 0) 32) s.net.devid.toNat Config.keyHash s.regs.dbgen
          Config.lifecycle Config.bootRomMeasure s.mgmt.measures
        exec .quote s = reply { s with mgmt := m } (body ++ (Config.quoteSignature body i).toList)) ∧
      (op = 3 → len = 4 → 1200 ≤ a → a ≤ 3200 →
        let t : State := { s with mgmt := { s.mgmt with cap := a } }
        exec .setcap s = reply (if s.freeze = .none then arbiterRound t else { t with mgmt := { t.mgmt with roundDue := true } }) []) ∧
      (op = 3 → len = 4 → (a < 1200 ∨ 3200 < a) → fails .setcap 3) ∧
      (op = 4 → len = 4 → exec .rdlog s = reply s (((s.mgmt.log.drop a).take 128).flatMap recordBytes)) ∧
      (op = 11 → len = 4 → ∀ l, mbLaunch s = some l →
        exec .endlaunch s = reply (endLaunch (logRecord s (0x81 + l.logName) 0 0 0 0 0 0) l.id) [])) ∧
    (op = 5 → 8 ≤ len → len ≤ 8192 → leNat (memRead s.mem (mailboxKey 0) 8) % 2 ^ 8 ≤ 1 →
      let off := leNat (memRead s.mem (mailboxKey 0) 8) / 2 ^ 32
      off + (len - 8) ≤ 2 ^ 22 → exec .fwchunk s =
        reply { s with mem := memWrite s.mem (stagingKey off) (memRead s.mem (mailboxKey 8) (len - 8)) } []) ∧
    (op = 6 → len = 4 → a ≤ 1 →
      (Config.imageVerifies a (memRead s.mem (stagingKey 0) imageSize) = true → exec .fwcommit s =
        reply { s with mem := memMove s.mem (stagingKey 0) (flashKey a 0) imageSize } []) ∧
      (Config.imageVerifies a (memRead s.mem (stagingKey 0) imageSize) = false → fails .fwcommit 6)) ∧
    (op = 7 → len = 0 → exec .mbReset s = reply s []) ∧
    (op = 8 → len = 0 → exec .keystat s = reply s (leBytes 4 (s.mgmt.sigBlocks + s.mgmt.sigIndex % 2 ^ 16 * 2 ^ 16)))) ∧
  (∀ (s : State) (l : Launch) (ids : List (List Nat)),
    s.mgmt.mbBusy = true →
    (s.mgmt.mbDone = false → s.mgmt.bootState = 1 → s.mgmt.mbWork = none → fld s.mgmt.mbcmd 63 32 = 4 → mbLaunch s = some l →
      (fld s.mgmt.mbcmd 15 0 = 9 → preemptRefused s l = false →
        let us := launchUnits s l.id (fun b => (unitOf s b).any (fun k => k.resident s))
        ∃ t : State, exec .preempt s = .next t ∧ t.mgmt.mbWork = some (l.id, us.map (unitIds s)) ∧ t.mgmt.mbBusy = true ∧
          ∀ k ∈ t.bands, us.any (fun u => k.id == u.id) = true → k.hostHeld = true) ∧
      (fld s.mgmt.mbcmd 15 0 = 9 → preemptRefused s l = true → exec .preempt s = .next (mbFinish s 3 [])) ∧
      (fld s.mgmt.mbcmd 15 0 = 10 →
        let us := launchUnits s l.id (fun b => b.hostHeld && b.preempt == some .saved)
        (us ≠ [] → exec .resume s = .next { s with mgmt := { s.mgmt with mbWork := some (l.id, us.map (unitIds s)) } }) ∧
        (us = [] → exec .resume s = .next (mbFinish s 3 [])))) ∧
    (s.mgmt.mbDone = false → s.mgmt.bootState = 1 → s.mgmt.mbWork = some (l.id, ids) →
      (fld s.mgmt.mbcmd 15 0 = 9 → unitsSettled s ids = true → exec .preempt s = .next (mbFinish s 0
        (leBytes 4 (unitsHeld s ids) ++ leBytes 4 (ids.length - unitsHeld s ids)))) ∧
      (fld s.mgmt.mbcmd 15 0 = 10 → ids.all (unitBack s) = true →
        exec .resume s = .next (mbFinish s 0 (leBytes 4 (unitsRestored s l.id ids))))) ∧
    (s.mgmt.mbDone = true → ∃ t : State, exec .mailboxReply s = .next t ∧ t.mgmt.mbBusy = false ∧
      t.mgmt.msix = s.mgmt.msix ++ [16] ∧ t.mgmt.mbstat = s.mgmt.mbstat ∧ t.mem = s.mem ∧
      (¬ (fld s.mgmt.mbcmd 15 0 = 7 ∧ s.mgmt.mbstat = 0) → t.agenda = s.agenda)))

/-- R448: a debug command that is pending acts through its selector, on any leased row of the core, and is done; a
rejected selector sets REJ, and reads all ones. -/
def Obligations.DebugCommands : Prop :=
  ∀ (s : State) (g : CoreId) (q : RowId) (x : Row) (w : Band) (i : Reg) (v : Dword) (t : TrapRec),
    (s.core g).dbg.dsel = v → s.row? q = some x → s.band? x.band = some w →
    let pending (c : BitVec 2) : Prop := (s.core g).dbg.dcmd = some c
    let done (u : State) (rej : Bool) : State :=
      u.modCore g (fun k => { k with dbg := { k.dbg with dcmd := none, rej := rej } })
    (pending 0 → selOf g v = ⟨1, q, i.toNat, false⟩ → exec (.dcmdKrdr g) s =
      .next (done (s.modCore g (fun k => { k with dbg := { k.dbg with ddata := x.sget i } })) false)) ∧
    (pending 1 → selOf g v = ⟨1, q, i.toNat, false⟩ →
      exec (.dcmdKwrr g) s = .next (done (s.setRow q (x.sset i (s.core g).dbg.ddata)) false)) ∧
    (pending 2 → selOf g v = ⟨0, q, 0, false⟩ → x.ctl.trap = some t → t.cause ≠ 0x16 →
      exec (.dcmdKrsm g) s = .next (done (resumeRow s q x t false) false)) ∧
    (pending 2 → selOf g v = ⟨0, q, 0, false⟩ → x.ctl.trap = none → exec (.dcmdKrsm g) s = .next (done s false)) ∧
    (pending 3 → selOf g v = ⟨0, q, 0, false⟩ → exec (.dcmdKkil g) s = .next (done (killUnit s w) false)) ∧
    (pending 0 → (selOf g v).reserved = true → exec (.dcmdKrdr g) s =
      .next (done (s.modCore g (fun k => { k with dbg := { k.dbg with ddata := BitVec.allOnes 64 } })) true))

/-- (1) R119, R454, R473, R483: a device reset leaves flash, host memory, fuses, the log and what the host has
received, counts one more reset, and puts the rest at its reset value; a thermal trip is logged first. That every
other byte of memory reads 0 then is the model's choice (log entry 1). (2) R452, R453, R474: bring-up goes through its
steps in order: a failure of step 1 removes the rails, of step 3 or 4 ends in recovery mode, and so does an image in
flash that does not verify; one that does is measured; channels and links that fail are marked; step 6 clears the
scratch memories; after step 8 the device is ready. That the outcomes of the steps are inputs, and that step 0 follows
a step 1 that failed, are the model's choices (log entry 71). -/
def Obligations.DeviceStart : Prop :=
  (∀ (s : State) (b : Bool), ∃ t u : State,
    exec .deviceReset s = .next t ∧ exec (.thermalTrip b) s = .next u ∧
    t.rows = [] ∧ t.bands = [] ∧ t.launches = [] ∧ t.cmds = [] ∧ t.cores = State.reset.cores ∧ t.regs = MgmtRegs.reset ∧
    t.chans = State.reset.chans ∧ t.mgmt.step = 1 ∧ t.mgmt.bootState = 0 ∧ t.mgmt.resets = s.mgmt.resets + 1 ∧
    t.mgmt.log = s.mgmt.log ∧ t.mgmt.sigBlocks = s.mgmt.sigBlocks ∧ t.mgmt.cap = 2800 ∧
    (∀ k : Nat, 2 ^ 50 ≤ k → s.mem.wf = true → memGet t.mem k = memGet s.mem k) ∧
    (∀ k : Nat, k < 2 ^ 50 → memGet t.mem k = 0) ∧
    u.mgmt.log.length = s.mgmt.log.length + 1 ∧ u.mgmt.resets = s.mgmt.resets + 1 ∧ u.rows = []) ∧
  (∀ (s : State) (ok : Bool) (bad : List Nat), s.mgmt.bootState = 0 → ∃ t : State,
    exec (.bringUpStep ok bad) s = .next t ∧
    (s.mgmt.step = 1 → t.mgmt.step = (if ok then 2 else 0) ∧ t.mgmt.bootState = 0) ∧
    (s.mgmt.step = 2 → t.mgmt.step = 3 ∧ t.mgmt.bootState = 0) ∧
    (s.mgmt.step = 3 → let good := ok && Config.imageVerifies 0 (memRead s.mem (flashKey 0 0) imageSize)
      t.mgmt.step = (if good then 4 else 3) ∧ t.mgmt.bootState = (if good then 0 else 2) ∧
      (good = true → t.mgmt.measures = s.mgmt.measures ++ [Config.imageMeasure (memRead s.mem (flashKey 0 0) imageSize)])) ∧
    (s.mgmt.step = 4 → let good := ok && Config.imageVerifies 1 (memRead s.mem (flashKey 1 0) imageSize)
      t.mgmt.step = (if good then 5 else 4) ∧ t.mgmt.bootState = (if good then 0 else 2) ∧
      (good = true → t.mgmt.measures = s.mgmt.measures ++ [Config.imageMeasure (memRead s.mem (flashKey 1 0) imageSize)])) ∧
    (s.mgmt.step = 5 → t.mgmt.step = 6 ∧ ∀ i : Fin 384, ((t.chans[i.val]).trained = true ↔
      (i.val ∉ bad ∨ (s.chans[i.val]).trained = true)) ∧ (i.val ∈ bad → (t.chans[i.val]).failed = true)) ∧
    (s.mgmt.step = 6 → t.mgmt.step = 7 ∧ t.badWords = [] ∧
      ∀ k, 2 ^ 44 ≤ k → k < 2 ^ 47 → memGet t.mem k = 0) ∧
    (s.mgmt.step = 7 → t.mgmt.step = 8 ∧ (∀ i : Fin 12, (t.net.ports[i.val]).down = bad.contains i.val) ∧
      t.treadle.down = bad.contains 12) ∧
    (s.mgmt.step = 8 → t.mgmt.bootState = 1 ∧ t.n = 8 ∧ ∀ d : DieId, (t.die d).h = 10))

/-- (1) R107 to R116: a channel retrains, one of a stack at a time and none during a freeze (R118), and the second
failure in a row marks it failed; main memory in a channel that retrains, and all of it once a freeze has begun, waits
(log entry 68); a command parity alert is counted, and the third failed reissue marks the channel failed; the patrol
scrub reads the next line, corrects it, or logs its address. That RTFAIL stays 1 at the second failure is the model's
choice (log entry 72). (2) R117 to R120, R383, R484: a stack above its threshold is High, and a round of the arbiter
follows, during a freeze at its end; a Critical one starts the freeze, which stops every clock once no retraining and
no switch is in progress, with MSI-X 17 at that moment (the model's choice, log entry 68); below 90 °C the channels
retrain, the clocks go on, and the freeze is counted and logged with its duration, with MSI-X 18. -/
def Obligations.ChannelFreeze : Prop :=
  (∀ (s : State) (ch : Fin 384) (pc : Fin 768) (ok : Bool),
    let c := s.chans[ch.val]
    let put (d : Channel) : Out := .next { s with chans := s.chans.set ch.val d ch.isLt }
    (c.trained = true → c.failed = false → stackRetraining s ch.val = false → s.freeze = .none →
      exec (.channelRetrain ch.val) s = put { c with retraining := true }) ∧
    (s.freeze ≠ .none → exec (.channelRetrain ch.val) s = .next s) ∧
    (∀ pa : Nat, pa < hbmEnd → channelOf pa = ch.val → c.retraining = true ∨ s.freeze = .draining → s.paHeld pa = true) ∧
    (c.retraining = true → exec (.retrainComplete ch.val true) s = put { c with retraining := false, rtfail := false } ∧
      exec (.retrainComplete ch.val false) s =
        put { c with retraining := false, failed := c.failed || c.rtfail, rtfail := true }) ∧
    (c.trained = true → c.failed = false → ∃ d : Channel, exec (.commandParityAlert ch.val ok true) s = put d ∧
      d.rpcnt.toNat = min 255 (c.rpcnt.toNat + 1) ∧ d.failed = (!ok && decide (2 ≤ c.replays)) ∧
      d.cecnt = c.cecnt ∧ d.uecnt = c.uecnt) ∧
    (let pa := pseudoAddress pc.val (64 * s.scrub[pc.val])
     (s.paHeld pa = true → exec (.patrolScrub pc.val) s = .next s) ∧
     (s.paHeld pa = false → s.paFailed pa = false → ∃ t : State, exec (.patrolScrub pc.val) s = .next t ∧
      t.scrub[pc.val] = (s.scrub[pc.val] + 1) % 12582912 ∧ t.mem = s.mem ∧
      (s.paBad pa = false → t.mgmt = s.mgmt ∧ pa / 64 ∉ t.weakLines) ∧
      (s.paBad pa = true → t.mgmt.log.length = s.mgmt.log.length + 1 ∧ t.badLines = s.badLines)))) ∧
  (∀ (s : State) (k : Fin 12),
    let marked (h : Bool) : State := { s with hbmStacks := s.hbmStacks.set k.val { s.hbmStacks[k.val] with high := h } }
    let round (u : State) : State := if u.mgmt.bootState ≠ 1 then u else if u.freeze = .none then arbiterRound u
      else { u with mgmt := { u.mgmt with roundDue := true } }
    exec (.stackHighEnter k.val) s = .next (round (marked true)) ∧ exec (.stackHighLeave k.val) s = .next (round (marked false)) ∧
    (5 ≤ s.mgmt.step → s.mgmt.bootState ≠ 2 → s.freeze = .none → ∃ t : State, exec (.packageFreeze k.val) s = .next t ∧
      t.freeze = .draining ∧ (t.hbmStacks[k.val]).critical = true ∧ (t.hbmStacks[k.val]).high = true) ∧
    (s.mgmt.step < 5 ∨ s.mgmt.bootState = 2 → exec (.packageFreeze k.val) s = .next s) ∧
    (s.freeze = .draining → (∀ c ∈ s.chans.toList, c.retraining = false) → (∀ c ∈ s.clusters.toList, c.pace.switching = false) →
      ∃ t : State, exec .freezeGate s = .next t ∧ t.freeze = .gated ∧ t.mgmt.msix = s.mgmt.msix ++ [17] ∧
        t.mgmt.freezeAt = s.mgmt.refclk ∧ t.mem = s.mem) ∧
    (s.freeze = .gated → ∃ t : State, exec .freezeRelease s = .next t ∧ t.freeze = .released ∧
      ∀ i : Fin 384, (s.chans[i.val]).trained = true → (s.chans[i.val]).failed = false →
        (t.chans[i.val]).retraining = true) ∧
    (s.freeze = .released → s.heldHost = [] → ∃ t : State, exec (.freezeResume (s.mgmt.refclk - s.mgmt.freezeAt)) s = .next t ∧ t.freeze = .none ∧
      t.mgmt.freezes = s.mgmt.freezes + 1 ∧ t.mgmt.roundDue = false ∧
      t.mgmt.log = s.mgmt.log ++ [[0x82, BitVec.ofNat 64 s.mgmt.refclk, 0, 0, 0, 0,
        BitVec.ofNat 64 (s.mgmt.refclk - s.mgmt.freezeAt), BitVec.ofNat 64 (s.mgmt.resets * 2 ^ 32)]] ∧ t.mgmt.msix = s.mgmt.msix ++ [18]))

/-- (1) R379 to R388: a pending change of a cluster is made when every resident band stands at a boundary: the clocks
stop, and restart at the new point, SEQ goes up, and every resident row reads the grant; a change pending for 2^16
V-cycles is abandoned; changes of N and H take effect at once, an H above 10 not while a stack of the die is High,
when it stays pending, and every row has them to see at its next boundary (hnDue; log entry 64: the model's choices).
A decision taken during a switch is kept for its end (log entry 87). (2) R392, R393: rationing holds a cluster above
its share back by one pulse more of 16, at most 3, and one less when it is below nine tenths of it; skipping for heat,
at level 1 or 2, or for current sets THR in every resident row and changes no grant. (3) R381 to R383: the changes of
N and H that a round of the arbiter leaves pending are legal values: N from 8 to 16, and each H one of 10, 12 and 14;
the grants in force stay. -/
def Obligations.PaceEvents : Prop :=
  (∀ (s : State) (cl : ClusterId) (r : RowId) (x : Row),
    let p := (s.cluster cl).pace
    (s.mgmt.bootState = 1 → exec .arbiterRound s = .next (arbiterRound s)) ∧
    (2 ^ 16 ≤ p.pendCount → exec (.paceSwitch cl) s = .next s) ∧
    (p.pending.isSome = true → p.switching = false → p.pendCount < 2 ^ 16 → (∀ b ∈ residents s cl, bandStands s b = true) →
      ∃ t : State, exec (.paceSwitch cl) s = .next t ∧ (t.cluster cl).pace = { p with switching := true } ∧
        (∀ c, c ≠ cl → t.cluster c = s.cluster c) ∧ t.rows = s.rows) ∧
    (∀ m v m' v', p.pending = some (m, v) → p.switching = true → p.next = some (m', v') → m' ≠ m →
      ∃ t : State, exec (.paceSwitchComplete cl) s = .next t ∧ (t.cluster cl).pace.m = m ∧ (t.cluster cl).pace.v = v ∧
        (t.cluster cl).pace.switching = false ∧ (t.cluster cl).pace.pending = some (m', v')) ∧
    (∀ m v, p.pending = some (m, v) → p.switching = true → p.next = none →
      ∃ t : State, exec (.paceSwitchComplete cl) s = .next t ∧ (t.cluster cl).pace.m = m ∧ (t.cluster cl).pace.v = v ∧
        (t.cluster cl).pace.seq = p.seq + 1 ∧ (t.cluster cl).pace.pending = none ∧ (t.cluster cl).pace.switching = false ∧
        (s.row? r = some x → clusterOf r.core = cl → m < 256 → v < 256 → s.n < 256 → (s.die (dieOf r.core)).h < 256 → ∃ y : Row, t.row? r = some y ∧
          fld y.csr.paceg 63 32 = (p.seq + 1).toNat ∧ y.regs = x.regs ∧ y.pc = x.pc)) ∧
    (p.pending.isSome = true → p.switching = false → 2 ^ 16 ≤ p.pendCount →
      ∃ t : State, exec (.paceChangeAbandon cl) s = .next t ∧ (t.cluster cl).pace.pending = none ∧
        (t.cluster cl).pace.m = p.m ∧ (t.cluster cl).pace.v = p.v ∧ (t.cluster cl).pace.seq = p.seq) ∧
    (∃ t : State, exec .paceHnApply s = .next t ∧ t.n = s.pendingN.getD s.n ∧ t.pendingN = none ∧
      (∀ d : DieId, (∀ h, (s.die d).pendingH = some h → 10 < h → dieHigh s d = false) →
        (t.die d).h = (s.die d).pendingH.getD (s.die d).h ∧ (t.die d).pendingH = none) ∧
      (∀ d h, (s.die d).pendingH = some h → 10 < h → dieHigh s d = true →
        (t.die d).h = (s.die d).h ∧ (t.die d).pendingH = some h) ∧
      (s.row? r = some x → ∃ y : Row, t.row? r = some y ∧ y.csr = x.csr ∧
        (s.pendingN.isSome = true → y.ctl.hnDue.getLsbD 2 = true) ∧
        (∀ h, (s.die (dieOf r.core)).pendingH = some h → h ≤ 10 → y.ctl.hnDue.getLsbD 3 = true)))) ∧
  (∀ (s : State) (cl : ClusterId) (mw : Nat) (lv : BitVec 2),
    let p := (s.cluster cl).pace
    let paceIs (i : Instr) (q : Pace) : Prop := ∃ t : State, exec i s = .next t ∧ (t.cluster cl).pace = q ∧
      (∀ c, c ≠ cl → t.cluster c = s.cluster c)
    (p.shareDen ≠ 0 → p.shareNum < mw * p.shareDen → paceIs (.rationMeasure cl mw) { p with ration := min 3 (p.ration + 1) }) ∧
    (p.shareDen ≠ 0 → 10 * (mw * p.shareDen) < 9 * p.shareNum → paceIs (.rationMeasure cl mw) { p with ration := p.ration - 1 }) ∧
    (lv ≠ 3 → paceIs (.junctionThrottle cl lv) { p with skip := lv.toNat }) ∧
    paceIs (.overcurrent cl) { p with overcurrent := true } ∧ paceIs (.overcurrentEnd cl) { p with overcurrent := false } ∧
    (∀ (r : RowId) (x : Row), s.row? r = some x → clusterOf r.core = cl → lv ≠ 3 → ∃ (t : State) (y : Row),
      exec (.junctionThrottle cl lv) s = .next t ∧ t.row? r = some y ∧ y.csr.paceg = x.csr.paceg ∧
      y.csr.paceev = if lv = 0 then x.csr.paceev else x.csr.paceev ||| 0x10) ∧
    (∀ (r : RowId) (x : Row), s.row? r = some x → clusterOf r.core = cl → ∃ (t : State) (y : Row),
      exec (.overcurrent cl) s = .next t ∧ t.row? r = some y ∧ y.csr.paceev = x.csr.paceev ||| 0x10 ∧ y.csr.paceg = x.csr.paceg)) ∧
  (∀ (s : State), 8 ≤ s.n → s.n ≤ 16 → (∀ d : DieId, (s.die d).h = 10 ∨ (s.die d).h = 12 ∨ (s.die d).h = 14) →
    let t := arbiterRound s
    t.n = s.n ∧ (∀ n, t.pendingN = some n → 8 ≤ n ∧ n ≤ 16) ∧
    ∀ d : DieId, (t.die d).h = (s.die d).h ∧ ∀ h, (t.die d).pendingH = some h → h = 10 ∨ h = 12 ∨ h = 14)

/-- (1) R354, R355, R358: a head block is ready once the slots of its wait events have reached their values; the
distributor takes the ready head of the class that is next, reads its block and its tables, and accepts it where every
check passes, or rejects it: HEAD advances past it either way. Its reads wait for main memory (log entry 68). A head
that cannot be read counts as ready (log entry 60): the model's choice. (2) R362 to R364: a launch's next skein is
placed where the launches ahead of it and the continuations leave it room: its bands are leased in one step; one that
has waited 2^16 cycles of the distributor reserves its runs, a GANG launch all of them at once, in clusters for which
no launch queues before it, and pre-emption of what is in their way is requested, but not with an NRED in flight
(R368, R420; log entry 96). The order of the reservations, by the time waited and then by number, is the model's
choice (log entry 63). A band of a launch without regions starts at once: its rows hold what R214 gives them and its
window is zero. -/
def Obligations.LaunchPlacement : Prop :=
  (∀ (s t u v : State) (q : BitVec 4) (c : BitVec 2) (bs : List Byte) (a b : Bool) (l : Launch),
    let head := (s.queue q).entryPa (s.queue q).head.toNat
    (pollHeld s q = true → exec (.eventSlotPoll q) s = .next s) ∧
    ((s.queue q).en = true → (s.queue q).ring ≠ 0 → pollHeld s q = false → (s.queue q).count ≠ 0 → readPhys s head 256 = (t, .ok bs) →
      waitMet t (BitVec.ofNat 6 (fld (bytesDw bs 0) 61 56)) (bytesDw bs 14) (bytesDw bs 15) = (u, .ok a) →
      waitMet u (BitVec.ofNat 6 (fld (bytesDw bs 0) 61 56)) (bytesDw bs 16) (bytesDw bs 17) = (v, .ok b) →
      exec (.eventSlotPoll q) s = .next (v.modQueue q (fun k => { k with ready := a && b, failing := false }))) ∧
    (∀ (asid : BitVec 6) (n : Dword), waitMet s asid 0 n = (s, .ok true)) ∧
    (∀ (asid : BitVec 6) (adr n : Dword), adr ≠ 0 → slotAddrOk adr = true →
      readAddr s (distRequester s asid) adr 8 = (t, .ok bs) →
      waitMet s asid adr n = (t, .ok (decide (n.toNat ≤ leNat bs)))) ∧
    (s.launches.length < 64 → s.mgmt.bootState = 1 → nextHead s = some (q, c) → headHeld s q = true →
      exec .launchAccept s = .next s) ∧
    (s.launches.length < 64 → s.mgmt.bootState = 1 → nextHead s = some (q, c) → headHeld s q = false →
      ∃ z : State, exec .launchAccept s = .next z ∧ z.dist.rr = c + 1 ∧ z.mem = s.mem ∧ z.rows = s.rows ∧
        (z.queue q).head = BitVec.ofNat 12 (((s.queue q).head.toNat + 1) % (s.queue q).ring) ∧
        (∀ p, p ≠ q → z.queue p = s.queue p) ∧
        (∀ st, readPhys { s with dist := { s.dist with rr := c + 1 } } head 256 = (t, .error st) →
          z.launches = s.launches ∧ (z.queue q).nacc = (s.queue q).nacc ∧
          (z.queue q).err0 = dw (2 ^ 63 + (s.queue q).head.toNat * 2 ^ 32 + 2 * 2 ^ 8 + st.toNat)) ∧
        (readPhys { s with dist := { s.dist with rr := c + 1 } } head 256 = (t, .ok bs) →
          (∀ st, blockCheck t (launchOf t q bs) = some st →
            z.launches = s.launches ∧ (z.queue q).nacc = (s.queue q).nacc ∧
            (z.queue q).err0 = dw (2 ^ 63 + (s.queue q).head.toNat * 2 ^ 32 + st.toNat)) ∧
          (blockCheck t (launchOf t q bs) = none → readTables t (launchOf t q bs) = (u, .ok l) → launchCheck l = none →
            z.launches = s.launches ++ [l] ∧ (z.queue q).nacc = (s.queue q).nacc + 1 ∧
            (z.queue q).err0 = (s.queue q).err0)))) ∧
  (∀ (s : State) (k : Launch) (runs : List Run),
    s.launch? k.id = some k →
    (placeRuns s k = some runs → (∀ c ∈ s.conts, contPlace s c = none) → (∀ a ∈ launchesAhead s k, placeRuns s a = none) →
      let t := s.modLaunch k.id (fun j => { j with
        nextSkein := j.nextSkein + (if k.gang then k.skeins else k.group), waited := 0, reserved := [] })
      exec (.skeinPlace k.id) s = .next (leaseRuns k (k.nextSkein * k.nbs) none runs t) ∧
      ∀ g : Run, runs = [g] → k.nreg = 0 → k.isChain = false → g.row0 + g.height ≤ 96 → g.wbase + g.wsize ≤ 2 ^ 20 →
        (∀ i, i < g.height → s.row? ⟨g.core, g.pane, BitVec.ofNat 7 (g.row0 + i)⟩ = none) →
        ∀ i, i < g.height → ∃ y : Row,
          (leaseRuns k (k.nextSkein * k.nbs) none runs t).row? ⟨g.core, g.pane, BitVec.ofNat 7 (g.row0 + i)⟩ = some y ∧
          y.status = .running ∧ y.pc = k.pcOf i ∧ y.regs.sfull = BitVec.allOnes 32 ∧ y.regs.vfull = BitVec.allOnes 32 ∧
          y.sget 0 = 0 ∧ (∀ j : Reg, 1 ≤ j.toNat → j.toNat ≤ 15 → y.sget j = k.args.getD (j.toNat - 1) 0) ∧
          (∀ j : Reg, 16 ≤ j.toNat → y.sget j = 0) ∧ (∀ j : Reg, j.toNat < 28 → y.vget j = zeroLanes) ∧
          y.mget 0 = laneMask k.laneW ∧ (∀ j : MReg, j ≠ 0 → y.mget j = 0) ∧ y.hints = {} ∧ y.stack = [] ∧
          (∀ n, n < g.wsize → memGet (leaseRuns k (k.nextSkein * k.nbs) none runs t).mem
            (sideKey g.core.toNat (g.wbase + n)) = 0)) ∧
    (let t := s.modLaunch k.id (fun j => { j with reserved := runs })
     let early (j : Launch) : Prop := j.id ≠ k.id ∧ reserveDue s j = true ∧
       (k.waited < j.waited ∨ (j.waited = k.waited ∧ j.id < k.id))
     let rivals : Prop := ∃ j ∈ s.launches, early j ∧ ∃ a ∈ (reserveWish s j).1, ∃ r ∈ runs, clusterOf r.core = clusterOf a.core
     (reserveDue s k = true → runs ≠ [] →
      (k.gang = false → reserveNext s k [] false = some runs → (∀ r ∈ runs, reservedByOther s k (clusterOf r.core) = false) →
        (¬ rivals → exec (.skeinReservation k.id) s = .next (requestBlockers t k.id)) ∧
        (rivals → exec (.skeinReservation k.id) s = .next s)) ∧
      (k.gang = true → reserveAll s k (k.skeins / k.group) [] = .ok runs →
        (¬ rivals → exec (.gangReservation k.id) s = .next (requestBlockers t k.id)) ∧
        (rivals → exec (.gangReservation k.id) s = .next s))) ∧
     (∀ l : Launch, t.launch? k.id = some l →
      (∀ b ∈ t.bands, blocks t l b = true ↔ b.resident t = true ∧ b.preempt = none ∧ (∃ r ∈ l.reserved, r.meets b = true) ∧
        ∃ j, t.launch? b.launch = some j ∧ j.preemptible = true ∧ j.prio < l.prio) ∧
      ((∀ b ∈ t.bands, blocks t l b = false) → requestBlockers t k.id = t) ∧
      ((∃ b ∈ t.bands, blocks t l b = true ∧ (canPreempt t b = false ∨ unitReduces t b = true)) → requestBlockers t k.id = t))) ∧
    (reserveDue s k = true ↔ (k.ended = false ∧ k.nextSkein < k.skeins ∧ k.reserved = [] ∧ 2 ^ 16 ≤ k.waited ∧
      ∀ b ∈ s.bands, b.launch = k.id → b.hostHeld = true → b.preempt ≠ some .saved)))

/-- R143, R144, R356, R367, R416: a region staged without fault is followed by the next, and after the last the rows
of the band run; one that fails ends the launch. A launch that is complete makes its signal and gives up its barrier
slots. A continuation whose phase has completed starts as a band of one row. A pre-emption that is requested stops the
rows of its unit at a boundary, where they read the grants in force; one that waits at a barrier keeps its token only. -/
def Obligations.LaunchLife : Prop :=
  ∀ (s : State) (bd : Nat) (k : Cmd) (i : Nat) (b : Band) (l : Launch),
    (stagingOf s bd = some (k, i) → s.band? bd = some b → b.id = bd → k.stagedOut = true → s.launch? b.launch = some l →
      l.ended = false → b.killed = false →
      let t : State := { s with cmds := s.cmds.filter (fun c => c.id != k.id), notes := settledNotes k.id [] s.notes }
      (k.outcome.1 ≠ 0 → exec (.stagingRegionRetire bd) s = .next (stageFail t l b i k.outcome.1)) ∧
      (k.outcome.1 = 0 → i + 1 < l.nreg →
        ∃ u : State, exec (.stagingRegionRetire bd) s = .next u ∧ u.rows = s.rows ∧ u.mem = s.mem ∧
          u.cmds = t.cmds ++ [stageCmd t l b (i + 1)]) ∧
      (k.outcome.1 = 0 → l.nreg ≤ i + 1 →
        ∃ u : State, exec (.stagingRegionRetire bd) s = .next u ∧ u.cmds = t.cmds ∧ u.mem = s.mem ∧
          ∀ r x, s.row? r = some x → u.row? r = some (if x.band = bd then { x with
            status := .running, csr := { x.csr with paceg := pacegWord s r.core, paceev := 0 }
            ctl := { x.ctl with hnDue := 0 } } else x))) ∧
    (s.launch? l.id = some l → (∀ w ∈ s.bands, w.launch ≠ l.id) → (l.ended = true ∨ l.skeins ≤ l.nextSkein) →
      (∀ c ∈ s.cmds, c.launch ≠ l.id) → (∀ c ∈ s.conts, c.launch ≠ l.id) → (∀ w ∈ s.bands, w.busy s = true) →
      (l.ended = false → l.dw 18 ≠ 0 → slotHeld s (distRequester s l.asid) (l.dw 18) false = false) →
      ∃ u : State, exec (.launchComplete l.id) s = .next u ∧ u.launch? l.id = none ∧
        (∀ r (n : BitVec 6), (slotOf s r n).owner = some l.id →
          (slotOf u r n).owner = none ∧ (slotOf u r n).gen = (slotOf s r n).gen + 1) ∧
        (∀ r (n : BitVec 6), (slotOf s r n).owner ≠ some l.id → slotOf u r n = slotOf s r n) ∧
        u.mem = (if l.ended = true ∨ l.dw 18 = 0 then s.mem
          else (updateSlot s (distRequester s l.asid) (l.dw 18) (l.dw 19) false).1.mem)) ∧
    (∀ (c : Continuation) (r : RowId) (n : Nat), s.conts.find? (fun e => e.id == c.id) = some c →
      contPlace s c = some (r, n) → s.launch? c.launch = some l → s.band? c.band = some b →
      paceBusy s (clusterOf c.core) = false → s.row? r = none →
      ∃ (u : State) (y : Row), exec (.continuationStart c.id) s = .next u ∧ u.row? r = some y ∧ y.status = .running ∧
        y.pc = c.pc ∧ y.csr.wid = c.wid ∧ (∀ j : Reg, 1 ≤ j.toNat → j.toNat ≤ 15 → y.sget j = c.s[j.toNat]) ∧
        (∀ j : Reg, 16 ≤ j.toNat → y.sget j = 0) ∧ y.mget 0 = laneMask c.laneW ∧
        y.csr.bslot = 0 ∧ y.csr.blast = c.last ∧ u.conts = s.conts.filter (fun e => e.id != c.id) ∧
        u.mem = s.mem) ∧
    (s.band? bd = some b → canPreempt s b = true →
      (parityRow s (unitOf s b) = none → b.chain = none →
        ∃ u : State, exec (.preemptRequest bd) s = .next u ∧ u.mem = s.mem ∧
          (∀ w, u.band? bd = some w → w.preempt = some .requested) ∧
          ∀ r x, s.row? r = some x → ∃ z : Row, u.row? r = some z ∧ (x.band ≠ b.id → z = x) ∧
            (x.band = b.id → z.ctl.wait = none ∧ z.ctl.lnch = none ∧ z.pc = x.pc ∧ z.regs.s = x.regs.s ∧ z.regs.v = x.regs.v ∧
              z.regs.m = x.regs.m ∧ z.mx = x.mx ∧ z.csr.paceg = pacegWord s r.core ∧
              ∀ v, x.ctl.barrier = some v → v.gbar = false → z.ctl.barrier = some { v with result := none })) ∧
      (∀ r, parityRow s (unitOf s b) = some r → exec (.preemptRequest bd) s = .next (defaultAction s r)))

/-- (1) R11, R40, R253, R254, R267: whatever a scalar or control instruction of a row does, complete, wait or trap, no
register but its destination changes, and no mask, flag, port, matrix state, band, command or slot; no other row, and
no byte of memory outside the trace buffer of the row's die. A trap reads the grants in force (R387), and takes a row
out of a WAIT (log entry 77). (2) R145 to R167, R169, R190, R438 to R443: the same of engine instructions, SEAL, WAIT
and WSTAT: no scalar register changes but sD, and nothing else of the row but the batches of the command's class and
PEND, which FP_DEFERRED clears; another row only finds the result of its barrier; another band and another command's
work stay; every byte of memory outside the fault vector of a rejected gather, scatter or reduction, the record of a
rejected walk and the trace buffer is as it was, or as the row's posted writes leave it. NRED, whose reduction may
finish at once where its group has one rank, keeps memory in every other group. -/
def Obligations.ScalarFrame : Prop :=
  (∀ (s t : State) (r : RowId) (x : Row) (w : Band) (i : Instr) (d : Reg),
    scalarField i = some d → Executes s r x w → s.mem.wf = true → exec i s = .next t →
    (∃ y : Row, t.row? r = some y ∧ (∀ e : Reg, e ≠ fieldOf (fSca d) (repSteps x.hints).1 x d → y.sget e = x.sget e) ∧
      (y.regs.sfull = x.regs.sfull ∧ y.csr = x.csr ∨ y.ctl.trap.isSome = true ∧ x.keepsFull y) ∧
      y.regs.v = x.regs.v ∧ y.regs.vfull = x.regs.vfull ∧ y.regs.m = x.regs.m ∧ y.fp = x.fp ∧
      y.north = x.north ∧ y.south = x.south ∧ y.mx = x.mx ∧ y.stack = x.stack ∧ y.prods = x.prods ∧ y.posted = x.posted ∧
      y.cls = x.cls) ∧
    (∀ q, q ≠ r → t.row? q = s.row? q) ∧ t.bands = s.bands ∧ t.cmds = s.cmds ∧ t.clusters = s.clusters ∧
    ∀ k, untraced r.core k → memGet t.mem k = memGet s.mem k) ∧
  (∀ (s t : State) (r : RowId) (x : Row) (w : Band) (i : Instr) (c : BClass),
    engineClass i = some c → Executes s r x w → s.mem.wf = true → exec i s = .next t →
    let k (a : Reg) : Cmd := issuedCmd s r x w c i a 0 [] []
    (∃ y : Row, t.row? r = some y ∧ (∀ e : Reg, e ≠ resultField i → y.sget e = x.sget e) ∧ y.regs.v = x.regs.v ∧
      y.regs.vfull = x.regs.vfull ∧ y.regs.m = x.regs.m ∧ (y.fp = x.fp ∨ y.fp = { x.fp with pend := false }) ∧
      y.north = x.north ∧ y.south = x.south ∧ y.mx = x.mx ∧ y.stack = x.stack ∧ ∀ e, e ≠ c → y.clsOf e = x.clsOf e) ∧
    (∀ q z, q ≠ r → s.row? q = some z → ∃ v : Row, t.row? q = some v ∧
      v = { z with ctl := { z.ctl with barrier := v.ctl.barrier } }) ∧
    (∀ b ∈ t.bands, ∃ v ∈ s.bands, b = { v with serial := b.serial, freed := b.freed } ∧ (b.id ≠ w.id → b = v)) ∧
    (∀ v ∈ s.cmds, v.id ≠ s.nextId → ∃ u ∈ t.cmds, u = { v with batch := u.batch }) ∧
    ((∀ d a p, i = .nred d a p → groupSize (nredGroup s (k a)) ≠ 1 ∧ ∀ n ∈ s.net.nred, n.cmd ≠ s.nextId) →
      keepsMemory s t r (fun _ j => match i with
        | .gath _ a .. | .scat _ a .. | .sred _ a .. =>
          cmdKey s (k a) (k a).statOff ≤ j ∧ j < cmdKey s (k a) (k a).statOff + 8 * (((k a).count + 63) / 64)
        | .wkst _ a .. => cmdKey s (k a) (k a).walkStat ≤ j ∧ j < cmdKey s (k a) (k a).walkStat + 32
        | _ => False)))

/-- (1) R11, R40, R42, R54, R242, R255 to R266: the same of the lane instructions: a vector destination, a pair of
registers under MOD.PW; v28 takes the head entry of the north port, v29 sends one entry to the row that consumes the
south port; only a floating-point instruction that rounds or converts changes flags or PEND. (2) R283 to R308, R322:
whatever an instruction of the matrix unit does, complete, wait or trap: no scalar register changes but SHAPE's sD, no
vector register but the D of a move out of P or A, and no mask, flag, port, batch of another class, band, command or
slot; a source v28 takes the head of the north port, a move to v29 sends one entry; each instruction keeps the matrix
state that it does not name; memory keeps every byte, but for what the row's posted writes write. -/
def Obligations.LaneFrame : Prop :=
  (∀ (s t : State) (r : RowId) (x : Row) (w : Band) (i : Instr) (d : Reg),
    laneField i = some d → Executes s r x w → s.mem.wf = true → exec i s = .next t →
    let p := fieldOf (fVec d) (repSteps x.hints).1 x d
    (∃ y : Row, t.row? r = some y ∧
      (∀ e : Reg, e ≠ p → (modBit x.hints 18 = true → e ≠ p + 1) → y.vget e = x.vget e) ∧ y.regs.s = x.regs.s ∧ x.keepsFull y ∧
      y.regs.vfull = x.regs.vfull ∧ y.regs.m = x.regs.m ∧
      y.fp = { x.fp with flags := y.fp.flags, pend := y.fp.pend } ∧ (raisesFlags i = false → y.fp = x.fp) ∧
      (y.north = x.north ∨ y.north = x.pop.north) ∧ y.south = x.south ∧
      y.mx = x.mx ∧ y.stack = x.stack ∧ y.prods = x.prods ∧ y.posted = x.posted ∧ y.cls = x.cls) ∧
    (∀ q z, q ≠ r → s.row? q = some z → t.row? q = some z ∨
      (p = 29 ∧ x.south.orphan = false ∧ x.south.dest = some q ∧
        ∃ e, t.row? q = some { z with north := { z.north with transit := z.north.transit ++ [e] } })) ∧
    t.bands = s.bands ∧ t.cmds = s.cmds ∧ t.clusters = s.clusters ∧
    ∀ k, untraced r.core k → memGet t.mem k = memGet s.mem k) ∧
  (∀ (s t : State) (r : RowId) (x : Row) (w : Band) (i : Instr),
    isMatrixInstr i = true → Executes s r x w → s.mem.wf = true → exec i s = .next t →
    let p : Option Reg := match i with
      | .mmovpGP d .. | .mmovpGA d .. => some d
      | _ => none
    let mclr (n : Nat) : Bool := match i with
      | .mclr _ f => f.getLsbD n
      | _ => false
    (∃ y : Row, t.row? r = some y ∧ (∀ e : Reg, e ≠ resultField i → y.sget e = x.sget e) ∧ x.keepsFull y ∧
      (∀ e : Reg, p ≠ some e → y.vget e = x.vget e) ∧ y.regs.m = x.regs.m ∧ y.fp = x.fp ∧ y.stack = x.stack ∧
      (∀ e : Reg, (∀ a b m ta tb f, i ≠ .mdrn e a b m ta tb f) → y.vFull e = x.vFull e) ∧
      (y.north = x.north ∨ y.north = x.pop.north) ∧ y.south = x.south ∧ (∀ c, c ≠ .mx → y.clsOf c = x.clsOf c) ∧
      ((mclr 0 = false ∧ ∀ a m ta, i ≠ .mmovpSP a m ta) → y.mx.p = x.mx.p) ∧
      ((mclr 1 = false ∧ ∀ a m ta, i ≠ .mmovpSA a m ta) → y.mx.a = x.mx.a) ∧
      ((mclr 2 = false ∧ ∀ d a b m ta tb f, i ≠ .mdrn d a b m ta tb f) → y.mx.rq = x.mx.rq) ∧
      (mclr 3 = false → y.mx.latch = x.mx.latch) ∧ y.mx.w = x.mx.w ∧
      ((∀ d a ta, i ≠ .shape d a ta) → y.mx.shape = x.mx.shape)) ∧
    (∀ q z, q ≠ r → s.row? q = some z → t.row? q = some z ∨
      (p = some 29 ∧ x.south.orphan = false ∧ x.south.dest = some q ∧
        ∃ e, t.row? q = some { z with north := { z.north with transit := z.north.transit ++ [e] } })) ∧
    t.bands = s.bands ∧ t.cmds = s.cmds ∧ t.clusters = s.clusters ∧ keepsMemory s t r (fun _ _ => False))

/-- (1) R232 to R241: the same of loads, stores and atomics: no register's value changes, no other row; every byte of
memory outside the words of the active lanes of a store and the trace buffer is as it was, or as the row's posted
writes and the steps of its atomics leave it. Loads store nothing; RSTV and RATOM post what they write, and the steps
of ATOM and a returning RATOM are made later (log entries 25 and 86); RSTV first has the row's atomics make their
steps. (2) R314 to R331: the same of the card instructions: no scalar register changes but sD, only QPACK changes
flags or PEND, and nothing else of the row; no other row; every byte of memory outside the metadata and values that
MPACK writes, the dense operand that MUNPK writes, the codes and indices that QPACK writes and the trace buffer is as
it was, or as the row's posted writes leave it. -/
def Obligations.MemoryFrame : Prop :=
  (∀ (s : State) (r : RowId) (x : Row) (w : Band) (d a b : Reg) (m : MReg) (n : BitVec 6) (k : BitVec 2) (h : BitVec 4),
    Executes s r x w → s.mem.wf = true →
    let q := fieldOf (fSca a) (repSteps x.hints).2.1 x a
    let os := fieldOf (fSca b) (repSteps x.hints).2.2 x b
    let ov := fieldOf (fVec b) (repSteps x.hints).2.2 x b
    let p := fieldOf (fVec d) (repSteps x.hints).1 x d
    let L := x.active w.laneW m
    let A := (x.sget q).toNat
    let X := vecValue x (if ov = 28 ∨ p = 28 then x.north.fifo.head? else none) ov
    let row (t : State) : Prop :=
      (∃ y : Row, t.row? r = some y ∧ y.regs.s = x.regs.s ∧ y.regs.v = x.regs.v ∧ y.regs.m = x.regs.m ∧ y.fp = x.fp ∧
        (y.north = x.north ∨ y.north = x.pop.north) ∧ y.south = x.south ∧ y.mx = x.mx ∧ y.stack = x.stack ∧ y.cls = x.cls) ∧
      (∀ q, q ≠ r → t.row? q = s.row? q) ∧ t.bands = s.bands ∧ t.cmds = s.cmds ∧ t.clusters = s.clusters
    let keeps (i : Instr) (size : Nat) (f : Nat → Int) (mk : Mask) : Prop := ∀ t, exec i s = .next t → row t ∧
      keepsMemory s t r (fun _ j => ∃ i, i < 64 ∧ mk.getLsbD i = true ∧ winKey w (f i) ≤ j ∧ j < winKey w (f i) + size)
    keeps (.stv d a m n) 4 (fun i => ((A + 4 * n.toNat + 4 * i : Nat) : Int)) L ∧
    keeps (.stvs d a b m n) 4 (fun i => ((A + 4 * n.toNat : Nat) : Int) + (x.sget os).toInt * i) L ∧
    keeps (.stvx d a b m k h) 4 (fun i => ((A + 4 * h.toNat + 2 ^ k.toNat * (laneAt X i).toNat : Nat) : Int)) L ∧
    keeps (.sts d a n) 8 (fun _ => ((A + 8 * n.toNat : Nat) : Int)) 1 ∧
    keeps (.ldv d a m n) 0 (fun _ => 0) 0 ∧ keeps (.ldvs d a b m n) 0 (fun _ => 0) 0 ∧
    keeps (.ldvx d a b m k h) 0 (fun _ => 0) 0 ∧ keeps (.lds d a n) 0 (fun _ => 0) 0 ∧
    keeps (.rldv d a m n) 0 (fun _ => 0) 0 ∧
    (∀ (o : BitVec 2) (sc : Bool) (op : AtomOp),
      keeps (.atom d a b m o sc op) 0 (fun _ => 0) 0 ∧ keeps (.ratom d a b m o sc op) 0 (fun _ => 0) 0) ∧
    ∀ t, exec (.rstv d a m n) s = .next t → row t ∧ ∃ u, (u = s ∨ u = settleAtoms s r) ∧
      ∀ j, untraced r.core j → memGet t.mem j = memGet u.mem j) ∧
  (∀ (s : State) (r : RowId) (x : Row) (w : Band) (d a b : Reg) (ta tb : Bool), Executes s r x w → s.mem.wf = true →
    let keeps (i : Instr) (f : State → Nat → Prop) : Prop := ∀ t, exec i s = .next t →
      (∃ y : Row, t.row? r = some y ∧ (∀ e : Reg, e ≠ resultField i → y.sget e = x.sget e) ∧ x.keepsFull y ∧
        y.regs.v = x.regs.v ∧ y.regs.vfull = x.regs.vfull ∧ y.regs.m = x.regs.m ∧
        y.fp = { x.fp with flags := y.fp.flags, pend := y.fp.pend } ∧ (i ≠ .qpack d a b ta tb → y.fp = x.fp) ∧
        y.north = x.north ∧ y.south = x.south ∧ y.mx = x.mx ∧ y.stack = x.stack ∧ y.cls = x.cls) ∧
      (∀ q, q ≠ r → t.row? q = s.row? q) ∧ t.bands = s.bands ∧ t.cmds = s.cmds ∧ t.clusters = s.clusters ∧
      keepsMemory s t r f
    let A := x.sget a
    let B := x.sget b
    let off := fld B 19 0
    let card (u : State) : Card := cardOf (memRead u.mem (winKey w off) 32)
    keeps (.cardck d a ta) (fun _ _ => False) ∧
    keeps (.mpack d a b ta tb) (fun u j =>
      let k := card u
      let rows := (List.range k.rop).map (fun i => memRead u.mem (winKey w (fld A 19 0 + i * fld A 51 32 : Nat)) (k.kop * k.e))
      let elem (i j : Nat) : List Byte := ((rows.getD i []).drop (j * k.e)).take k.e
      inRange w (off + k.moff) (packMasks k.m (k.prune elem).1).length j ∨
        inRange w (off + k.voff) (k.packValues (k.prune elem).1 elem).length j) ∧
    keeps (.munpk a b ta tb) (fun u j =>
      ∃ i, i < (card u).rop ∧ inRange w (fld A 19 0 + i * fld A 51 32) ((card u).kop * (card u).e) j) ∧
    keeps (.qpack d a b ta tb) (fun _ j =>
      inRange w (fld B 51 32) (fld A 39 32 + 1) j ∨ inRange w (fld B 19 0) (32 * (fld A 39 32 + 1)) j))

/-- R32 to R35, R44, R187: the word of every well-formed instruction decodes to it, with every operand; only events
have no word. -/
def Obligations.EncodedDecodes : Prop :=
  ∀ (i : Instr), i.wf = true →
    (encode i = none ↔ isEvent i = true ∨ ∃ n, i = .illegalEncoding n) ∧
    ∀ w, encode i = some w → if isWalkerInstr i then decodeWalker w = some i else decodeRow w = .ok i

/-- R58, R187, R194: a word that decodes has one meaning: it is the word of the instruction that it decodes to, which
is well formed; so no reserved bit is passed over. -/
def Obligations.DecodedEncodes : Prop :=
  ∀ (w : Word) (i : Instr),
    (decodeRow w = .ok i → i.wf = true ∧ isWalkerInstr i = false ∧ encode i = some w) ∧
    (decodeWalker w = some i → i.wf = true ∧ isWalkerInstr i = true ∧ encode i = some w)

/-- (1) R369, R268, R58, R392, R446: the slot of a partition and pane with one row that may issue runs the instruction
of that row's word, which it holds or fetches first: the step is exec of it with the row active, where nothing is due
before it (R399) and the pane has used fewer than its 2 slots of the V-cycle. An instance that issues uses a slot and
its operand reads; one that lacks reads gathers what its pane is still delivered, and issues later (log entry 88). (2)
R193, R195, R405: a turn of a walker or of a core monitor runs the word at its PC, and an event's turn takes place,
where the package is not frozen, the clocks that it needs run and recovery mode leaves it powered (log entry 100). A
sample first notes what the row that it takes waits for. -/
def Obligations.AgentSteps : Prop :=
  (∀ (s : State) (g : CoreId) (part : Nat) (pane : BitVec 2) (l : List Turn) (r : RowId) (x : Row) (b : Band) (v : Word) (i : Instr),
    s.agenda = .slot g part pane :: l →
    let u : State := { s with agenda := l }
    turnBlocked u (.slot g part pane) = false → issueOrder u g part pane = [r] → u.row? r = some x → u.band? x.band = some b →
    rowDue u r x b = none → decodeRow v = .ok i → v.extractLsb' 24 8 ≠ 0xEF →
    let runs (z : State) (y : Row) : Out := match exec i { z with active := .row r } with
      | .next t => .next (if stillWaits z t r then { t with active := .none }
        else if (readsLeft z r y i).1 ≤ (readsLeft z r y i).2 then usedSlot { t with active := .none } r (readsLeft z r y i).1
        else gatherPart z r y (readsLeft z r y i).2)
      | o => o
    (2 ≤ (u.slotUse g part pane).slots → step s = .next u) ∧
    ((u.slotUse g part pane).slots < 2 →
      (x.ibuf = some v → step s = runs u x) ∧
      (x.ibuf = none → rowHeld u r x = false → rowFetchHeld u r x = false →
        ∀ t, fetchWord u r.core (u.bandAsid b) x.pc = (t, .ok v) →
        step s = runs (t.setRow r { x with ibuf := some v }) { x with ibuf := some v }))) ∧
  (∀ (s : State) (l : List Turn) (cl : ClusterId) (g : CoreId) (k : Cmd) (v : Word) (i : Instr),
    let runs (z : State) (a : Agent) : Out := match exec i { z with active := a } with
      | .next t => .next { t with active := .none }
      | o => o
    (s.agenda = .walker cl :: l →
      let u : State := { s with agenda := l }
      turnBlocked u (.walker cl) = false → walkCmd u cl = some k → (u.walker cl).stop = none → cmdStopped u k = false →
      (u.walker cl).count < 2 ^ 32 → (u.walker cl).pc < k.nwords → (u.walker cl).prog[(u.walker cl).pc]? = some v →
      decodeWalker v = some i → step s = runs u (.walker cl)) ∧
    (s.agenda = .monitor g :: l →
      let u : State := { s with agenda := l }
      let m := (u.core g).mon
      turnBlocked u (.monitor g) = false → m.mode = .privileged → m.pc.toNat + 4 ≤ 2 ^ 16 → m.pc.toNat % 4 = 0 →
      v = memWord u.mem (monitorKey g.toNat m.pc.toNat) → decodeRow v = .ok i → monAllowed false i = true →
      step s = runs u (.monitor g)) ∧
    (∀ e, s.agenda = .event e :: l → isEvent e = true → turnBlocked { s with agenda := l } (.event e) = false →
      step s = (match exec e { beforeEvent { s with agenda := l } e with active := .none } with
        | .next t => .next { t with active := .none }
        | o => o)))

/-- R31 to R36, R44, R47, R196: words that the manual writes out, of every format: the instructions that they stand
for. A word of zeros is illegal at step 2 of R58. -/
def Obligations.DecodedWords : Prop :=
  decodeRow 0x00000000 = .error 2 ∧ decodeRow 0x28000000 = .ok .nop ∧ decodeRow 0x26000000 = .ok .exit ∧
  decodeRow 0xF10D4000 = .ok (.rep 3 1 1 0) ∧ decodeRow 0x1628389A = .ok (.sli 5 0x389A) ∧
  decodeRow 0x400F8064 = .ok (.vaddi 1 30 100) ∧ decodeRow 0x6308C808 = .ok (.vfma 1 3 4 0 false false) ∧
  decodeRow 0x4117920A = .ok (.vcmp 2 30 9 0 false false true .lt) ∧ decodeRow 0xA1080010 = .ok (.stv 1 0 0 16) ∧
  decodeRow 0xA43688A0 = .ok (.ldvx 6 26 4 2 2 0) ∧ decodeRow 0xBA2EF808 = .ok (.mdrn 5 27 28 0 false false .f32) ∧
  decodeRow 0xD0620040 = .ok (.shcp 12 8 0 false false) ∧ decodeRow 0xDBB80080 = .ok (.seal 23 .gs) ∧
  decodeRow 0xE0056C00 = .ok (.binit 21 22 false false) ∧ decodeRow 0xE8700020 = .ok (.csrr 14 0x020) ∧
  decodeRow 0xEF05B001 = .ok (.kwrr 22 24) ∧ decodeWalker 0x63CE800B = some (.wbcc 15 3 .geu 11) ∧
  decodeWalker 0x8A5E1000 = some (.isect 9 7 8 4) ∧ decodeWalker 0x64007FF6 = some (.wj (-10))

/-- (1) R9, R116, R215, R352, R379, R396, R405, R430, R435, R450, R473: the machine after reset: no row is leased, no
launch accepted, no command in flight, and no translation cached. Of the registers it states CYCLE and MCYCLE, the
trap queues and the monitors, the slots' owners, the queues' BASE, EN, HEAD, TAIL, NERR and NACC, the channels'
counters and states, ROOT, WINBASE, HOLDLIM, DEVID, the EN of PEERASID, NRTO, the power cap, the trace rings and the
step of bring-up. That memory reads 0 then is the model's choice (log entry 1). (2) Reset memory has the canonical
form. -/
def Obligations.ResetValues : Prop :=
  (let s := State.reset
  s.rows = [] ∧ s.bands = [] ∧ s.launches = [] ∧ s.conts = [] ∧ s.cmds = [] ∧ s.tcache = [] ∧ s.mem = [] ∧
  (∀ g : CoreId, (s.core g).cycle = 0 ∧ (s.core g).mcycle = 0 ∧ (s.core g).trapQ = [] ∧ (s.core g).mon.mode = .idle) ∧
  (∀ (cl : ClusterId) (i : BitVec 6), (s.cluster cl).slots[i.toNat].owner = none) ∧
  (∀ q : BitVec 4, (s.queue q).base = 0 ∧ (s.queue q).en = false ∧ (s.queue q).head = 0 ∧ (s.queue q).tail = 0 ∧
    (s.queue q).nerr = 0 ∧ (s.queue q).nacc = 0) ∧
  (∀ c : Fin 384, (s.chans[c.val]).cecnt = 0 ∧ (s.chans[c.val]).uecnt = 0 ∧ (s.chans[c.val]).rpcnt = 0 ∧
    (s.chans[c.val]).failed = false ∧ (s.chans[c.val]).trained = false) ∧
  (∀ n : Fin 64, s.regs.roots[n.val] = 0) ∧ s.regs.winbase = 0 ∧ s.regs.holdlim = 40 ∧ s.net.devid = 0 ∧
  s.net.peerEn = false ∧ s.net.nrto = 30 ∧ s.mgmt.step = 1 ∧ s.mgmt.bootState = 0 ∧ s.mgmt.mbBusy = false ∧ s.mgmt.cap = 2800 ∧
  (∀ d : DieId, (s.die d).trEn = false ∧ (s.die d).trWr = 0 ∧ (s.die d).trRd = 0)) ∧
  (State.reset.mem.wf = true ∧ ∀ (s : State) (t : State), exec .deviceReset s = .next t → s.mem.wf = true → t.mem.wf = true)

/-- Every step keeps the canonical form of memory: keys strictly rising, no cell of the value that an unlisted key
has. -/
def Obligations.MemoryWfStep : Prop :=
  ∀ (s t : State), s.mem.wf = true → step s = .next t → t.mem.wf = true
end

