-- ==== Sys2Proof/Laws/State.lean ====
section
/-! SUPPORT. What each update of the state leaves as it was, one lemma for each field and update, and what it writes. -/
namespace Sys2Proof.Machine

/-! ### setRow -/

@[simp] theorem State.setRow_mem (s : State) (r : RowId) (x : Row) : (s.setRow r x).mem = s.mem := rfl
@[simp] theorem State.setRow_badLines (s : State) (r : RowId) (x : Row) : (s.setRow r x).badLines = s.badLines := rfl
@[simp] theorem State.setRow_weakLines (s : State) (r : RowId) (x : Row) : (s.setRow r x).weakLines = s.weakLines := rfl
@[simp] theorem State.setRow_badWords (s : State) (r : RowId) (x : Row) : (s.setRow r x).badWords = s.badWords := rfl
@[simp] theorem State.setRow_bands (s : State) (r : RowId) (x : Row) : (s.setRow r x).bands = s.bands := rfl
@[simp] theorem State.setRow_launches (s : State) (r : RowId) (x : Row) : (s.setRow r x).launches = s.launches := rfl
@[simp] theorem State.setRow_conts (s : State) (r : RowId) (x : Row) : (s.setRow r x).conts = s.conts := rfl
@[simp] theorem State.setRow_cmds (s : State) (r : RowId) (x : Row) : (s.setRow r x).cmds = s.cmds := rfl
@[simp] theorem State.setRow_cores (s : State) (r : RowId) (x : Row) : (s.setRow r x).cores = s.cores := rfl
@[simp] theorem State.setRow_clusters (s : State) (r : RowId) (x : Row) : (s.setRow r x).clusters = s.clusters := rfl
@[simp] theorem State.setRow_dies (s : State) (r : RowId) (x : Row) : (s.setRow r x).dies = s.dies := rfl
@[simp] theorem State.setRow_hbmStacks (s : State) (r : RowId) (x : Row) : (s.setRow r x).hbmStacks = s.hbmStacks := rfl
@[simp] theorem State.setRow_chans (s : State) (r : RowId) (x : Row) : (s.setRow r x).chans = s.chans := rfl
@[simp] theorem State.setRow_scrub (s : State) (r : RowId) (x : Row) : (s.setRow r x).scrub = s.scrub := rfl
@[simp] theorem State.setRow_tcache (s : State) (r : RowId) (x : Row) : (s.setRow r x).tcache = s.tcache := rfl
@[simp] theorem State.setRow_tables (s : State) (r : RowId) (x : Row) : (s.setRow r x).tables = s.tables := rfl
@[simp] theorem State.setRow_freeze (s : State) (r : RowId) (x : Row) : (s.setRow r x).freeze = s.freeze := rfl
@[simp] theorem State.setRow_heldHost (s : State) (r : RowId) (x : Row) : (s.setRow r x).heldHost = s.heldHost := rfl
@[simp] theorem State.setRow_n (s : State) (r : RowId) (x : Row) : (s.setRow r x).n = s.n := rfl
@[simp] theorem State.setRow_pendingN (s : State) (r : RowId) (x : Row) : (s.setRow r x).pendingN = s.pendingN := rfl
@[simp] theorem State.setRow_dist (s : State) (r : RowId) (x : Row) : (s.setRow r x).dist = s.dist := rfl
@[simp] theorem State.setRow_regs (s : State) (r : RowId) (x : Row) : (s.setRow r x).regs = s.regs := rfl
@[simp] theorem State.setRow_net (s : State) (r : RowId) (x : Row) : (s.setRow r x).net = s.net := rfl
@[simp] theorem State.setRow_treadle (s : State) (r : RowId) (x : Row) : (s.setRow r x).treadle = s.treadle := rfl
@[simp] theorem State.setRow_tracePort (s : State) (r : RowId) (x : Row) : (s.setRow r x).tracePort = s.tracePort := rfl
@[simp] theorem State.setRow_notes (s : State) (r : RowId) (x : Row) : (s.setRow r x).notes = s.notes := rfl
@[simp] theorem State.setRow_crossFail (s : State) (r : RowId) (x : Row) : (s.setRow r x).crossFail = s.crossFail := rfl
@[simp] theorem State.setRow_mgmt (s : State) (r : RowId) (x : Row) : (s.setRow r x).mgmt = s.mgmt := rfl
@[simp] theorem State.setRow_agenda (s : State) (r : RowId) (x : Row) : (s.setRow r x).agenda = s.agenda := rfl
@[simp] theorem State.setRow_active (s : State) (r : RowId) (x : Row) : (s.setRow r x).active = s.active := rfl
@[simp] theorem State.setRow_nextId (s : State) (r : RowId) (x : Row) : (s.setRow r x).nextId = s.nextId := rfl

/-! ### modRow -/

@[simp] theorem State.modRow_mem (s : State) (r : RowId) (f : Row → Row) : (s.modRow r f).mem = s.mem := by unfold State.modRow; split <;> rfl
@[simp] theorem State.modRow_badLines (s : State) (r : RowId) (f : Row → Row) : (s.modRow r f).badLines = s.badLines := by unfold State.modRow; split <;> rfl
@[simp] theorem State.modRow_weakLines (s : State) (r : RowId) (f : Row → Row) : (s.modRow r f).weakLines = s.weakLines := by unfold State.modRow; split <;> rfl
@[simp] theorem State.modRow_badWords (s : State) (r : RowId) (f : Row → Row) : (s.modRow r f).badWords = s.badWords := by unfold State.modRow; split <;> rfl
@[simp] theorem State.modRow_bands (s : State) (r : RowId) (f : Row → Row) : (s.modRow r f).bands = s.bands := by unfold State.modRow; split <;> rfl
@[simp] theorem State.modRow_launches (s : State) (r : RowId) (f : Row → Row) : (s.modRow r f).launches = s.launches := by unfold State.modRow; split <;> rfl
@[simp] theorem State.modRow_conts (s : State) (r : RowId) (f : Row → Row) : (s.modRow r f).conts = s.conts := by unfold State.modRow; split <;> rfl
@[simp] theorem State.modRow_cmds (s : State) (r : RowId) (f : Row → Row) : (s.modRow r f).cmds = s.cmds := by unfold State.modRow; split <;> rfl
@[simp] theorem State.modRow_cores (s : State) (r : RowId) (f : Row → Row) : (s.modRow r f).cores = s.cores := by unfold State.modRow; split <;> rfl
@[simp] theorem State.modRow_clusters (s : State) (r : RowId) (f : Row → Row) : (s.modRow r f).clusters = s.clusters := by unfold State.modRow; split <;> rfl
@[simp] theorem State.modRow_dies (s : State) (r : RowId) (f : Row → Row) : (s.modRow r f).dies = s.dies := by unfold State.modRow; split <;> rfl
@[simp] theorem State.modRow_hbmStacks (s : State) (r : RowId) (f : Row → Row) : (s.modRow r f).hbmStacks = s.hbmStacks := by unfold State.modRow; split <;> rfl
@[simp] theorem State.modRow_chans (s : State) (r : RowId) (f : Row → Row) : (s.modRow r f).chans = s.chans := by unfold State.modRow; split <;> rfl
@[simp] theorem State.modRow_scrub (s : State) (r : RowId) (f : Row → Row) : (s.modRow r f).scrub = s.scrub := by unfold State.modRow; split <;> rfl
@[simp] theorem State.modRow_tcache (s : State) (r : RowId) (f : Row → Row) : (s.modRow r f).tcache = s.tcache := by unfold State.modRow; split <;> rfl
@[simp] theorem State.modRow_tables (s : State) (r : RowId) (f : Row → Row) : (s.modRow r f).tables = s.tables := by unfold State.modRow; split <;> rfl
@[simp] theorem State.modRow_freeze (s : State) (r : RowId) (f : Row → Row) : (s.modRow r f).freeze = s.freeze := by unfold State.modRow; split <;> rfl
@[simp] theorem State.modRow_heldHost (s : State) (r : RowId) (f : Row → Row) : (s.modRow r f).heldHost = s.heldHost := by unfold State.modRow; split <;> rfl
@[simp] theorem State.modRow_n (s : State) (r : RowId) (f : Row → Row) : (s.modRow r f).n = s.n := by unfold State.modRow; split <;> rfl
@[simp] theorem State.modRow_pendingN (s : State) (r : RowId) (f : Row → Row) : (s.modRow r f).pendingN = s.pendingN := by unfold State.modRow; split <;> rfl
@[simp] theorem State.modRow_dist (s : State) (r : RowId) (f : Row → Row) : (s.modRow r f).dist = s.dist := by unfold State.modRow; split <;> rfl
@[simp] theorem State.modRow_regs (s : State) (r : RowId) (f : Row → Row) : (s.modRow r f).regs = s.regs := by unfold State.modRow; split <;> rfl
@[simp] theorem State.modRow_net (s : State) (r : RowId) (f : Row → Row) : (s.modRow r f).net = s.net := by unfold State.modRow; split <;> rfl
@[simp] theorem State.modRow_treadle (s : State) (r : RowId) (f : Row → Row) : (s.modRow r f).treadle = s.treadle := by unfold State.modRow; split <;> rfl
@[simp] theorem State.modRow_tracePort (s : State) (r : RowId) (f : Row → Row) : (s.modRow r f).tracePort = s.tracePort := by unfold State.modRow; split <;> rfl
@[simp] theorem State.modRow_notes (s : State) (r : RowId) (f : Row → Row) : (s.modRow r f).notes = s.notes := by unfold State.modRow; split <;> rfl
@[simp] theorem State.modRow_crossFail (s : State) (r : RowId) (f : Row → Row) : (s.modRow r f).crossFail = s.crossFail := by unfold State.modRow; split <;> rfl
@[simp] theorem State.modRow_mgmt (s : State) (r : RowId) (f : Row → Row) : (s.modRow r f).mgmt = s.mgmt := by unfold State.modRow; split <;> rfl
@[simp] theorem State.modRow_agenda (s : State) (r : RowId) (f : Row → Row) : (s.modRow r f).agenda = s.agenda := by unfold State.modRow; split <;> rfl
@[simp] theorem State.modRow_active (s : State) (r : RowId) (f : Row → Row) : (s.modRow r f).active = s.active := by unfold State.modRow; split <;> rfl
@[simp] theorem State.modRow_nextId (s : State) (r : RowId) (f : Row → Row) : (s.modRow r f).nextId = s.nextId := by unfold State.modRow; split <;> rfl

/-! ### dropRow -/

@[simp] theorem State.dropRow_mem (s : State) (r : RowId) : (s.dropRow r).mem = s.mem := rfl
@[simp] theorem State.dropRow_badLines (s : State) (r : RowId) : (s.dropRow r).badLines = s.badLines := rfl
@[simp] theorem State.dropRow_weakLines (s : State) (r : RowId) : (s.dropRow r).weakLines = s.weakLines := rfl
@[simp] theorem State.dropRow_badWords (s : State) (r : RowId) : (s.dropRow r).badWords = s.badWords := rfl
@[simp] theorem State.dropRow_bands (s : State) (r : RowId) : (s.dropRow r).bands = s.bands := rfl
@[simp] theorem State.dropRow_launches (s : State) (r : RowId) : (s.dropRow r).launches = s.launches := rfl
@[simp] theorem State.dropRow_conts (s : State) (r : RowId) : (s.dropRow r).conts = s.conts := rfl
@[simp] theorem State.dropRow_cmds (s : State) (r : RowId) : (s.dropRow r).cmds = s.cmds := rfl
@[simp] theorem State.dropRow_cores (s : State) (r : RowId) : (s.dropRow r).cores = s.cores := rfl
@[simp] theorem State.dropRow_clusters (s : State) (r : RowId) : (s.dropRow r).clusters = s.clusters := rfl
@[simp] theorem State.dropRow_dies (s : State) (r : RowId) : (s.dropRow r).dies = s.dies := rfl
@[simp] theorem State.dropRow_hbmStacks (s : State) (r : RowId) : (s.dropRow r).hbmStacks = s.hbmStacks := rfl
@[simp] theorem State.dropRow_chans (s : State) (r : RowId) : (s.dropRow r).chans = s.chans := rfl
@[simp] theorem State.dropRow_scrub (s : State) (r : RowId) : (s.dropRow r).scrub = s.scrub := rfl
@[simp] theorem State.dropRow_tcache (s : State) (r : RowId) : (s.dropRow r).tcache = s.tcache := rfl
@[simp] theorem State.dropRow_tables (s : State) (r : RowId) : (s.dropRow r).tables = s.tables := rfl
@[simp] theorem State.dropRow_freeze (s : State) (r : RowId) : (s.dropRow r).freeze = s.freeze := rfl
@[simp] theorem State.dropRow_heldHost (s : State) (r : RowId) : (s.dropRow r).heldHost = s.heldHost := rfl
@[simp] theorem State.dropRow_n (s : State) (r : RowId) : (s.dropRow r).n = s.n := rfl
@[simp] theorem State.dropRow_pendingN (s : State) (r : RowId) : (s.dropRow r).pendingN = s.pendingN := rfl
@[simp] theorem State.dropRow_dist (s : State) (r : RowId) : (s.dropRow r).dist = s.dist := rfl
@[simp] theorem State.dropRow_regs (s : State) (r : RowId) : (s.dropRow r).regs = s.regs := rfl
@[simp] theorem State.dropRow_net (s : State) (r : RowId) : (s.dropRow r).net = s.net := rfl
@[simp] theorem State.dropRow_treadle (s : State) (r : RowId) : (s.dropRow r).treadle = s.treadle := rfl
@[simp] theorem State.dropRow_tracePort (s : State) (r : RowId) : (s.dropRow r).tracePort = s.tracePort := rfl
@[simp] theorem State.dropRow_notes (s : State) (r : RowId) : (s.dropRow r).notes = s.notes := rfl
@[simp] theorem State.dropRow_crossFail (s : State) (r : RowId) : (s.dropRow r).crossFail = s.crossFail := rfl
@[simp] theorem State.dropRow_mgmt (s : State) (r : RowId) : (s.dropRow r).mgmt = s.mgmt := rfl
@[simp] theorem State.dropRow_agenda (s : State) (r : RowId) : (s.dropRow r).agenda = s.agenda := rfl
@[simp] theorem State.dropRow_active (s : State) (r : RowId) : (s.dropRow r).active = s.active := rfl
@[simp] theorem State.dropRow_nextId (s : State) (r : RowId) : (s.dropRow r).nextId = s.nextId := rfl

/-! ### mapRows -/

@[simp] theorem State.mapRows_mem (s : State) (f : RowId → Row → Row) : (s.mapRows f).mem = s.mem := rfl
@[simp] theorem State.mapRows_badLines (s : State) (f : RowId → Row → Row) : (s.mapRows f).badLines = s.badLines := rfl
@[simp] theorem State.mapRows_weakLines (s : State) (f : RowId → Row → Row) : (s.mapRows f).weakLines = s.weakLines := rfl
@[simp] theorem State.mapRows_badWords (s : State) (f : RowId → Row → Row) : (s.mapRows f).badWords = s.badWords := rfl
@[simp] theorem State.mapRows_bands (s : State) (f : RowId → Row → Row) : (s.mapRows f).bands = s.bands := rfl
@[simp] theorem State.mapRows_launches (s : State) (f : RowId → Row → Row) : (s.mapRows f).launches = s.launches := rfl
@[simp] theorem State.mapRows_conts (s : State) (f : RowId → Row → Row) : (s.mapRows f).conts = s.conts := rfl
@[simp] theorem State.mapRows_cmds (s : State) (f : RowId → Row → Row) : (s.mapRows f).cmds = s.cmds := rfl
@[simp] theorem State.mapRows_cores (s : State) (f : RowId → Row → Row) : (s.mapRows f).cores = s.cores := rfl
@[simp] theorem State.mapRows_clusters (s : State) (f : RowId → Row → Row) : (s.mapRows f).clusters = s.clusters := rfl
@[simp] theorem State.mapRows_dies (s : State) (f : RowId → Row → Row) : (s.mapRows f).dies = s.dies := rfl
@[simp] theorem State.mapRows_hbmStacks (s : State) (f : RowId → Row → Row) : (s.mapRows f).hbmStacks = s.hbmStacks := rfl
@[simp] theorem State.mapRows_chans (s : State) (f : RowId → Row → Row) : (s.mapRows f).chans = s.chans := rfl
@[simp] theorem State.mapRows_scrub (s : State) (f : RowId → Row → Row) : (s.mapRows f).scrub = s.scrub := rfl
@[simp] theorem State.mapRows_tcache (s : State) (f : RowId → Row → Row) : (s.mapRows f).tcache = s.tcache := rfl
@[simp] theorem State.mapRows_tables (s : State) (f : RowId → Row → Row) : (s.mapRows f).tables = s.tables := rfl
@[simp] theorem State.mapRows_freeze (s : State) (f : RowId → Row → Row) : (s.mapRows f).freeze = s.freeze := rfl
@[simp] theorem State.mapRows_heldHost (s : State) (f : RowId → Row → Row) : (s.mapRows f).heldHost = s.heldHost := rfl
@[simp] theorem State.mapRows_n (s : State) (f : RowId → Row → Row) : (s.mapRows f).n = s.n := rfl
@[simp] theorem State.mapRows_pendingN (s : State) (f : RowId → Row → Row) : (s.mapRows f).pendingN = s.pendingN := rfl
@[simp] theorem State.mapRows_dist (s : State) (f : RowId → Row → Row) : (s.mapRows f).dist = s.dist := rfl
@[simp] theorem State.mapRows_regs (s : State) (f : RowId → Row → Row) : (s.mapRows f).regs = s.regs := rfl
@[simp] theorem State.mapRows_net (s : State) (f : RowId → Row → Row) : (s.mapRows f).net = s.net := rfl
@[simp] theorem State.mapRows_treadle (s : State) (f : RowId → Row → Row) : (s.mapRows f).treadle = s.treadle := rfl
@[simp] theorem State.mapRows_tracePort (s : State) (f : RowId → Row → Row) : (s.mapRows f).tracePort = s.tracePort := rfl
@[simp] theorem State.mapRows_notes (s : State) (f : RowId → Row → Row) : (s.mapRows f).notes = s.notes := rfl
@[simp] theorem State.mapRows_crossFail (s : State) (f : RowId → Row → Row) : (s.mapRows f).crossFail = s.crossFail := rfl
@[simp] theorem State.mapRows_mgmt (s : State) (f : RowId → Row → Row) : (s.mapRows f).mgmt = s.mgmt := rfl
@[simp] theorem State.mapRows_agenda (s : State) (f : RowId → Row → Row) : (s.mapRows f).agenda = s.agenda := rfl
@[simp] theorem State.mapRows_active (s : State) (f : RowId → Row → Row) : (s.mapRows f).active = s.active := rfl
@[simp] theorem State.mapRows_nextId (s : State) (f : RowId → Row → Row) : (s.mapRows f).nextId = s.nextId := rfl

/-! ### modBand -/

@[simp] theorem State.modBand_mem (s : State) (b : Nat) (f : Band → Band) : (s.modBand b f).mem = s.mem := rfl
@[simp] theorem State.modBand_badLines (s : State) (b : Nat) (f : Band → Band) : (s.modBand b f).badLines = s.badLines := rfl
@[simp] theorem State.modBand_weakLines (s : State) (b : Nat) (f : Band → Band) : (s.modBand b f).weakLines = s.weakLines := rfl
@[simp] theorem State.modBand_badWords (s : State) (b : Nat) (f : Band → Band) : (s.modBand b f).badWords = s.badWords := rfl
@[simp] theorem State.modBand_rows (s : State) (b : Nat) (f : Band → Band) : (s.modBand b f).rows = s.rows := rfl
@[simp] theorem State.modBand_launches (s : State) (b : Nat) (f : Band → Band) : (s.modBand b f).launches = s.launches := rfl
@[simp] theorem State.modBand_conts (s : State) (b : Nat) (f : Band → Band) : (s.modBand b f).conts = s.conts := rfl
@[simp] theorem State.modBand_cmds (s : State) (b : Nat) (f : Band → Band) : (s.modBand b f).cmds = s.cmds := rfl
@[simp] theorem State.modBand_cores (s : State) (b : Nat) (f : Band → Band) : (s.modBand b f).cores = s.cores := rfl
@[simp] theorem State.modBand_clusters (s : State) (b : Nat) (f : Band → Band) : (s.modBand b f).clusters = s.clusters := rfl
@[simp] theorem State.modBand_dies (s : State) (b : Nat) (f : Band → Band) : (s.modBand b f).dies = s.dies := rfl
@[simp] theorem State.modBand_hbmStacks (s : State) (b : Nat) (f : Band → Band) : (s.modBand b f).hbmStacks = s.hbmStacks := rfl
@[simp] theorem State.modBand_chans (s : State) (b : Nat) (f : Band → Band) : (s.modBand b f).chans = s.chans := rfl
@[simp] theorem State.modBand_scrub (s : State) (b : Nat) (f : Band → Band) : (s.modBand b f).scrub = s.scrub := rfl
@[simp] theorem State.modBand_tcache (s : State) (b : Nat) (f : Band → Band) : (s.modBand b f).tcache = s.tcache := rfl
@[simp] theorem State.modBand_tables (s : State) (b : Nat) (f : Band → Band) : (s.modBand b f).tables = s.tables := rfl
@[simp] theorem State.modBand_freeze (s : State) (b : Nat) (f : Band → Band) : (s.modBand b f).freeze = s.freeze := rfl
@[simp] theorem State.modBand_heldHost (s : State) (b : Nat) (f : Band → Band) : (s.modBand b f).heldHost = s.heldHost := rfl
@[simp] theorem State.modBand_n (s : State) (b : Nat) (f : Band → Band) : (s.modBand b f).n = s.n := rfl
@[simp] theorem State.modBand_pendingN (s : State) (b : Nat) (f : Band → Band) : (s.modBand b f).pendingN = s.pendingN := rfl
@[simp] theorem State.modBand_dist (s : State) (b : Nat) (f : Band → Band) : (s.modBand b f).dist = s.dist := rfl
@[simp] theorem State.modBand_regs (s : State) (b : Nat) (f : Band → Band) : (s.modBand b f).regs = s.regs := rfl
@[simp] theorem State.modBand_net (s : State) (b : Nat) (f : Band → Band) : (s.modBand b f).net = s.net := rfl
@[simp] theorem State.modBand_treadle (s : State) (b : Nat) (f : Band → Band) : (s.modBand b f).treadle = s.treadle := rfl
@[simp] theorem State.modBand_tracePort (s : State) (b : Nat) (f : Band → Band) : (s.modBand b f).tracePort = s.tracePort := rfl
@[simp] theorem State.modBand_notes (s : State) (b : Nat) (f : Band → Band) : (s.modBand b f).notes = s.notes := rfl
@[simp] theorem State.modBand_crossFail (s : State) (b : Nat) (f : Band → Band) : (s.modBand b f).crossFail = s.crossFail := rfl
@[simp] theorem State.modBand_mgmt (s : State) (b : Nat) (f : Band → Band) : (s.modBand b f).mgmt = s.mgmt := rfl
@[simp] theorem State.modBand_agenda (s : State) (b : Nat) (f : Band → Band) : (s.modBand b f).agenda = s.agenda := rfl
@[simp] theorem State.modBand_active (s : State) (b : Nat) (f : Band → Band) : (s.modBand b f).active = s.active := rfl
@[simp] theorem State.modBand_nextId (s : State) (b : Nat) (f : Band → Band) : (s.modBand b f).nextId = s.nextId := rfl

/-! ### mapBands -/

@[simp] theorem State.mapBands_mem (s : State) (f : Band → Band) : (s.mapBands f).mem = s.mem := rfl
@[simp] theorem State.mapBands_badLines (s : State) (f : Band → Band) : (s.mapBands f).badLines = s.badLines := rfl
@[simp] theorem State.mapBands_weakLines (s : State) (f : Band → Band) : (s.mapBands f).weakLines = s.weakLines := rfl
@[simp] theorem State.mapBands_badWords (s : State) (f : Band → Band) : (s.mapBands f).badWords = s.badWords := rfl
@[simp] theorem State.mapBands_rows (s : State) (f : Band → Band) : (s.mapBands f).rows = s.rows := rfl
@[simp] theorem State.mapBands_launches (s : State) (f : Band → Band) : (s.mapBands f).launches = s.launches := rfl
@[simp] theorem State.mapBands_conts (s : State) (f : Band → Band) : (s.mapBands f).conts = s.conts := rfl
@[simp] theorem State.mapBands_cmds (s : State) (f : Band → Band) : (s.mapBands f).cmds = s.cmds := rfl
@[simp] theorem State.mapBands_cores (s : State) (f : Band → Band) : (s.mapBands f).cores = s.cores := rfl
@[simp] theorem State.mapBands_clusters (s : State) (f : Band → Band) : (s.mapBands f).clusters = s.clusters := rfl
@[simp] theorem State.mapBands_dies (s : State) (f : Band → Band) : (s.mapBands f).dies = s.dies := rfl
@[simp] theorem State.mapBands_hbmStacks (s : State) (f : Band → Band) : (s.mapBands f).hbmStacks = s.hbmStacks := rfl
@[simp] theorem State.mapBands_chans (s : State) (f : Band → Band) : (s.mapBands f).chans = s.chans := rfl
@[simp] theorem State.mapBands_scrub (s : State) (f : Band → Band) : (s.mapBands f).scrub = s.scrub := rfl
@[simp] theorem State.mapBands_tcache (s : State) (f : Band → Band) : (s.mapBands f).tcache = s.tcache := rfl
@[simp] theorem State.mapBands_tables (s : State) (f : Band → Band) : (s.mapBands f).tables = s.tables := rfl
@[simp] theorem State.mapBands_freeze (s : State) (f : Band → Band) : (s.mapBands f).freeze = s.freeze := rfl
@[simp] theorem State.mapBands_heldHost (s : State) (f : Band → Band) : (s.mapBands f).heldHost = s.heldHost := rfl
@[simp] theorem State.mapBands_n (s : State) (f : Band → Band) : (s.mapBands f).n = s.n := rfl
@[simp] theorem State.mapBands_pendingN (s : State) (f : Band → Band) : (s.mapBands f).pendingN = s.pendingN := rfl
@[simp] theorem State.mapBands_dist (s : State) (f : Band → Band) : (s.mapBands f).dist = s.dist := rfl
@[simp] theorem State.mapBands_regs (s : State) (f : Band → Band) : (s.mapBands f).regs = s.regs := rfl
@[simp] theorem State.mapBands_net (s : State) (f : Band → Band) : (s.mapBands f).net = s.net := rfl
@[simp] theorem State.mapBands_treadle (s : State) (f : Band → Band) : (s.mapBands f).treadle = s.treadle := rfl
@[simp] theorem State.mapBands_tracePort (s : State) (f : Band → Band) : (s.mapBands f).tracePort = s.tracePort := rfl
@[simp] theorem State.mapBands_notes (s : State) (f : Band → Band) : (s.mapBands f).notes = s.notes := rfl
@[simp] theorem State.mapBands_crossFail (s : State) (f : Band → Band) : (s.mapBands f).crossFail = s.crossFail := rfl
@[simp] theorem State.mapBands_mgmt (s : State) (f : Band → Band) : (s.mapBands f).mgmt = s.mgmt := rfl
@[simp] theorem State.mapBands_agenda (s : State) (f : Band → Band) : (s.mapBands f).agenda = s.agenda := rfl
@[simp] theorem State.mapBands_active (s : State) (f : Band → Band) : (s.mapBands f).active = s.active := rfl
@[simp] theorem State.mapBands_nextId (s : State) (f : Band → Band) : (s.mapBands f).nextId = s.nextId := rfl

/-! ### modLaunch -/

@[simp] theorem State.modLaunch_mem (s : State) (l : Nat) (f : Launch → Launch) : (s.modLaunch l f).mem = s.mem := rfl
@[simp] theorem State.modLaunch_badLines (s : State) (l : Nat) (f : Launch → Launch) : (s.modLaunch l f).badLines = s.badLines := rfl
@[simp] theorem State.modLaunch_weakLines (s : State) (l : Nat) (f : Launch → Launch) : (s.modLaunch l f).weakLines = s.weakLines := rfl
@[simp] theorem State.modLaunch_badWords (s : State) (l : Nat) (f : Launch → Launch) : (s.modLaunch l f).badWords = s.badWords := rfl
@[simp] theorem State.modLaunch_rows (s : State) (l : Nat) (f : Launch → Launch) : (s.modLaunch l f).rows = s.rows := rfl
@[simp] theorem State.modLaunch_bands (s : State) (l : Nat) (f : Launch → Launch) : (s.modLaunch l f).bands = s.bands := rfl
@[simp] theorem State.modLaunch_conts (s : State) (l : Nat) (f : Launch → Launch) : (s.modLaunch l f).conts = s.conts := rfl
@[simp] theorem State.modLaunch_cmds (s : State) (l : Nat) (f : Launch → Launch) : (s.modLaunch l f).cmds = s.cmds := rfl
@[simp] theorem State.modLaunch_cores (s : State) (l : Nat) (f : Launch → Launch) : (s.modLaunch l f).cores = s.cores := rfl
@[simp] theorem State.modLaunch_clusters (s : State) (l : Nat) (f : Launch → Launch) : (s.modLaunch l f).clusters = s.clusters := rfl
@[simp] theorem State.modLaunch_dies (s : State) (l : Nat) (f : Launch → Launch) : (s.modLaunch l f).dies = s.dies := rfl
@[simp] theorem State.modLaunch_hbmStacks (s : State) (l : Nat) (f : Launch → Launch) : (s.modLaunch l f).hbmStacks = s.hbmStacks := rfl
@[simp] theorem State.modLaunch_chans (s : State) (l : Nat) (f : Launch → Launch) : (s.modLaunch l f).chans = s.chans := rfl
@[simp] theorem State.modLaunch_scrub (s : State) (l : Nat) (f : Launch → Launch) : (s.modLaunch l f).scrub = s.scrub := rfl
@[simp] theorem State.modLaunch_tcache (s : State) (l : Nat) (f : Launch → Launch) : (s.modLaunch l f).tcache = s.tcache := rfl
@[simp] theorem State.modLaunch_tables (s : State) (l : Nat) (f : Launch → Launch) : (s.modLaunch l f).tables = s.tables := rfl
@[simp] theorem State.modLaunch_freeze (s : State) (l : Nat) (f : Launch → Launch) : (s.modLaunch l f).freeze = s.freeze := rfl
@[simp] theorem State.modLaunch_heldHost (s : State) (l : Nat) (f : Launch → Launch) : (s.modLaunch l f).heldHost = s.heldHost := rfl
@[simp] theorem State.modLaunch_n (s : State) (l : Nat) (f : Launch → Launch) : (s.modLaunch l f).n = s.n := rfl
@[simp] theorem State.modLaunch_pendingN (s : State) (l : Nat) (f : Launch → Launch) : (s.modLaunch l f).pendingN = s.pendingN := rfl
@[simp] theorem State.modLaunch_dist (s : State) (l : Nat) (f : Launch → Launch) : (s.modLaunch l f).dist = s.dist := rfl
@[simp] theorem State.modLaunch_regs (s : State) (l : Nat) (f : Launch → Launch) : (s.modLaunch l f).regs = s.regs := rfl
@[simp] theorem State.modLaunch_net (s : State) (l : Nat) (f : Launch → Launch) : (s.modLaunch l f).net = s.net := rfl
@[simp] theorem State.modLaunch_treadle (s : State) (l : Nat) (f : Launch → Launch) : (s.modLaunch l f).treadle = s.treadle := rfl
@[simp] theorem State.modLaunch_tracePort (s : State) (l : Nat) (f : Launch → Launch) : (s.modLaunch l f).tracePort = s.tracePort := rfl
@[simp] theorem State.modLaunch_notes (s : State) (l : Nat) (f : Launch → Launch) : (s.modLaunch l f).notes = s.notes := rfl
@[simp] theorem State.modLaunch_crossFail (s : State) (l : Nat) (f : Launch → Launch) : (s.modLaunch l f).crossFail = s.crossFail := rfl
@[simp] theorem State.modLaunch_mgmt (s : State) (l : Nat) (f : Launch → Launch) : (s.modLaunch l f).mgmt = s.mgmt := rfl
@[simp] theorem State.modLaunch_agenda (s : State) (l : Nat) (f : Launch → Launch) : (s.modLaunch l f).agenda = s.agenda := rfl
@[simp] theorem State.modLaunch_active (s : State) (l : Nat) (f : Launch → Launch) : (s.modLaunch l f).active = s.active := rfl
@[simp] theorem State.modLaunch_nextId (s : State) (l : Nat) (f : Launch → Launch) : (s.modLaunch l f).nextId = s.nextId := rfl

/-! ### modCmd -/

@[simp] theorem State.modCmd_mem (s : State) (c : Nat) (f : Cmd → Cmd) : (s.modCmd c f).mem = s.mem := rfl
@[simp] theorem State.modCmd_badLines (s : State) (c : Nat) (f : Cmd → Cmd) : (s.modCmd c f).badLines = s.badLines := rfl
@[simp] theorem State.modCmd_weakLines (s : State) (c : Nat) (f : Cmd → Cmd) : (s.modCmd c f).weakLines = s.weakLines := rfl
@[simp] theorem State.modCmd_badWords (s : State) (c : Nat) (f : Cmd → Cmd) : (s.modCmd c f).badWords = s.badWords := rfl
@[simp] theorem State.modCmd_rows (s : State) (c : Nat) (f : Cmd → Cmd) : (s.modCmd c f).rows = s.rows := rfl
@[simp] theorem State.modCmd_bands (s : State) (c : Nat) (f : Cmd → Cmd) : (s.modCmd c f).bands = s.bands := rfl
@[simp] theorem State.modCmd_launches (s : State) (c : Nat) (f : Cmd → Cmd) : (s.modCmd c f).launches = s.launches := rfl
@[simp] theorem State.modCmd_conts (s : State) (c : Nat) (f : Cmd → Cmd) : (s.modCmd c f).conts = s.conts := rfl
@[simp] theorem State.modCmd_cores (s : State) (c : Nat) (f : Cmd → Cmd) : (s.modCmd c f).cores = s.cores := rfl
@[simp] theorem State.modCmd_clusters (s : State) (c : Nat) (f : Cmd → Cmd) : (s.modCmd c f).clusters = s.clusters := rfl
@[simp] theorem State.modCmd_dies (s : State) (c : Nat) (f : Cmd → Cmd) : (s.modCmd c f).dies = s.dies := rfl
@[simp] theorem State.modCmd_hbmStacks (s : State) (c : Nat) (f : Cmd → Cmd) : (s.modCmd c f).hbmStacks = s.hbmStacks := rfl
@[simp] theorem State.modCmd_chans (s : State) (c : Nat) (f : Cmd → Cmd) : (s.modCmd c f).chans = s.chans := rfl
@[simp] theorem State.modCmd_scrub (s : State) (c : Nat) (f : Cmd → Cmd) : (s.modCmd c f).scrub = s.scrub := rfl
@[simp] theorem State.modCmd_tcache (s : State) (c : Nat) (f : Cmd → Cmd) : (s.modCmd c f).tcache = s.tcache := rfl
@[simp] theorem State.modCmd_tables (s : State) (c : Nat) (f : Cmd → Cmd) : (s.modCmd c f).tables = s.tables := rfl
@[simp] theorem State.modCmd_freeze (s : State) (c : Nat) (f : Cmd → Cmd) : (s.modCmd c f).freeze = s.freeze := rfl
@[simp] theorem State.modCmd_heldHost (s : State) (c : Nat) (f : Cmd → Cmd) : (s.modCmd c f).heldHost = s.heldHost := rfl
@[simp] theorem State.modCmd_n (s : State) (c : Nat) (f : Cmd → Cmd) : (s.modCmd c f).n = s.n := rfl
@[simp] theorem State.modCmd_pendingN (s : State) (c : Nat) (f : Cmd → Cmd) : (s.modCmd c f).pendingN = s.pendingN := rfl
@[simp] theorem State.modCmd_dist (s : State) (c : Nat) (f : Cmd → Cmd) : (s.modCmd c f).dist = s.dist := rfl
@[simp] theorem State.modCmd_regs (s : State) (c : Nat) (f : Cmd → Cmd) : (s.modCmd c f).regs = s.regs := rfl
@[simp] theorem State.modCmd_net (s : State) (c : Nat) (f : Cmd → Cmd) : (s.modCmd c f).net = s.net := rfl
@[simp] theorem State.modCmd_treadle (s : State) (c : Nat) (f : Cmd → Cmd) : (s.modCmd c f).treadle = s.treadle := rfl
@[simp] theorem State.modCmd_tracePort (s : State) (c : Nat) (f : Cmd → Cmd) : (s.modCmd c f).tracePort = s.tracePort := rfl
@[simp] theorem State.modCmd_notes (s : State) (c : Nat) (f : Cmd → Cmd) : (s.modCmd c f).notes = s.notes := rfl
@[simp] theorem State.modCmd_crossFail (s : State) (c : Nat) (f : Cmd → Cmd) : (s.modCmd c f).crossFail = s.crossFail := rfl
@[simp] theorem State.modCmd_mgmt (s : State) (c : Nat) (f : Cmd → Cmd) : (s.modCmd c f).mgmt = s.mgmt := rfl
@[simp] theorem State.modCmd_agenda (s : State) (c : Nat) (f : Cmd → Cmd) : (s.modCmd c f).agenda = s.agenda := rfl
@[simp] theorem State.modCmd_active (s : State) (c : Nat) (f : Cmd → Cmd) : (s.modCmd c f).active = s.active := rfl
@[simp] theorem State.modCmd_nextId (s : State) (c : Nat) (f : Cmd → Cmd) : (s.modCmd c f).nextId = s.nextId := rfl

/-! ### modCore -/

@[simp] theorem State.modCore_mem (s : State) (g : CoreId) (f : Core → Core) : (s.modCore g f).mem = s.mem := rfl
@[simp] theorem State.modCore_badLines (s : State) (g : CoreId) (f : Core → Core) : (s.modCore g f).badLines = s.badLines := rfl
@[simp] theorem State.modCore_weakLines (s : State) (g : CoreId) (f : Core → Core) : (s.modCore g f).weakLines = s.weakLines := rfl
@[simp] theorem State.modCore_badWords (s : State) (g : CoreId) (f : Core → Core) : (s.modCore g f).badWords = s.badWords := rfl
@[simp] theorem State.modCore_rows (s : State) (g : CoreId) (f : Core → Core) : (s.modCore g f).rows = s.rows := rfl
@[simp] theorem State.modCore_bands (s : State) (g : CoreId) (f : Core → Core) : (s.modCore g f).bands = s.bands := rfl
@[simp] theorem State.modCore_launches (s : State) (g : CoreId) (f : Core → Core) : (s.modCore g f).launches = s.launches := rfl
@[simp] theorem State.modCore_conts (s : State) (g : CoreId) (f : Core → Core) : (s.modCore g f).conts = s.conts := rfl
@[simp] theorem State.modCore_cmds (s : State) (g : CoreId) (f : Core → Core) : (s.modCore g f).cmds = s.cmds := rfl
@[simp] theorem State.modCore_clusters (s : State) (g : CoreId) (f : Core → Core) : (s.modCore g f).clusters = s.clusters := rfl
@[simp] theorem State.modCore_dies (s : State) (g : CoreId) (f : Core → Core) : (s.modCore g f).dies = s.dies := rfl
@[simp] theorem State.modCore_hbmStacks (s : State) (g : CoreId) (f : Core → Core) : (s.modCore g f).hbmStacks = s.hbmStacks := rfl
@[simp] theorem State.modCore_chans (s : State) (g : CoreId) (f : Core → Core) : (s.modCore g f).chans = s.chans := rfl
@[simp] theorem State.modCore_scrub (s : State) (g : CoreId) (f : Core → Core) : (s.modCore g f).scrub = s.scrub := rfl
@[simp] theorem State.modCore_tcache (s : State) (g : CoreId) (f : Core → Core) : (s.modCore g f).tcache = s.tcache := rfl
@[simp] theorem State.modCore_tables (s : State) (g : CoreId) (f : Core → Core) : (s.modCore g f).tables = s.tables := rfl
@[simp] theorem State.modCore_freeze (s : State) (g : CoreId) (f : Core → Core) : (s.modCore g f).freeze = s.freeze := rfl
@[simp] theorem State.modCore_heldHost (s : State) (g : CoreId) (f : Core → Core) : (s.modCore g f).heldHost = s.heldHost := rfl
@[simp] theorem State.modCore_n (s : State) (g : CoreId) (f : Core → Core) : (s.modCore g f).n = s.n := rfl
@[simp] theorem State.modCore_pendingN (s : State) (g : CoreId) (f : Core → Core) : (s.modCore g f).pendingN = s.pendingN := rfl
@[simp] theorem State.modCore_dist (s : State) (g : CoreId) (f : Core → Core) : (s.modCore g f).dist = s.dist := rfl
@[simp] theorem State.modCore_regs (s : State) (g : CoreId) (f : Core → Core) : (s.modCore g f).regs = s.regs := rfl
@[simp] theorem State.modCore_net (s : State) (g : CoreId) (f : Core → Core) : (s.modCore g f).net = s.net := rfl
@[simp] theorem State.modCore_treadle (s : State) (g : CoreId) (f : Core → Core) : (s.modCore g f).treadle = s.treadle := rfl
@[simp] theorem State.modCore_tracePort (s : State) (g : CoreId) (f : Core → Core) : (s.modCore g f).tracePort = s.tracePort := rfl
@[simp] theorem State.modCore_notes (s : State) (g : CoreId) (f : Core → Core) : (s.modCore g f).notes = s.notes := rfl
@[simp] theorem State.modCore_crossFail (s : State) (g : CoreId) (f : Core → Core) : (s.modCore g f).crossFail = s.crossFail := rfl
@[simp] theorem State.modCore_mgmt (s : State) (g : CoreId) (f : Core → Core) : (s.modCore g f).mgmt = s.mgmt := rfl
@[simp] theorem State.modCore_agenda (s : State) (g : CoreId) (f : Core → Core) : (s.modCore g f).agenda = s.agenda := rfl
@[simp] theorem State.modCore_active (s : State) (g : CoreId) (f : Core → Core) : (s.modCore g f).active = s.active := rfl
@[simp] theorem State.modCore_nextId (s : State) (g : CoreId) (f : Core → Core) : (s.modCore g f).nextId = s.nextId := rfl

/-! ### modCluster -/

@[simp] theorem State.modCluster_mem (s : State) (c : ClusterId) (f : Cluster → Cluster) : (s.modCluster c f).mem = s.mem := rfl
@[simp] theorem State.modCluster_badLines (s : State) (c : ClusterId) (f : Cluster → Cluster) : (s.modCluster c f).badLines = s.badLines := rfl
@[simp] theorem State.modCluster_weakLines (s : State) (c : ClusterId) (f : Cluster → Cluster) : (s.modCluster c f).weakLines = s.weakLines := rfl
@[simp] theorem State.modCluster_badWords (s : State) (c : ClusterId) (f : Cluster → Cluster) : (s.modCluster c f).badWords = s.badWords := rfl
@[simp] theorem State.modCluster_rows (s : State) (c : ClusterId) (f : Cluster → Cluster) : (s.modCluster c f).rows = s.rows := rfl
@[simp] theorem State.modCluster_bands (s : State) (c : ClusterId) (f : Cluster → Cluster) : (s.modCluster c f).bands = s.bands := rfl
@[simp] theorem State.modCluster_launches (s : State) (c : ClusterId) (f : Cluster → Cluster) : (s.modCluster c f).launches = s.launches := rfl
@[simp] theorem State.modCluster_conts (s : State) (c : ClusterId) (f : Cluster → Cluster) : (s.modCluster c f).conts = s.conts := rfl
@[simp] theorem State.modCluster_cmds (s : State) (c : ClusterId) (f : Cluster → Cluster) : (s.modCluster c f).cmds = s.cmds := rfl
@[simp] theorem State.modCluster_cores (s : State) (c : ClusterId) (f : Cluster → Cluster) : (s.modCluster c f).cores = s.cores := rfl
@[simp] theorem State.modCluster_dies (s : State) (c : ClusterId) (f : Cluster → Cluster) : (s.modCluster c f).dies = s.dies := rfl
@[simp] theorem State.modCluster_hbmStacks (s : State) (c : ClusterId) (f : Cluster → Cluster) : (s.modCluster c f).hbmStacks = s.hbmStacks := rfl
@[simp] theorem State.modCluster_chans (s : State) (c : ClusterId) (f : Cluster → Cluster) : (s.modCluster c f).chans = s.chans := rfl
@[simp] theorem State.modCluster_scrub (s : State) (c : ClusterId) (f : Cluster → Cluster) : (s.modCluster c f).scrub = s.scrub := rfl
@[simp] theorem State.modCluster_tcache (s : State) (c : ClusterId) (f : Cluster → Cluster) : (s.modCluster c f).tcache = s.tcache := rfl
@[simp] theorem State.modCluster_tables (s : State) (c : ClusterId) (f : Cluster → Cluster) : (s.modCluster c f).tables = s.tables := rfl
@[simp] theorem State.modCluster_freeze (s : State) (c : ClusterId) (f : Cluster → Cluster) : (s.modCluster c f).freeze = s.freeze := rfl
@[simp] theorem State.modCluster_heldHost (s : State) (c : ClusterId) (f : Cluster → Cluster) : (s.modCluster c f).heldHost = s.heldHost := rfl
@[simp] theorem State.modCluster_n (s : State) (c : ClusterId) (f : Cluster → Cluster) : (s.modCluster c f).n = s.n := rfl
@[simp] theorem State.modCluster_pendingN (s : State) (c : ClusterId) (f : Cluster → Cluster) : (s.modCluster c f).pendingN = s.pendingN := rfl
@[simp] theorem State.modCluster_dist (s : State) (c : ClusterId) (f : Cluster → Cluster) : (s.modCluster c f).dist = s.dist := rfl
@[simp] theorem State.modCluster_regs (s : State) (c : ClusterId) (f : Cluster → Cluster) : (s.modCluster c f).regs = s.regs := rfl
@[simp] theorem State.modCluster_net (s : State) (c : ClusterId) (f : Cluster → Cluster) : (s.modCluster c f).net = s.net := rfl
@[simp] theorem State.modCluster_treadle (s : State) (c : ClusterId) (f : Cluster → Cluster) : (s.modCluster c f).treadle = s.treadle := rfl
@[simp] theorem State.modCluster_tracePort (s : State) (c : ClusterId) (f : Cluster → Cluster) : (s.modCluster c f).tracePort = s.tracePort := rfl
@[simp] theorem State.modCluster_notes (s : State) (c : ClusterId) (f : Cluster → Cluster) : (s.modCluster c f).notes = s.notes := rfl
@[simp] theorem State.modCluster_crossFail (s : State) (c : ClusterId) (f : Cluster → Cluster) : (s.modCluster c f).crossFail = s.crossFail := rfl
@[simp] theorem State.modCluster_mgmt (s : State) (c : ClusterId) (f : Cluster → Cluster) : (s.modCluster c f).mgmt = s.mgmt := rfl
@[simp] theorem State.modCluster_agenda (s : State) (c : ClusterId) (f : Cluster → Cluster) : (s.modCluster c f).agenda = s.agenda := rfl
@[simp] theorem State.modCluster_active (s : State) (c : ClusterId) (f : Cluster → Cluster) : (s.modCluster c f).active = s.active := rfl
@[simp] theorem State.modCluster_nextId (s : State) (c : ClusterId) (f : Cluster → Cluster) : (s.modCluster c f).nextId = s.nextId := rfl

/-! ### modDie -/

@[simp] theorem State.modDie_mem (s : State) (d : DieId) (f : Die → Die) : (s.modDie d f).mem = s.mem := rfl
@[simp] theorem State.modDie_badLines (s : State) (d : DieId) (f : Die → Die) : (s.modDie d f).badLines = s.badLines := rfl
@[simp] theorem State.modDie_weakLines (s : State) (d : DieId) (f : Die → Die) : (s.modDie d f).weakLines = s.weakLines := rfl
@[simp] theorem State.modDie_badWords (s : State) (d : DieId) (f : Die → Die) : (s.modDie d f).badWords = s.badWords := rfl
@[simp] theorem State.modDie_rows (s : State) (d : DieId) (f : Die → Die) : (s.modDie d f).rows = s.rows := rfl
@[simp] theorem State.modDie_bands (s : State) (d : DieId) (f : Die → Die) : (s.modDie d f).bands = s.bands := rfl
@[simp] theorem State.modDie_launches (s : State) (d : DieId) (f : Die → Die) : (s.modDie d f).launches = s.launches := rfl
@[simp] theorem State.modDie_conts (s : State) (d : DieId) (f : Die → Die) : (s.modDie d f).conts = s.conts := rfl
@[simp] theorem State.modDie_cmds (s : State) (d : DieId) (f : Die → Die) : (s.modDie d f).cmds = s.cmds := rfl
@[simp] theorem State.modDie_cores (s : State) (d : DieId) (f : Die → Die) : (s.modDie d f).cores = s.cores := rfl
@[simp] theorem State.modDie_clusters (s : State) (d : DieId) (f : Die → Die) : (s.modDie d f).clusters = s.clusters := rfl
@[simp] theorem State.modDie_hbmStacks (s : State) (d : DieId) (f : Die → Die) : (s.modDie d f).hbmStacks = s.hbmStacks := rfl
@[simp] theorem State.modDie_chans (s : State) (d : DieId) (f : Die → Die) : (s.modDie d f).chans = s.chans := rfl
@[simp] theorem State.modDie_scrub (s : State) (d : DieId) (f : Die → Die) : (s.modDie d f).scrub = s.scrub := rfl
@[simp] theorem State.modDie_tcache (s : State) (d : DieId) (f : Die → Die) : (s.modDie d f).tcache = s.tcache := rfl
@[simp] theorem State.modDie_tables (s : State) (d : DieId) (f : Die → Die) : (s.modDie d f).tables = s.tables := rfl
@[simp] theorem State.modDie_freeze (s : State) (d : DieId) (f : Die → Die) : (s.modDie d f).freeze = s.freeze := rfl
@[simp] theorem State.modDie_heldHost (s : State) (d : DieId) (f : Die → Die) : (s.modDie d f).heldHost = s.heldHost := rfl
@[simp] theorem State.modDie_n (s : State) (d : DieId) (f : Die → Die) : (s.modDie d f).n = s.n := rfl
@[simp] theorem State.modDie_pendingN (s : State) (d : DieId) (f : Die → Die) : (s.modDie d f).pendingN = s.pendingN := rfl
@[simp] theorem State.modDie_dist (s : State) (d : DieId) (f : Die → Die) : (s.modDie d f).dist = s.dist := rfl
@[simp] theorem State.modDie_regs (s : State) (d : DieId) (f : Die → Die) : (s.modDie d f).regs = s.regs := rfl
@[simp] theorem State.modDie_net (s : State) (d : DieId) (f : Die → Die) : (s.modDie d f).net = s.net := rfl
@[simp] theorem State.modDie_treadle (s : State) (d : DieId) (f : Die → Die) : (s.modDie d f).treadle = s.treadle := rfl
@[simp] theorem State.modDie_tracePort (s : State) (d : DieId) (f : Die → Die) : (s.modDie d f).tracePort = s.tracePort := rfl
@[simp] theorem State.modDie_notes (s : State) (d : DieId) (f : Die → Die) : (s.modDie d f).notes = s.notes := rfl
@[simp] theorem State.modDie_crossFail (s : State) (d : DieId) (f : Die → Die) : (s.modDie d f).crossFail = s.crossFail := rfl
@[simp] theorem State.modDie_mgmt (s : State) (d : DieId) (f : Die → Die) : (s.modDie d f).mgmt = s.mgmt := rfl
@[simp] theorem State.modDie_agenda (s : State) (d : DieId) (f : Die → Die) : (s.modDie d f).agenda = s.agenda := rfl
@[simp] theorem State.modDie_active (s : State) (d : DieId) (f : Die → Die) : (s.modDie d f).active = s.active := rfl
@[simp] theorem State.modDie_nextId (s : State) (d : DieId) (f : Die → Die) : (s.modDie d f).nextId = s.nextId := rfl

/-! ### modSlot -/

@[simp] theorem State.modSlot_mem (s : State) (c : ClusterId) (i : BitVec 6) (f : Slot → Slot) : (s.modSlot c i f).mem = s.mem := rfl
@[simp] theorem State.modSlot_badLines (s : State) (c : ClusterId) (i : BitVec 6) (f : Slot → Slot) : (s.modSlot c i f).badLines = s.badLines := rfl
@[simp] theorem State.modSlot_weakLines (s : State) (c : ClusterId) (i : BitVec 6) (f : Slot → Slot) : (s.modSlot c i f).weakLines = s.weakLines := rfl
@[simp] theorem State.modSlot_badWords (s : State) (c : ClusterId) (i : BitVec 6) (f : Slot → Slot) : (s.modSlot c i f).badWords = s.badWords := rfl
@[simp] theorem State.modSlot_rows (s : State) (c : ClusterId) (i : BitVec 6) (f : Slot → Slot) : (s.modSlot c i f).rows = s.rows := rfl
@[simp] theorem State.modSlot_bands (s : State) (c : ClusterId) (i : BitVec 6) (f : Slot → Slot) : (s.modSlot c i f).bands = s.bands := rfl
@[simp] theorem State.modSlot_launches (s : State) (c : ClusterId) (i : BitVec 6) (f : Slot → Slot) : (s.modSlot c i f).launches = s.launches := rfl
@[simp] theorem State.modSlot_conts (s : State) (c : ClusterId) (i : BitVec 6) (f : Slot → Slot) : (s.modSlot c i f).conts = s.conts := rfl
@[simp] theorem State.modSlot_cmds (s : State) (c : ClusterId) (i : BitVec 6) (f : Slot → Slot) : (s.modSlot c i f).cmds = s.cmds := rfl
@[simp] theorem State.modSlot_cores (s : State) (c : ClusterId) (i : BitVec 6) (f : Slot → Slot) : (s.modSlot c i f).cores = s.cores := rfl
@[simp] theorem State.modSlot_dies (s : State) (c : ClusterId) (i : BitVec 6) (f : Slot → Slot) : (s.modSlot c i f).dies = s.dies := rfl
@[simp] theorem State.modSlot_hbmStacks (s : State) (c : ClusterId) (i : BitVec 6) (f : Slot → Slot) : (s.modSlot c i f).hbmStacks = s.hbmStacks := rfl
@[simp] theorem State.modSlot_chans (s : State) (c : ClusterId) (i : BitVec 6) (f : Slot → Slot) : (s.modSlot c i f).chans = s.chans := rfl
@[simp] theorem State.modSlot_scrub (s : State) (c : ClusterId) (i : BitVec 6) (f : Slot → Slot) : (s.modSlot c i f).scrub = s.scrub := rfl
@[simp] theorem State.modSlot_tcache (s : State) (c : ClusterId) (i : BitVec 6) (f : Slot → Slot) : (s.modSlot c i f).tcache = s.tcache := rfl
@[simp] theorem State.modSlot_tables (s : State) (c : ClusterId) (i : BitVec 6) (f : Slot → Slot) : (s.modSlot c i f).tables = s.tables := rfl
@[simp] theorem State.modSlot_freeze (s : State) (c : ClusterId) (i : BitVec 6) (f : Slot → Slot) : (s.modSlot c i f).freeze = s.freeze := rfl
@[simp] theorem State.modSlot_heldHost (s : State) (c : ClusterId) (i : BitVec 6) (f : Slot → Slot) : (s.modSlot c i f).heldHost = s.heldHost := rfl
@[simp] theorem State.modSlot_n (s : State) (c : ClusterId) (i : BitVec 6) (f : Slot → Slot) : (s.modSlot c i f).n = s.n := rfl
@[simp] theorem State.modSlot_pendingN (s : State) (c : ClusterId) (i : BitVec 6) (f : Slot → Slot) : (s.modSlot c i f).pendingN = s.pendingN := rfl
@[simp] theorem State.modSlot_dist (s : State) (c : ClusterId) (i : BitVec 6) (f : Slot → Slot) : (s.modSlot c i f).dist = s.dist := rfl
@[simp] theorem State.modSlot_regs (s : State) (c : ClusterId) (i : BitVec 6) (f : Slot → Slot) : (s.modSlot c i f).regs = s.regs := rfl
@[simp] theorem State.modSlot_net (s : State) (c : ClusterId) (i : BitVec 6) (f : Slot → Slot) : (s.modSlot c i f).net = s.net := rfl
@[simp] theorem State.modSlot_treadle (s : State) (c : ClusterId) (i : BitVec 6) (f : Slot → Slot) : (s.modSlot c i f).treadle = s.treadle := rfl
@[simp] theorem State.modSlot_tracePort (s : State) (c : ClusterId) (i : BitVec 6) (f : Slot → Slot) : (s.modSlot c i f).tracePort = s.tracePort := rfl
@[simp] theorem State.modSlot_notes (s : State) (c : ClusterId) (i : BitVec 6) (f : Slot → Slot) : (s.modSlot c i f).notes = s.notes := rfl
@[simp] theorem State.modSlot_crossFail (s : State) (c : ClusterId) (i : BitVec 6) (f : Slot → Slot) : (s.modSlot c i f).crossFail = s.crossFail := rfl
@[simp] theorem State.modSlot_mgmt (s : State) (c : ClusterId) (i : BitVec 6) (f : Slot → Slot) : (s.modSlot c i f).mgmt = s.mgmt := rfl
@[simp] theorem State.modSlot_agenda (s : State) (c : ClusterId) (i : BitVec 6) (f : Slot → Slot) : (s.modSlot c i f).agenda = s.agenda := rfl
@[simp] theorem State.modSlot_active (s : State) (c : ClusterId) (i : BitVec 6) (f : Slot → Slot) : (s.modSlot c i f).active = s.active := rfl
@[simp] theorem State.modSlot_nextId (s : State) (c : ClusterId) (i : BitVec 6) (f : Slot → Slot) : (s.modSlot c i f).nextId = s.nextId := rfl

/-! ### modWalker -/

@[simp] theorem State.modWalker_mem (s : State) (c : ClusterId) (f : Walker → Walker) : (s.modWalker c f).mem = s.mem := rfl
@[simp] theorem State.modWalker_badLines (s : State) (c : ClusterId) (f : Walker → Walker) : (s.modWalker c f).badLines = s.badLines := rfl
@[simp] theorem State.modWalker_weakLines (s : State) (c : ClusterId) (f : Walker → Walker) : (s.modWalker c f).weakLines = s.weakLines := rfl
@[simp] theorem State.modWalker_badWords (s : State) (c : ClusterId) (f : Walker → Walker) : (s.modWalker c f).badWords = s.badWords := rfl
@[simp] theorem State.modWalker_rows (s : State) (c : ClusterId) (f : Walker → Walker) : (s.modWalker c f).rows = s.rows := rfl
@[simp] theorem State.modWalker_bands (s : State) (c : ClusterId) (f : Walker → Walker) : (s.modWalker c f).bands = s.bands := rfl
@[simp] theorem State.modWalker_launches (s : State) (c : ClusterId) (f : Walker → Walker) : (s.modWalker c f).launches = s.launches := rfl
@[simp] theorem State.modWalker_conts (s : State) (c : ClusterId) (f : Walker → Walker) : (s.modWalker c f).conts = s.conts := rfl
@[simp] theorem State.modWalker_cmds (s : State) (c : ClusterId) (f : Walker → Walker) : (s.modWalker c f).cmds = s.cmds := rfl
@[simp] theorem State.modWalker_cores (s : State) (c : ClusterId) (f : Walker → Walker) : (s.modWalker c f).cores = s.cores := rfl
@[simp] theorem State.modWalker_dies (s : State) (c : ClusterId) (f : Walker → Walker) : (s.modWalker c f).dies = s.dies := rfl
@[simp] theorem State.modWalker_hbmStacks (s : State) (c : ClusterId) (f : Walker → Walker) : (s.modWalker c f).hbmStacks = s.hbmStacks := rfl
@[simp] theorem State.modWalker_chans (s : State) (c : ClusterId) (f : Walker → Walker) : (s.modWalker c f).chans = s.chans := rfl
@[simp] theorem State.modWalker_scrub (s : State) (c : ClusterId) (f : Walker → Walker) : (s.modWalker c f).scrub = s.scrub := rfl
@[simp] theorem State.modWalker_tcache (s : State) (c : ClusterId) (f : Walker → Walker) : (s.modWalker c f).tcache = s.tcache := rfl
@[simp] theorem State.modWalker_tables (s : State) (c : ClusterId) (f : Walker → Walker) : (s.modWalker c f).tables = s.tables := rfl
@[simp] theorem State.modWalker_freeze (s : State) (c : ClusterId) (f : Walker → Walker) : (s.modWalker c f).freeze = s.freeze := rfl
@[simp] theorem State.modWalker_heldHost (s : State) (c : ClusterId) (f : Walker → Walker) : (s.modWalker c f).heldHost = s.heldHost := rfl
@[simp] theorem State.modWalker_n (s : State) (c : ClusterId) (f : Walker → Walker) : (s.modWalker c f).n = s.n := rfl
@[simp] theorem State.modWalker_pendingN (s : State) (c : ClusterId) (f : Walker → Walker) : (s.modWalker c f).pendingN = s.pendingN := rfl
@[simp] theorem State.modWalker_dist (s : State) (c : ClusterId) (f : Walker → Walker) : (s.modWalker c f).dist = s.dist := rfl
@[simp] theorem State.modWalker_regs (s : State) (c : ClusterId) (f : Walker → Walker) : (s.modWalker c f).regs = s.regs := rfl
@[simp] theorem State.modWalker_net (s : State) (c : ClusterId) (f : Walker → Walker) : (s.modWalker c f).net = s.net := rfl
@[simp] theorem State.modWalker_treadle (s : State) (c : ClusterId) (f : Walker → Walker) : (s.modWalker c f).treadle = s.treadle := rfl
@[simp] theorem State.modWalker_tracePort (s : State) (c : ClusterId) (f : Walker → Walker) : (s.modWalker c f).tracePort = s.tracePort := rfl
@[simp] theorem State.modWalker_notes (s : State) (c : ClusterId) (f : Walker → Walker) : (s.modWalker c f).notes = s.notes := rfl
@[simp] theorem State.modWalker_crossFail (s : State) (c : ClusterId) (f : Walker → Walker) : (s.modWalker c f).crossFail = s.crossFail := rfl
@[simp] theorem State.modWalker_mgmt (s : State) (c : ClusterId) (f : Walker → Walker) : (s.modWalker c f).mgmt = s.mgmt := rfl
@[simp] theorem State.modWalker_agenda (s : State) (c : ClusterId) (f : Walker → Walker) : (s.modWalker c f).agenda = s.agenda := rfl
@[simp] theorem State.modWalker_active (s : State) (c : ClusterId) (f : Walker → Walker) : (s.modWalker c f).active = s.active := rfl
@[simp] theorem State.modWalker_nextId (s : State) (c : ClusterId) (f : Walker → Walker) : (s.modWalker c f).nextId = s.nextId := rfl

/-! ### modPace -/

@[simp] theorem State.modPace_mem (s : State) (c : ClusterId) (f : Pace → Pace) : (s.modPace c f).mem = s.mem := rfl
@[simp] theorem State.modPace_badLines (s : State) (c : ClusterId) (f : Pace → Pace) : (s.modPace c f).badLines = s.badLines := rfl
@[simp] theorem State.modPace_weakLines (s : State) (c : ClusterId) (f : Pace → Pace) : (s.modPace c f).weakLines = s.weakLines := rfl
@[simp] theorem State.modPace_badWords (s : State) (c : ClusterId) (f : Pace → Pace) : (s.modPace c f).badWords = s.badWords := rfl
@[simp] theorem State.modPace_rows (s : State) (c : ClusterId) (f : Pace → Pace) : (s.modPace c f).rows = s.rows := rfl
@[simp] theorem State.modPace_bands (s : State) (c : ClusterId) (f : Pace → Pace) : (s.modPace c f).bands = s.bands := rfl
@[simp] theorem State.modPace_launches (s : State) (c : ClusterId) (f : Pace → Pace) : (s.modPace c f).launches = s.launches := rfl
@[simp] theorem State.modPace_conts (s : State) (c : ClusterId) (f : Pace → Pace) : (s.modPace c f).conts = s.conts := rfl
@[simp] theorem State.modPace_cmds (s : State) (c : ClusterId) (f : Pace → Pace) : (s.modPace c f).cmds = s.cmds := rfl
@[simp] theorem State.modPace_cores (s : State) (c : ClusterId) (f : Pace → Pace) : (s.modPace c f).cores = s.cores := rfl
@[simp] theorem State.modPace_dies (s : State) (c : ClusterId) (f : Pace → Pace) : (s.modPace c f).dies = s.dies := rfl
@[simp] theorem State.modPace_hbmStacks (s : State) (c : ClusterId) (f : Pace → Pace) : (s.modPace c f).hbmStacks = s.hbmStacks := rfl
@[simp] theorem State.modPace_chans (s : State) (c : ClusterId) (f : Pace → Pace) : (s.modPace c f).chans = s.chans := rfl
@[simp] theorem State.modPace_scrub (s : State) (c : ClusterId) (f : Pace → Pace) : (s.modPace c f).scrub = s.scrub := rfl
@[simp] theorem State.modPace_tcache (s : State) (c : ClusterId) (f : Pace → Pace) : (s.modPace c f).tcache = s.tcache := rfl
@[simp] theorem State.modPace_tables (s : State) (c : ClusterId) (f : Pace → Pace) : (s.modPace c f).tables = s.tables := rfl
@[simp] theorem State.modPace_freeze (s : State) (c : ClusterId) (f : Pace → Pace) : (s.modPace c f).freeze = s.freeze := rfl
@[simp] theorem State.modPace_heldHost (s : State) (c : ClusterId) (f : Pace → Pace) : (s.modPace c f).heldHost = s.heldHost := rfl
@[simp] theorem State.modPace_n (s : State) (c : ClusterId) (f : Pace → Pace) : (s.modPace c f).n = s.n := rfl
@[simp] theorem State.modPace_pendingN (s : State) (c : ClusterId) (f : Pace → Pace) : (s.modPace c f).pendingN = s.pendingN := rfl
@[simp] theorem State.modPace_dist (s : State) (c : ClusterId) (f : Pace → Pace) : (s.modPace c f).dist = s.dist := rfl
@[simp] theorem State.modPace_regs (s : State) (c : ClusterId) (f : Pace → Pace) : (s.modPace c f).regs = s.regs := rfl
@[simp] theorem State.modPace_net (s : State) (c : ClusterId) (f : Pace → Pace) : (s.modPace c f).net = s.net := rfl
@[simp] theorem State.modPace_treadle (s : State) (c : ClusterId) (f : Pace → Pace) : (s.modPace c f).treadle = s.treadle := rfl
@[simp] theorem State.modPace_tracePort (s : State) (c : ClusterId) (f : Pace → Pace) : (s.modPace c f).tracePort = s.tracePort := rfl
@[simp] theorem State.modPace_notes (s : State) (c : ClusterId) (f : Pace → Pace) : (s.modPace c f).notes = s.notes := rfl
@[simp] theorem State.modPace_crossFail (s : State) (c : ClusterId) (f : Pace → Pace) : (s.modPace c f).crossFail = s.crossFail := rfl
@[simp] theorem State.modPace_mgmt (s : State) (c : ClusterId) (f : Pace → Pace) : (s.modPace c f).mgmt = s.mgmt := rfl
@[simp] theorem State.modPace_agenda (s : State) (c : ClusterId) (f : Pace → Pace) : (s.modPace c f).agenda = s.agenda := rfl
@[simp] theorem State.modPace_active (s : State) (c : ClusterId) (f : Pace → Pace) : (s.modPace c f).active = s.active := rfl
@[simp] theorem State.modPace_nextId (s : State) (c : ClusterId) (f : Pace → Pace) : (s.modPace c f).nextId = s.nextId := rfl

/-! ### modMon -/

@[simp] theorem State.modMon_mem (s : State) (g : CoreId) (f : Monitor → Monitor) : (s.modMon g f).mem = s.mem := rfl
@[simp] theorem State.modMon_badLines (s : State) (g : CoreId) (f : Monitor → Monitor) : (s.modMon g f).badLines = s.badLines := rfl
@[simp] theorem State.modMon_weakLines (s : State) (g : CoreId) (f : Monitor → Monitor) : (s.modMon g f).weakLines = s.weakLines := rfl
@[simp] theorem State.modMon_badWords (s : State) (g : CoreId) (f : Monitor → Monitor) : (s.modMon g f).badWords = s.badWords := rfl
@[simp] theorem State.modMon_rows (s : State) (g : CoreId) (f : Monitor → Monitor) : (s.modMon g f).rows = s.rows := rfl
@[simp] theorem State.modMon_bands (s : State) (g : CoreId) (f : Monitor → Monitor) : (s.modMon g f).bands = s.bands := rfl
@[simp] theorem State.modMon_launches (s : State) (g : CoreId) (f : Monitor → Monitor) : (s.modMon g f).launches = s.launches := rfl
@[simp] theorem State.modMon_conts (s : State) (g : CoreId) (f : Monitor → Monitor) : (s.modMon g f).conts = s.conts := rfl
@[simp] theorem State.modMon_cmds (s : State) (g : CoreId) (f : Monitor → Monitor) : (s.modMon g f).cmds = s.cmds := rfl
@[simp] theorem State.modMon_clusters (s : State) (g : CoreId) (f : Monitor → Monitor) : (s.modMon g f).clusters = s.clusters := rfl
@[simp] theorem State.modMon_dies (s : State) (g : CoreId) (f : Monitor → Monitor) : (s.modMon g f).dies = s.dies := rfl
@[simp] theorem State.modMon_hbmStacks (s : State) (g : CoreId) (f : Monitor → Monitor) : (s.modMon g f).hbmStacks = s.hbmStacks := rfl
@[simp] theorem State.modMon_chans (s : State) (g : CoreId) (f : Monitor → Monitor) : (s.modMon g f).chans = s.chans := rfl
@[simp] theorem State.modMon_scrub (s : State) (g : CoreId) (f : Monitor → Monitor) : (s.modMon g f).scrub = s.scrub := rfl
@[simp] theorem State.modMon_tcache (s : State) (g : CoreId) (f : Monitor → Monitor) : (s.modMon g f).tcache = s.tcache := rfl
@[simp] theorem State.modMon_tables (s : State) (g : CoreId) (f : Monitor → Monitor) : (s.modMon g f).tables = s.tables := rfl
@[simp] theorem State.modMon_freeze (s : State) (g : CoreId) (f : Monitor → Monitor) : (s.modMon g f).freeze = s.freeze := rfl
@[simp] theorem State.modMon_heldHost (s : State) (g : CoreId) (f : Monitor → Monitor) : (s.modMon g f).heldHost = s.heldHost := rfl
@[simp] theorem State.modMon_n (s : State) (g : CoreId) (f : Monitor → Monitor) : (s.modMon g f).n = s.n := rfl
@[simp] theorem State.modMon_pendingN (s : State) (g : CoreId) (f : Monitor → Monitor) : (s.modMon g f).pendingN = s.pendingN := rfl
@[simp] theorem State.modMon_dist (s : State) (g : CoreId) (f : Monitor → Monitor) : (s.modMon g f).dist = s.dist := rfl
@[simp] theorem State.modMon_regs (s : State) (g : CoreId) (f : Monitor → Monitor) : (s.modMon g f).regs = s.regs := rfl
@[simp] theorem State.modMon_net (s : State) (g : CoreId) (f : Monitor → Monitor) : (s.modMon g f).net = s.net := rfl
@[simp] theorem State.modMon_treadle (s : State) (g : CoreId) (f : Monitor → Monitor) : (s.modMon g f).treadle = s.treadle := rfl
@[simp] theorem State.modMon_tracePort (s : State) (g : CoreId) (f : Monitor → Monitor) : (s.modMon g f).tracePort = s.tracePort := rfl
@[simp] theorem State.modMon_notes (s : State) (g : CoreId) (f : Monitor → Monitor) : (s.modMon g f).notes = s.notes := rfl
@[simp] theorem State.modMon_crossFail (s : State) (g : CoreId) (f : Monitor → Monitor) : (s.modMon g f).crossFail = s.crossFail := rfl
@[simp] theorem State.modMon_mgmt (s : State) (g : CoreId) (f : Monitor → Monitor) : (s.modMon g f).mgmt = s.mgmt := rfl
@[simp] theorem State.modMon_agenda (s : State) (g : CoreId) (f : Monitor → Monitor) : (s.modMon g f).agenda = s.agenda := rfl
@[simp] theorem State.modMon_active (s : State) (g : CoreId) (f : Monitor → Monitor) : (s.modMon g f).active = s.active := rfl
@[simp] theorem State.modMon_nextId (s : State) (g : CoreId) (f : Monitor → Monitor) : (s.modMon g f).nextId = s.nextId := rfl

/-! ### modDbg -/

@[simp] theorem State.modDbg_mem (s : State) (g : CoreId) (f : Debug → Debug) : (s.modDbg g f).mem = s.mem := rfl
@[simp] theorem State.modDbg_badLines (s : State) (g : CoreId) (f : Debug → Debug) : (s.modDbg g f).badLines = s.badLines := rfl
@[simp] theorem State.modDbg_weakLines (s : State) (g : CoreId) (f : Debug → Debug) : (s.modDbg g f).weakLines = s.weakLines := rfl
@[simp] theorem State.modDbg_badWords (s : State) (g : CoreId) (f : Debug → Debug) : (s.modDbg g f).badWords = s.badWords := rfl
@[simp] theorem State.modDbg_rows (s : State) (g : CoreId) (f : Debug → Debug) : (s.modDbg g f).rows = s.rows := rfl
@[simp] theorem State.modDbg_bands (s : State) (g : CoreId) (f : Debug → Debug) : (s.modDbg g f).bands = s.bands := rfl
@[simp] theorem State.modDbg_launches (s : State) (g : CoreId) (f : Debug → Debug) : (s.modDbg g f).launches = s.launches := rfl
@[simp] theorem State.modDbg_conts (s : State) (g : CoreId) (f : Debug → Debug) : (s.modDbg g f).conts = s.conts := rfl
@[simp] theorem State.modDbg_cmds (s : State) (g : CoreId) (f : Debug → Debug) : (s.modDbg g f).cmds = s.cmds := rfl
@[simp] theorem State.modDbg_clusters (s : State) (g : CoreId) (f : Debug → Debug) : (s.modDbg g f).clusters = s.clusters := rfl
@[simp] theorem State.modDbg_dies (s : State) (g : CoreId) (f : Debug → Debug) : (s.modDbg g f).dies = s.dies := rfl
@[simp] theorem State.modDbg_hbmStacks (s : State) (g : CoreId) (f : Debug → Debug) : (s.modDbg g f).hbmStacks = s.hbmStacks := rfl
@[simp] theorem State.modDbg_chans (s : State) (g : CoreId) (f : Debug → Debug) : (s.modDbg g f).chans = s.chans := rfl
@[simp] theorem State.modDbg_scrub (s : State) (g : CoreId) (f : Debug → Debug) : (s.modDbg g f).scrub = s.scrub := rfl
@[simp] theorem State.modDbg_tcache (s : State) (g : CoreId) (f : Debug → Debug) : (s.modDbg g f).tcache = s.tcache := rfl
@[simp] theorem State.modDbg_tables (s : State) (g : CoreId) (f : Debug → Debug) : (s.modDbg g f).tables = s.tables := rfl
@[simp] theorem State.modDbg_freeze (s : State) (g : CoreId) (f : Debug → Debug) : (s.modDbg g f).freeze = s.freeze := rfl
@[simp] theorem State.modDbg_heldHost (s : State) (g : CoreId) (f : Debug → Debug) : (s.modDbg g f).heldHost = s.heldHost := rfl
@[simp] theorem State.modDbg_n (s : State) (g : CoreId) (f : Debug → Debug) : (s.modDbg g f).n = s.n := rfl
@[simp] theorem State.modDbg_pendingN (s : State) (g : CoreId) (f : Debug → Debug) : (s.modDbg g f).pendingN = s.pendingN := rfl
@[simp] theorem State.modDbg_dist (s : State) (g : CoreId) (f : Debug → Debug) : (s.modDbg g f).dist = s.dist := rfl
@[simp] theorem State.modDbg_regs (s : State) (g : CoreId) (f : Debug → Debug) : (s.modDbg g f).regs = s.regs := rfl
@[simp] theorem State.modDbg_net (s : State) (g : CoreId) (f : Debug → Debug) : (s.modDbg g f).net = s.net := rfl
@[simp] theorem State.modDbg_treadle (s : State) (g : CoreId) (f : Debug → Debug) : (s.modDbg g f).treadle = s.treadle := rfl
@[simp] theorem State.modDbg_tracePort (s : State) (g : CoreId) (f : Debug → Debug) : (s.modDbg g f).tracePort = s.tracePort := rfl
@[simp] theorem State.modDbg_notes (s : State) (g : CoreId) (f : Debug → Debug) : (s.modDbg g f).notes = s.notes := rfl
@[simp] theorem State.modDbg_crossFail (s : State) (g : CoreId) (f : Debug → Debug) : (s.modDbg g f).crossFail = s.crossFail := rfl
@[simp] theorem State.modDbg_mgmt (s : State) (g : CoreId) (f : Debug → Debug) : (s.modDbg g f).mgmt = s.mgmt := rfl
@[simp] theorem State.modDbg_agenda (s : State) (g : CoreId) (f : Debug → Debug) : (s.modDbg g f).agenda = s.agenda := rfl
@[simp] theorem State.modDbg_active (s : State) (g : CoreId) (f : Debug → Debug) : (s.modDbg g f).active = s.active := rfl
@[simp] theorem State.modDbg_nextId (s : State) (g : CoreId) (f : Debug → Debug) : (s.modDbg g f).nextId = s.nextId := rfl

/-! ### modStack -/

@[simp] theorem State.modStack_mem (s : State) (k : Nat) (f : Stack → Stack) : (s.modStack k f).mem = s.mem := by unfold State.modStack; split <;> rfl
@[simp] theorem State.modStack_badLines (s : State) (k : Nat) (f : Stack → Stack) : (s.modStack k f).badLines = s.badLines := by unfold State.modStack; split <;> rfl
@[simp] theorem State.modStack_weakLines (s : State) (k : Nat) (f : Stack → Stack) : (s.modStack k f).weakLines = s.weakLines := by unfold State.modStack; split <;> rfl
@[simp] theorem State.modStack_badWords (s : State) (k : Nat) (f : Stack → Stack) : (s.modStack k f).badWords = s.badWords := by unfold State.modStack; split <;> rfl
@[simp] theorem State.modStack_rows (s : State) (k : Nat) (f : Stack → Stack) : (s.modStack k f).rows = s.rows := by unfold State.modStack; split <;> rfl
@[simp] theorem State.modStack_bands (s : State) (k : Nat) (f : Stack → Stack) : (s.modStack k f).bands = s.bands := by unfold State.modStack; split <;> rfl
@[simp] theorem State.modStack_launches (s : State) (k : Nat) (f : Stack → Stack) : (s.modStack k f).launches = s.launches := by unfold State.modStack; split <;> rfl
@[simp] theorem State.modStack_conts (s : State) (k : Nat) (f : Stack → Stack) : (s.modStack k f).conts = s.conts := by unfold State.modStack; split <;> rfl
@[simp] theorem State.modStack_cmds (s : State) (k : Nat) (f : Stack → Stack) : (s.modStack k f).cmds = s.cmds := by unfold State.modStack; split <;> rfl
@[simp] theorem State.modStack_cores (s : State) (k : Nat) (f : Stack → Stack) : (s.modStack k f).cores = s.cores := by unfold State.modStack; split <;> rfl
@[simp] theorem State.modStack_clusters (s : State) (k : Nat) (f : Stack → Stack) : (s.modStack k f).clusters = s.clusters := by unfold State.modStack; split <;> rfl
@[simp] theorem State.modStack_dies (s : State) (k : Nat) (f : Stack → Stack) : (s.modStack k f).dies = s.dies := by unfold State.modStack; split <;> rfl
@[simp] theorem State.modStack_chans (s : State) (k : Nat) (f : Stack → Stack) : (s.modStack k f).chans = s.chans := by unfold State.modStack; split <;> rfl
@[simp] theorem State.modStack_scrub (s : State) (k : Nat) (f : Stack → Stack) : (s.modStack k f).scrub = s.scrub := by unfold State.modStack; split <;> rfl
@[simp] theorem State.modStack_tcache (s : State) (k : Nat) (f : Stack → Stack) : (s.modStack k f).tcache = s.tcache := by unfold State.modStack; split <;> rfl
@[simp] theorem State.modStack_tables (s : State) (k : Nat) (f : Stack → Stack) : (s.modStack k f).tables = s.tables := by unfold State.modStack; split <;> rfl
@[simp] theorem State.modStack_freeze (s : State) (k : Nat) (f : Stack → Stack) : (s.modStack k f).freeze = s.freeze := by unfold State.modStack; split <;> rfl
@[simp] theorem State.modStack_heldHost (s : State) (k : Nat) (f : Stack → Stack) : (s.modStack k f).heldHost = s.heldHost := by unfold State.modStack; split <;> rfl
@[simp] theorem State.modStack_n (s : State) (k : Nat) (f : Stack → Stack) : (s.modStack k f).n = s.n := by unfold State.modStack; split <;> rfl
@[simp] theorem State.modStack_pendingN (s : State) (k : Nat) (f : Stack → Stack) : (s.modStack k f).pendingN = s.pendingN := by unfold State.modStack; split <;> rfl
@[simp] theorem State.modStack_dist (s : State) (k : Nat) (f : Stack → Stack) : (s.modStack k f).dist = s.dist := by unfold State.modStack; split <;> rfl
@[simp] theorem State.modStack_regs (s : State) (k : Nat) (f : Stack → Stack) : (s.modStack k f).regs = s.regs := by unfold State.modStack; split <;> rfl
@[simp] theorem State.modStack_net (s : State) (k : Nat) (f : Stack → Stack) : (s.modStack k f).net = s.net := by unfold State.modStack; split <;> rfl
@[simp] theorem State.modStack_treadle (s : State) (k : Nat) (f : Stack → Stack) : (s.modStack k f).treadle = s.treadle := by unfold State.modStack; split <;> rfl
@[simp] theorem State.modStack_tracePort (s : State) (k : Nat) (f : Stack → Stack) : (s.modStack k f).tracePort = s.tracePort := by unfold State.modStack; split <;> rfl
@[simp] theorem State.modStack_notes (s : State) (k : Nat) (f : Stack → Stack) : (s.modStack k f).notes = s.notes := by unfold State.modStack; split <;> rfl
@[simp] theorem State.modStack_crossFail (s : State) (k : Nat) (f : Stack → Stack) : (s.modStack k f).crossFail = s.crossFail := by unfold State.modStack; split <;> rfl
@[simp] theorem State.modStack_mgmt (s : State) (k : Nat) (f : Stack → Stack) : (s.modStack k f).mgmt = s.mgmt := by unfold State.modStack; split <;> rfl
@[simp] theorem State.modStack_agenda (s : State) (k : Nat) (f : Stack → Stack) : (s.modStack k f).agenda = s.agenda := by unfold State.modStack; split <;> rfl
@[simp] theorem State.modStack_active (s : State) (k : Nat) (f : Stack → Stack) : (s.modStack k f).active = s.active := by unfold State.modStack; split <;> rfl
@[simp] theorem State.modStack_nextId (s : State) (k : Nat) (f : Stack → Stack) : (s.modStack k f).nextId = s.nextId := by unfold State.modStack; split <;> rfl

/-! ### modChan -/

@[simp] theorem State.modChan_mem (s : State) (k : Nat) (f : Channel → Channel) : (s.modChan k f).mem = s.mem := by unfold State.modChan; split <;> rfl
@[simp] theorem State.modChan_badLines (s : State) (k : Nat) (f : Channel → Channel) : (s.modChan k f).badLines = s.badLines := by unfold State.modChan; split <;> rfl
@[simp] theorem State.modChan_weakLines (s : State) (k : Nat) (f : Channel → Channel) : (s.modChan k f).weakLines = s.weakLines := by unfold State.modChan; split <;> rfl
@[simp] theorem State.modChan_badWords (s : State) (k : Nat) (f : Channel → Channel) : (s.modChan k f).badWords = s.badWords := by unfold State.modChan; split <;> rfl
@[simp] theorem State.modChan_rows (s : State) (k : Nat) (f : Channel → Channel) : (s.modChan k f).rows = s.rows := by unfold State.modChan; split <;> rfl
@[simp] theorem State.modChan_bands (s : State) (k : Nat) (f : Channel → Channel) : (s.modChan k f).bands = s.bands := by unfold State.modChan; split <;> rfl
@[simp] theorem State.modChan_launches (s : State) (k : Nat) (f : Channel → Channel) : (s.modChan k f).launches = s.launches := by unfold State.modChan; split <;> rfl
@[simp] theorem State.modChan_conts (s : State) (k : Nat) (f : Channel → Channel) : (s.modChan k f).conts = s.conts := by unfold State.modChan; split <;> rfl
@[simp] theorem State.modChan_cmds (s : State) (k : Nat) (f : Channel → Channel) : (s.modChan k f).cmds = s.cmds := by unfold State.modChan; split <;> rfl
@[simp] theorem State.modChan_cores (s : State) (k : Nat) (f : Channel → Channel) : (s.modChan k f).cores = s.cores := by unfold State.modChan; split <;> rfl
@[simp] theorem State.modChan_clusters (s : State) (k : Nat) (f : Channel → Channel) : (s.modChan k f).clusters = s.clusters := by unfold State.modChan; split <;> rfl
@[simp] theorem State.modChan_dies (s : State) (k : Nat) (f : Channel → Channel) : (s.modChan k f).dies = s.dies := by unfold State.modChan; split <;> rfl
@[simp] theorem State.modChan_hbmStacks (s : State) (k : Nat) (f : Channel → Channel) : (s.modChan k f).hbmStacks = s.hbmStacks := by unfold State.modChan; split <;> rfl
@[simp] theorem State.modChan_scrub (s : State) (k : Nat) (f : Channel → Channel) : (s.modChan k f).scrub = s.scrub := by unfold State.modChan; split <;> rfl
@[simp] theorem State.modChan_tcache (s : State) (k : Nat) (f : Channel → Channel) : (s.modChan k f).tcache = s.tcache := by unfold State.modChan; split <;> rfl
@[simp] theorem State.modChan_tables (s : State) (k : Nat) (f : Channel → Channel) : (s.modChan k f).tables = s.tables := by unfold State.modChan; split <;> rfl
@[simp] theorem State.modChan_freeze (s : State) (k : Nat) (f : Channel → Channel) : (s.modChan k f).freeze = s.freeze := by unfold State.modChan; split <;> rfl
@[simp] theorem State.modChan_heldHost (s : State) (k : Nat) (f : Channel → Channel) : (s.modChan k f).heldHost = s.heldHost := by unfold State.modChan; split <;> rfl
@[simp] theorem State.modChan_n (s : State) (k : Nat) (f : Channel → Channel) : (s.modChan k f).n = s.n := by unfold State.modChan; split <;> rfl
@[simp] theorem State.modChan_pendingN (s : State) (k : Nat) (f : Channel → Channel) : (s.modChan k f).pendingN = s.pendingN := by unfold State.modChan; split <;> rfl
@[simp] theorem State.modChan_dist (s : State) (k : Nat) (f : Channel → Channel) : (s.modChan k f).dist = s.dist := by unfold State.modChan; split <;> rfl
@[simp] theorem State.modChan_regs (s : State) (k : Nat) (f : Channel → Channel) : (s.modChan k f).regs = s.regs := by unfold State.modChan; split <;> rfl
@[simp] theorem State.modChan_net (s : State) (k : Nat) (f : Channel → Channel) : (s.modChan k f).net = s.net := by unfold State.modChan; split <;> rfl
@[simp] theorem State.modChan_treadle (s : State) (k : Nat) (f : Channel → Channel) : (s.modChan k f).treadle = s.treadle := by unfold State.modChan; split <;> rfl
@[simp] theorem State.modChan_tracePort (s : State) (k : Nat) (f : Channel → Channel) : (s.modChan k f).tracePort = s.tracePort := by unfold State.modChan; split <;> rfl
@[simp] theorem State.modChan_notes (s : State) (k : Nat) (f : Channel → Channel) : (s.modChan k f).notes = s.notes := by unfold State.modChan; split <;> rfl
@[simp] theorem State.modChan_crossFail (s : State) (k : Nat) (f : Channel → Channel) : (s.modChan k f).crossFail = s.crossFail := by unfold State.modChan; split <;> rfl
@[simp] theorem State.modChan_mgmt (s : State) (k : Nat) (f : Channel → Channel) : (s.modChan k f).mgmt = s.mgmt := by unfold State.modChan; split <;> rfl
@[simp] theorem State.modChan_agenda (s : State) (k : Nat) (f : Channel → Channel) : (s.modChan k f).agenda = s.agenda := by unfold State.modChan; split <;> rfl
@[simp] theorem State.modChan_active (s : State) (k : Nat) (f : Channel → Channel) : (s.modChan k f).active = s.active := by unfold State.modChan; split <;> rfl
@[simp] theorem State.modChan_nextId (s : State) (k : Nat) (f : Channel → Channel) : (s.modChan k f).nextId = s.nextId := by unfold State.modChan; split <;> rfl

/-! ### modQueue -/

@[simp] theorem State.modQueue_mem (s : State) (q : BitVec 4) (f : LaunchQueue → LaunchQueue) : (s.modQueue q f).mem = s.mem := rfl
@[simp] theorem State.modQueue_badLines (s : State) (q : BitVec 4) (f : LaunchQueue → LaunchQueue) : (s.modQueue q f).badLines = s.badLines := rfl
@[simp] theorem State.modQueue_weakLines (s : State) (q : BitVec 4) (f : LaunchQueue → LaunchQueue) : (s.modQueue q f).weakLines = s.weakLines := rfl
@[simp] theorem State.modQueue_badWords (s : State) (q : BitVec 4) (f : LaunchQueue → LaunchQueue) : (s.modQueue q f).badWords = s.badWords := rfl
@[simp] theorem State.modQueue_rows (s : State) (q : BitVec 4) (f : LaunchQueue → LaunchQueue) : (s.modQueue q f).rows = s.rows := rfl
@[simp] theorem State.modQueue_bands (s : State) (q : BitVec 4) (f : LaunchQueue → LaunchQueue) : (s.modQueue q f).bands = s.bands := rfl
@[simp] theorem State.modQueue_launches (s : State) (q : BitVec 4) (f : LaunchQueue → LaunchQueue) : (s.modQueue q f).launches = s.launches := rfl
@[simp] theorem State.modQueue_conts (s : State) (q : BitVec 4) (f : LaunchQueue → LaunchQueue) : (s.modQueue q f).conts = s.conts := rfl
@[simp] theorem State.modQueue_cmds (s : State) (q : BitVec 4) (f : LaunchQueue → LaunchQueue) : (s.modQueue q f).cmds = s.cmds := rfl
@[simp] theorem State.modQueue_cores (s : State) (q : BitVec 4) (f : LaunchQueue → LaunchQueue) : (s.modQueue q f).cores = s.cores := rfl
@[simp] theorem State.modQueue_clusters (s : State) (q : BitVec 4) (f : LaunchQueue → LaunchQueue) : (s.modQueue q f).clusters = s.clusters := rfl
@[simp] theorem State.modQueue_dies (s : State) (q : BitVec 4) (f : LaunchQueue → LaunchQueue) : (s.modQueue q f).dies = s.dies := rfl
@[simp] theorem State.modQueue_hbmStacks (s : State) (q : BitVec 4) (f : LaunchQueue → LaunchQueue) : (s.modQueue q f).hbmStacks = s.hbmStacks := rfl
@[simp] theorem State.modQueue_chans (s : State) (q : BitVec 4) (f : LaunchQueue → LaunchQueue) : (s.modQueue q f).chans = s.chans := rfl
@[simp] theorem State.modQueue_scrub (s : State) (q : BitVec 4) (f : LaunchQueue → LaunchQueue) : (s.modQueue q f).scrub = s.scrub := rfl
@[simp] theorem State.modQueue_tcache (s : State) (q : BitVec 4) (f : LaunchQueue → LaunchQueue) : (s.modQueue q f).tcache = s.tcache := rfl
@[simp] theorem State.modQueue_tables (s : State) (q : BitVec 4) (f : LaunchQueue → LaunchQueue) : (s.modQueue q f).tables = s.tables := rfl
@[simp] theorem State.modQueue_freeze (s : State) (q : BitVec 4) (f : LaunchQueue → LaunchQueue) : (s.modQueue q f).freeze = s.freeze := rfl
@[simp] theorem State.modQueue_heldHost (s : State) (q : BitVec 4) (f : LaunchQueue → LaunchQueue) : (s.modQueue q f).heldHost = s.heldHost := rfl
@[simp] theorem State.modQueue_n (s : State) (q : BitVec 4) (f : LaunchQueue → LaunchQueue) : (s.modQueue q f).n = s.n := rfl
@[simp] theorem State.modQueue_pendingN (s : State) (q : BitVec 4) (f : LaunchQueue → LaunchQueue) : (s.modQueue q f).pendingN = s.pendingN := rfl
@[simp] theorem State.modQueue_regs (s : State) (q : BitVec 4) (f : LaunchQueue → LaunchQueue) : (s.modQueue q f).regs = s.regs := rfl
@[simp] theorem State.modQueue_net (s : State) (q : BitVec 4) (f : LaunchQueue → LaunchQueue) : (s.modQueue q f).net = s.net := rfl
@[simp] theorem State.modQueue_treadle (s : State) (q : BitVec 4) (f : LaunchQueue → LaunchQueue) : (s.modQueue q f).treadle = s.treadle := rfl
@[simp] theorem State.modQueue_tracePort (s : State) (q : BitVec 4) (f : LaunchQueue → LaunchQueue) : (s.modQueue q f).tracePort = s.tracePort := rfl
@[simp] theorem State.modQueue_notes (s : State) (q : BitVec 4) (f : LaunchQueue → LaunchQueue) : (s.modQueue q f).notes = s.notes := rfl
@[simp] theorem State.modQueue_crossFail (s : State) (q : BitVec 4) (f : LaunchQueue → LaunchQueue) : (s.modQueue q f).crossFail = s.crossFail := rfl
@[simp] theorem State.modQueue_mgmt (s : State) (q : BitVec 4) (f : LaunchQueue → LaunchQueue) : (s.modQueue q f).mgmt = s.mgmt := rfl
@[simp] theorem State.modQueue_agenda (s : State) (q : BitVec 4) (f : LaunchQueue → LaunchQueue) : (s.modQueue q f).agenda = s.agenda := rfl
@[simp] theorem State.modQueue_active (s : State) (q : BitVec 4) (f : LaunchQueue → LaunchQueue) : (s.modQueue q f).active = s.active := rfl
@[simp] theorem State.modQueue_nextId (s : State) (q : BitVec 4) (f : LaunchQueue → LaunchQueue) : (s.modQueue q f).nextId = s.nextId := rfl

/-! ### bump -/

@[simp] theorem State.bump_mem (s : State) : (s.bump).mem = s.mem := rfl
@[simp] theorem State.bump_badLines (s : State) : (s.bump).badLines = s.badLines := rfl
@[simp] theorem State.bump_weakLines (s : State) : (s.bump).weakLines = s.weakLines := rfl
@[simp] theorem State.bump_badWords (s : State) : (s.bump).badWords = s.badWords := rfl
@[simp] theorem State.bump_rows (s : State) : (s.bump).rows = s.rows := rfl
@[simp] theorem State.bump_bands (s : State) : (s.bump).bands = s.bands := rfl
@[simp] theorem State.bump_launches (s : State) : (s.bump).launches = s.launches := rfl
@[simp] theorem State.bump_conts (s : State) : (s.bump).conts = s.conts := rfl
@[simp] theorem State.bump_cmds (s : State) : (s.bump).cmds = s.cmds := rfl
@[simp] theorem State.bump_cores (s : State) : (s.bump).cores = s.cores := rfl
@[simp] theorem State.bump_clusters (s : State) : (s.bump).clusters = s.clusters := rfl
@[simp] theorem State.bump_dies (s : State) : (s.bump).dies = s.dies := rfl
@[simp] theorem State.bump_hbmStacks (s : State) : (s.bump).hbmStacks = s.hbmStacks := rfl
@[simp] theorem State.bump_chans (s : State) : (s.bump).chans = s.chans := rfl
@[simp] theorem State.bump_scrub (s : State) : (s.bump).scrub = s.scrub := rfl
@[simp] theorem State.bump_tcache (s : State) : (s.bump).tcache = s.tcache := rfl
@[simp] theorem State.bump_tables (s : State) : (s.bump).tables = s.tables := rfl
@[simp] theorem State.bump_freeze (s : State) : (s.bump).freeze = s.freeze := rfl
@[simp] theorem State.bump_heldHost (s : State) : (s.bump).heldHost = s.heldHost := rfl
@[simp] theorem State.bump_n (s : State) : (s.bump).n = s.n := rfl
@[simp] theorem State.bump_pendingN (s : State) : (s.bump).pendingN = s.pendingN := rfl
@[simp] theorem State.bump_dist (s : State) : (s.bump).dist = s.dist := rfl
@[simp] theorem State.bump_regs (s : State) : (s.bump).regs = s.regs := rfl
@[simp] theorem State.bump_net (s : State) : (s.bump).net = s.net := rfl
@[simp] theorem State.bump_treadle (s : State) : (s.bump).treadle = s.treadle := rfl
@[simp] theorem State.bump_tracePort (s : State) : (s.bump).tracePort = s.tracePort := rfl
@[simp] theorem State.bump_notes (s : State) : (s.bump).notes = s.notes := rfl
@[simp] theorem State.bump_crossFail (s : State) : (s.bump).crossFail = s.crossFail := rfl
@[simp] theorem State.bump_mgmt (s : State) : (s.bump).mgmt = s.mgmt := rfl
@[simp] theorem State.bump_agenda (s : State) : (s.bump).agenda = s.agenda := rfl
@[simp] theorem State.bump_active (s : State) : (s.bump).active = s.active := rfl

/-! ### noted -/

@[simp] theorem State.noted_mem (t s : State) (c : Nat) (l : List (Nat × Nat)) : (t.noted s c l).mem = t.mem := rfl
@[simp] theorem State.noted_badLines (t s : State) (c : Nat) (l : List (Nat × Nat)) : (t.noted s c l).badLines = t.badLines := rfl
@[simp] theorem State.noted_weakLines (t s : State) (c : Nat) (l : List (Nat × Nat)) : (t.noted s c l).weakLines = t.weakLines := rfl
@[simp] theorem State.noted_badWords (t s : State) (c : Nat) (l : List (Nat × Nat)) : (t.noted s c l).badWords = t.badWords := rfl
@[simp] theorem State.noted_rows (t s : State) (c : Nat) (l : List (Nat × Nat)) : (t.noted s c l).rows = t.rows := rfl
@[simp] theorem State.noted_bands (t s : State) (c : Nat) (l : List (Nat × Nat)) : (t.noted s c l).bands = t.bands := rfl
@[simp] theorem State.noted_launches (t s : State) (c : Nat) (l : List (Nat × Nat)) : (t.noted s c l).launches = t.launches := rfl
@[simp] theorem State.noted_conts (t s : State) (c : Nat) (l : List (Nat × Nat)) : (t.noted s c l).conts = t.conts := rfl
@[simp] theorem State.noted_cmds (t s : State) (c : Nat) (l : List (Nat × Nat)) : (t.noted s c l).cmds = t.cmds := rfl
@[simp] theorem State.noted_cores (t s : State) (c : Nat) (l : List (Nat × Nat)) : (t.noted s c l).cores = t.cores := rfl
@[simp] theorem State.noted_clusters (t s : State) (c : Nat) (l : List (Nat × Nat)) : (t.noted s c l).clusters = t.clusters := rfl
@[simp] theorem State.noted_dies (t s : State) (c : Nat) (l : List (Nat × Nat)) : (t.noted s c l).dies = t.dies := rfl
@[simp] theorem State.noted_hbmStacks (t s : State) (c : Nat) (l : List (Nat × Nat)) : (t.noted s c l).hbmStacks = t.hbmStacks := rfl
@[simp] theorem State.noted_chans (t s : State) (c : Nat) (l : List (Nat × Nat)) : (t.noted s c l).chans = t.chans := rfl
@[simp] theorem State.noted_scrub (t s : State) (c : Nat) (l : List (Nat × Nat)) : (t.noted s c l).scrub = t.scrub := rfl
@[simp] theorem State.noted_tcache (t s : State) (c : Nat) (l : List (Nat × Nat)) : (t.noted s c l).tcache = t.tcache := rfl
@[simp] theorem State.noted_tables (t s : State) (c : Nat) (l : List (Nat × Nat)) : (t.noted s c l).tables = t.tables := rfl
@[simp] theorem State.noted_freeze (t s : State) (c : Nat) (l : List (Nat × Nat)) : (t.noted s c l).freeze = t.freeze := rfl
@[simp] theorem State.noted_heldHost (t s : State) (c : Nat) (l : List (Nat × Nat)) : (t.noted s c l).heldHost = t.heldHost := rfl
@[simp] theorem State.noted_n (t s : State) (c : Nat) (l : List (Nat × Nat)) : (t.noted s c l).n = t.n := rfl
@[simp] theorem State.noted_pendingN (t s : State) (c : Nat) (l : List (Nat × Nat)) : (t.noted s c l).pendingN = t.pendingN := rfl
@[simp] theorem State.noted_dist (t s : State) (c : Nat) (l : List (Nat × Nat)) : (t.noted s c l).dist = t.dist := rfl
@[simp] theorem State.noted_regs (t s : State) (c : Nat) (l : List (Nat × Nat)) : (t.noted s c l).regs = t.regs := rfl
@[simp] theorem State.noted_net (t s : State) (c : Nat) (l : List (Nat × Nat)) : (t.noted s c l).net = t.net := rfl
@[simp] theorem State.noted_treadle (t s : State) (c : Nat) (l : List (Nat × Nat)) : (t.noted s c l).treadle = t.treadle := rfl
@[simp] theorem State.noted_tracePort (t s : State) (c : Nat) (l : List (Nat × Nat)) : (t.noted s c l).tracePort = t.tracePort := rfl
@[simp] theorem State.noted_crossFail (t s : State) (c : Nat) (l : List (Nat × Nat)) : (t.noted s c l).crossFail = t.crossFail := rfl
@[simp] theorem State.noted_mgmt (t s : State) (c : Nat) (l : List (Nat × Nat)) : (t.noted s c l).mgmt = t.mgmt := rfl
@[simp] theorem State.noted_agenda (t s : State) (c : Nat) (l : List (Nat × Nat)) : (t.noted s c l).agenda = t.agenda := rfl
@[simp] theorem State.noted_active (t s : State) (c : Nat) (l : List (Nat × Nat)) : (t.noted s c l).active = t.active := rfl
@[simp] theorem State.noted_nextId (t s : State) (c : Nat) (l : List (Nat × Nat)) : (t.noted s c l).nextId = t.nextId := rfl

/-! ### useSlot -/

@[simp] theorem State.useSlot_mem (s : State) (g : CoreId) (p : Nat) (q : BitVec 2) (n m : Nat) : (s.useSlot g p q n m).mem = s.mem := rfl
@[simp] theorem State.useSlot_badLines (s : State) (g : CoreId) (p : Nat) (q : BitVec 2) (n m : Nat) : (s.useSlot g p q n m).badLines = s.badLines := rfl
@[simp] theorem State.useSlot_weakLines (s : State) (g : CoreId) (p : Nat) (q : BitVec 2) (n m : Nat) : (s.useSlot g p q n m).weakLines = s.weakLines := rfl
@[simp] theorem State.useSlot_badWords (s : State) (g : CoreId) (p : Nat) (q : BitVec 2) (n m : Nat) : (s.useSlot g p q n m).badWords = s.badWords := rfl
@[simp] theorem State.useSlot_rows (s : State) (g : CoreId) (p : Nat) (q : BitVec 2) (n m : Nat) : (s.useSlot g p q n m).rows = s.rows := rfl
@[simp] theorem State.useSlot_bands (s : State) (g : CoreId) (p : Nat) (q : BitVec 2) (n m : Nat) : (s.useSlot g p q n m).bands = s.bands := rfl
@[simp] theorem State.useSlot_launches (s : State) (g : CoreId) (p : Nat) (q : BitVec 2) (n m : Nat) : (s.useSlot g p q n m).launches = s.launches := rfl
@[simp] theorem State.useSlot_conts (s : State) (g : CoreId) (p : Nat) (q : BitVec 2) (n m : Nat) : (s.useSlot g p q n m).conts = s.conts := rfl
@[simp] theorem State.useSlot_cmds (s : State) (g : CoreId) (p : Nat) (q : BitVec 2) (n m : Nat) : (s.useSlot g p q n m).cmds = s.cmds := rfl
@[simp] theorem State.useSlot_clusters (s : State) (g : CoreId) (p : Nat) (q : BitVec 2) (n m : Nat) : (s.useSlot g p q n m).clusters = s.clusters := rfl
@[simp] theorem State.useSlot_dies (s : State) (g : CoreId) (p : Nat) (q : BitVec 2) (n m : Nat) : (s.useSlot g p q n m).dies = s.dies := rfl
@[simp] theorem State.useSlot_hbmStacks (s : State) (g : CoreId) (p : Nat) (q : BitVec 2) (n m : Nat) : (s.useSlot g p q n m).hbmStacks = s.hbmStacks := rfl
@[simp] theorem State.useSlot_chans (s : State) (g : CoreId) (p : Nat) (q : BitVec 2) (n m : Nat) : (s.useSlot g p q n m).chans = s.chans := rfl
@[simp] theorem State.useSlot_scrub (s : State) (g : CoreId) (p : Nat) (q : BitVec 2) (n m : Nat) : (s.useSlot g p q n m).scrub = s.scrub := rfl
@[simp] theorem State.useSlot_tcache (s : State) (g : CoreId) (p : Nat) (q : BitVec 2) (n m : Nat) : (s.useSlot g p q n m).tcache = s.tcache := rfl
@[simp] theorem State.useSlot_tables (s : State) (g : CoreId) (p : Nat) (q : BitVec 2) (n m : Nat) : (s.useSlot g p q n m).tables = s.tables := rfl
@[simp] theorem State.useSlot_freeze (s : State) (g : CoreId) (p : Nat) (q : BitVec 2) (n m : Nat) : (s.useSlot g p q n m).freeze = s.freeze := rfl
@[simp] theorem State.useSlot_heldHost (s : State) (g : CoreId) (p : Nat) (q : BitVec 2) (n m : Nat) : (s.useSlot g p q n m).heldHost = s.heldHost := rfl
@[simp] theorem State.useSlot_n (s : State) (g : CoreId) (p : Nat) (q : BitVec 2) (n m : Nat) : (s.useSlot g p q n m).n = s.n := rfl
@[simp] theorem State.useSlot_pendingN (s : State) (g : CoreId) (p : Nat) (q : BitVec 2) (n m : Nat) : (s.useSlot g p q n m).pendingN = s.pendingN := rfl
@[simp] theorem State.useSlot_dist (s : State) (g : CoreId) (p : Nat) (q : BitVec 2) (n m : Nat) : (s.useSlot g p q n m).dist = s.dist := rfl
@[simp] theorem State.useSlot_regs (s : State) (g : CoreId) (p : Nat) (q : BitVec 2) (n m : Nat) : (s.useSlot g p q n m).regs = s.regs := rfl
@[simp] theorem State.useSlot_net (s : State) (g : CoreId) (p : Nat) (q : BitVec 2) (n m : Nat) : (s.useSlot g p q n m).net = s.net := rfl
@[simp] theorem State.useSlot_treadle (s : State) (g : CoreId) (p : Nat) (q : BitVec 2) (n m : Nat) : (s.useSlot g p q n m).treadle = s.treadle := rfl
@[simp] theorem State.useSlot_tracePort (s : State) (g : CoreId) (p : Nat) (q : BitVec 2) (n m : Nat) : (s.useSlot g p q n m).tracePort = s.tracePort := rfl
@[simp] theorem State.useSlot_notes (s : State) (g : CoreId) (p : Nat) (q : BitVec 2) (n m : Nat) : (s.useSlot g p q n m).notes = s.notes := rfl
@[simp] theorem State.useSlot_crossFail (s : State) (g : CoreId) (p : Nat) (q : BitVec 2) (n m : Nat) : (s.useSlot g p q n m).crossFail = s.crossFail := rfl
@[simp] theorem State.useSlot_mgmt (s : State) (g : CoreId) (p : Nat) (q : BitVec 2) (n m : Nat) : (s.useSlot g p q n m).mgmt = s.mgmt := rfl
@[simp] theorem State.useSlot_agenda (s : State) (g : CoreId) (p : Nat) (q : BitVec 2) (n m : Nat) : (s.useSlot g p q n m).agenda = s.agenda := rfl
@[simp] theorem State.useSlot_active (s : State) (g : CoreId) (p : Nat) (q : BitVec 2) (n m : Nat) : (s.useSlot g p q n m).active = s.active := rfl
@[simp] theorem State.useSlot_nextId (s : State) (g : CoreId) (p : Nat) (q : BitVec 2) (n m : Nat) : (s.useSlot g p q n m).nextId = s.nextId := rfl

/-! ### readingFrom -/

@[simp] theorem readingFrom_mem {α : Type} (m : Memory) (s : State) (f : State → State × α) : (readingFrom m s f).1.mem = s.mem := rfl
@[simp] theorem readingFrom_answer {α : Type} (m : Memory) (s : State) (f : State → State × α) :
    (readingFrom m s f).2 = (f { s with mem := m }).2 := rfl

/-! ### stampAt -/

@[simp] theorem State.setRow_stampAt (s : State) (r q : RowId) (x : Row) : (s.setRow r x).stampAt q = s.stampAt q := rfl
@[simp] theorem State.modRow_stampAt (s : State) (r q : RowId) (f : Row → Row) : (s.modRow r f).stampAt q = s.stampAt q := by
  unfold State.modRow; split <;> rfl
@[simp] theorem State.mapRows_stampAt (s : State) (q : RowId) (f : RowId → Row → Row) : (s.mapRows f).stampAt q = s.stampAt q := rfl
@[simp] theorem State.modBand_stampAt (s : State) (b : Nat) (q : RowId) (f : Band → Band) : (s.modBand b f).stampAt q = s.stampAt q := rfl
@[simp] theorem State.bump_stampAt (s : State) (q : RowId) : (s.bump).stampAt q = s.stampAt q := rfl

end Sys2Proof.Machine
end

