-- ==== Sys2Proof/Laws/Row.lean ====
section
/-! SUPPORT. What each update of a row leaves as it was, one lemma for each field and update. -/
namespace Sys2Proof.Machine

/-! ### sset -/

@[simp] theorem Row.sset_band (x : Row) (r : Reg) (v : Dword) : (x.sset r v).band = x.band := by unfold Row.sset; split <;> rfl
@[simp] theorem Row.sset_inBand (x : Row) (r : Reg) (v : Dword) : (x.sset r v).inBand = x.inBand := by unfold Row.sset; split <;> rfl
@[simp] theorem Row.sset_status (x : Row) (r : Reg) (v : Dword) : (x.sset r v).status = x.status := by unfold Row.sset; split <;> rfl
@[simp] theorem Row.sset_pc (x : Row) (r : Reg) (v : Dword) : (x.sset r v).pc = x.pc := by unfold Row.sset; split <;> rfl
@[simp] theorem Row.sset_ibuf (x : Row) (r : Reg) (v : Dword) : (x.sset r v).ibuf = x.ibuf := by unfold Row.sset; split <;> rfl
@[simp] theorem Row.sset_hints (x : Row) (r : Reg) (v : Dword) : (x.sset r v).hints = x.hints := by unfold Row.sset; split <;> rfl
@[simp] theorem Row.sset_repix (x : Row) (r : Reg) (v : Dword) : (x.sset r v).repix = x.repix := by unfold Row.sset; split <;> rfl
@[simp] theorem Row.sset_stack (x : Row) (r : Reg) (v : Dword) : (x.sset r v).stack = x.stack := by unfold Row.sset; split <;> rfl
@[simp] theorem Row.sset_fp (x : Row) (r : Reg) (v : Dword) : (x.sset r v).fp = x.fp := by unfold Row.sset; split <;> rfl
@[simp] theorem Row.sset_csr (x : Row) (r : Reg) (v : Dword) : (x.sset r v).csr = x.csr := by unfold Row.sset; split <;> rfl
@[simp] theorem Row.sset_north (x : Row) (r : Reg) (v : Dword) : (x.sset r v).north = x.north := by unfold Row.sset; split <;> rfl
@[simp] theorem Row.sset_south (x : Row) (r : Reg) (v : Dword) : (x.sset r v).south = x.south := by unfold Row.sset; split <;> rfl
@[simp] theorem Row.sset_mx (x : Row) (r : Reg) (v : Dword) : (x.sset r v).mx = x.mx := by unfold Row.sset; split <;> rfl
@[simp] theorem Row.sset_prods (x : Row) (r : Reg) (v : Dword) : (x.sset r v).prods = x.prods := by unfold Row.sset; split <;> rfl
@[simp] theorem Row.sset_posted (x : Row) (r : Reg) (v : Dword) : (x.sset r v).posted = x.posted := by unfold Row.sset; split <;> rfl
@[simp] theorem Row.sset_cls (x : Row) (r : Reg) (v : Dword) : (x.sset r v).cls = x.cls := by unfold Row.sset; split <;> rfl
@[simp] theorem Row.sset_ctl (x : Row) (r : Reg) (v : Dword) : (x.sset r v).ctl = x.ctl := by unfold Row.sset; split <;> rfl

/-! ### vset -/

@[simp] theorem Row.vset_band (x : Row) (r : Reg) (k : Mask) (v : Lanes) : (x.vset r k v).band = x.band := by unfold Row.vset; split <;> rfl
@[simp] theorem Row.vset_inBand (x : Row) (r : Reg) (k : Mask) (v : Lanes) : (x.vset r k v).inBand = x.inBand := by unfold Row.vset; split <;> rfl
@[simp] theorem Row.vset_status (x : Row) (r : Reg) (k : Mask) (v : Lanes) : (x.vset r k v).status = x.status := by unfold Row.vset; split <;> rfl
@[simp] theorem Row.vset_pc (x : Row) (r : Reg) (k : Mask) (v : Lanes) : (x.vset r k v).pc = x.pc := by unfold Row.vset; split <;> rfl
@[simp] theorem Row.vset_ibuf (x : Row) (r : Reg) (k : Mask) (v : Lanes) : (x.vset r k v).ibuf = x.ibuf := by unfold Row.vset; split <;> rfl
@[simp] theorem Row.vset_hints (x : Row) (r : Reg) (k : Mask) (v : Lanes) : (x.vset r k v).hints = x.hints := by unfold Row.vset; split <;> rfl
@[simp] theorem Row.vset_repix (x : Row) (r : Reg) (k : Mask) (v : Lanes) : (x.vset r k v).repix = x.repix := by unfold Row.vset; split <;> rfl
@[simp] theorem Row.vset_stack (x : Row) (r : Reg) (k : Mask) (v : Lanes) : (x.vset r k v).stack = x.stack := by unfold Row.vset; split <;> rfl
@[simp] theorem Row.vset_fp (x : Row) (r : Reg) (k : Mask) (v : Lanes) : (x.vset r k v).fp = x.fp := by unfold Row.vset; split <;> rfl
@[simp] theorem Row.vset_csr (x : Row) (r : Reg) (k : Mask) (v : Lanes) : (x.vset r k v).csr = x.csr := by unfold Row.vset; split <;> rfl
@[simp] theorem Row.vset_north (x : Row) (r : Reg) (k : Mask) (v : Lanes) : (x.vset r k v).north = x.north := by unfold Row.vset; split <;> rfl
@[simp] theorem Row.vset_south (x : Row) (r : Reg) (k : Mask) (v : Lanes) : (x.vset r k v).south = x.south := by unfold Row.vset; split <;> rfl
@[simp] theorem Row.vset_mx (x : Row) (r : Reg) (k : Mask) (v : Lanes) : (x.vset r k v).mx = x.mx := by unfold Row.vset; split <;> rfl
@[simp] theorem Row.vset_prods (x : Row) (r : Reg) (k : Mask) (v : Lanes) : (x.vset r k v).prods = x.prods := by unfold Row.vset; split <;> rfl
@[simp] theorem Row.vset_posted (x : Row) (r : Reg) (k : Mask) (v : Lanes) : (x.vset r k v).posted = x.posted := by unfold Row.vset; split <;> rfl
@[simp] theorem Row.vset_cls (x : Row) (r : Reg) (k : Mask) (v : Lanes) : (x.vset r k v).cls = x.cls := by unfold Row.vset; split <;> rfl
@[simp] theorem Row.vset_ctl (x : Row) (r : Reg) (k : Mask) (v : Lanes) : (x.vset r k v).ctl = x.ctl := by unfold Row.vset; split <;> rfl

/-! ### mset -/

@[simp] theorem Row.mset_band (x : Row) (k : MReg) (v : Mask) : (x.mset k v).band = x.band := rfl
@[simp] theorem Row.mset_inBand (x : Row) (k : MReg) (v : Mask) : (x.mset k v).inBand = x.inBand := rfl
@[simp] theorem Row.mset_status (x : Row) (k : MReg) (v : Mask) : (x.mset k v).status = x.status := rfl
@[simp] theorem Row.mset_pc (x : Row) (k : MReg) (v : Mask) : (x.mset k v).pc = x.pc := rfl
@[simp] theorem Row.mset_ibuf (x : Row) (k : MReg) (v : Mask) : (x.mset k v).ibuf = x.ibuf := rfl
@[simp] theorem Row.mset_hints (x : Row) (k : MReg) (v : Mask) : (x.mset k v).hints = x.hints := rfl
@[simp] theorem Row.mset_repix (x : Row) (k : MReg) (v : Mask) : (x.mset k v).repix = x.repix := rfl
@[simp] theorem Row.mset_stack (x : Row) (k : MReg) (v : Mask) : (x.mset k v).stack = x.stack := rfl
@[simp] theorem Row.mset_fp (x : Row) (k : MReg) (v : Mask) : (x.mset k v).fp = x.fp := rfl
@[simp] theorem Row.mset_csr (x : Row) (k : MReg) (v : Mask) : (x.mset k v).csr = x.csr := rfl
@[simp] theorem Row.mset_north (x : Row) (k : MReg) (v : Mask) : (x.mset k v).north = x.north := rfl
@[simp] theorem Row.mset_south (x : Row) (k : MReg) (v : Mask) : (x.mset k v).south = x.south := rfl
@[simp] theorem Row.mset_mx (x : Row) (k : MReg) (v : Mask) : (x.mset k v).mx = x.mx := rfl
@[simp] theorem Row.mset_prods (x : Row) (k : MReg) (v : Mask) : (x.mset k v).prods = x.prods := rfl
@[simp] theorem Row.mset_posted (x : Row) (k : MReg) (v : Mask) : (x.mset k v).posted = x.posted := rfl
@[simp] theorem Row.mset_cls (x : Row) (k : MReg) (v : Mask) : (x.mset k v).cls = x.cls := rfl
@[simp] theorem Row.mset_ctl (x : Row) (k : MReg) (v : Mask) : (x.mset k v).ctl = x.ctl := rfl

/-! ### markS -/

@[simp] theorem Row.markS_band (x : Row) (r : Reg) (b : Bool) : (x.markS r b).band = x.band := by unfold Row.markS; split <;> rfl
@[simp] theorem Row.markS_inBand (x : Row) (r : Reg) (b : Bool) : (x.markS r b).inBand = x.inBand := by unfold Row.markS; split <;> rfl
@[simp] theorem Row.markS_status (x : Row) (r : Reg) (b : Bool) : (x.markS r b).status = x.status := by unfold Row.markS; split <;> rfl
@[simp] theorem Row.markS_pc (x : Row) (r : Reg) (b : Bool) : (x.markS r b).pc = x.pc := by unfold Row.markS; split <;> rfl
@[simp] theorem Row.markS_ibuf (x : Row) (r : Reg) (b : Bool) : (x.markS r b).ibuf = x.ibuf := by unfold Row.markS; split <;> rfl
@[simp] theorem Row.markS_hints (x : Row) (r : Reg) (b : Bool) : (x.markS r b).hints = x.hints := by unfold Row.markS; split <;> rfl
@[simp] theorem Row.markS_repix (x : Row) (r : Reg) (b : Bool) : (x.markS r b).repix = x.repix := by unfold Row.markS; split <;> rfl
@[simp] theorem Row.markS_stack (x : Row) (r : Reg) (b : Bool) : (x.markS r b).stack = x.stack := by unfold Row.markS; split <;> rfl
@[simp] theorem Row.markS_fp (x : Row) (r : Reg) (b : Bool) : (x.markS r b).fp = x.fp := by unfold Row.markS; split <;> rfl
@[simp] theorem Row.markS_csr (x : Row) (r : Reg) (b : Bool) : (x.markS r b).csr = x.csr := by unfold Row.markS; split <;> rfl
@[simp] theorem Row.markS_north (x : Row) (r : Reg) (b : Bool) : (x.markS r b).north = x.north := by unfold Row.markS; split <;> rfl
@[simp] theorem Row.markS_south (x : Row) (r : Reg) (b : Bool) : (x.markS r b).south = x.south := by unfold Row.markS; split <;> rfl
@[simp] theorem Row.markS_mx (x : Row) (r : Reg) (b : Bool) : (x.markS r b).mx = x.mx := by unfold Row.markS; split <;> rfl
@[simp] theorem Row.markS_prods (x : Row) (r : Reg) (b : Bool) : (x.markS r b).prods = x.prods := by unfold Row.markS; split <;> rfl
@[simp] theorem Row.markS_posted (x : Row) (r : Reg) (b : Bool) : (x.markS r b).posted = x.posted := by unfold Row.markS; split <;> rfl
@[simp] theorem Row.markS_cls (x : Row) (r : Reg) (b : Bool) : (x.markS r b).cls = x.cls := by unfold Row.markS; split <;> rfl
@[simp] theorem Row.markS_ctl (x : Row) (r : Reg) (b : Bool) : (x.markS r b).ctl = x.ctl := by unfold Row.markS; split <;> rfl

/-! ### markV -/

@[simp] theorem Row.markV_band (x : Row) (r : Reg) (b : Bool) : (x.markV r b).band = x.band := rfl
@[simp] theorem Row.markV_inBand (x : Row) (r : Reg) (b : Bool) : (x.markV r b).inBand = x.inBand := rfl
@[simp] theorem Row.markV_status (x : Row) (r : Reg) (b : Bool) : (x.markV r b).status = x.status := rfl
@[simp] theorem Row.markV_pc (x : Row) (r : Reg) (b : Bool) : (x.markV r b).pc = x.pc := rfl
@[simp] theorem Row.markV_ibuf (x : Row) (r : Reg) (b : Bool) : (x.markV r b).ibuf = x.ibuf := rfl
@[simp] theorem Row.markV_hints (x : Row) (r : Reg) (b : Bool) : (x.markV r b).hints = x.hints := rfl
@[simp] theorem Row.markV_repix (x : Row) (r : Reg) (b : Bool) : (x.markV r b).repix = x.repix := rfl
@[simp] theorem Row.markV_stack (x : Row) (r : Reg) (b : Bool) : (x.markV r b).stack = x.stack := rfl
@[simp] theorem Row.markV_fp (x : Row) (r : Reg) (b : Bool) : (x.markV r b).fp = x.fp := rfl
@[simp] theorem Row.markV_csr (x : Row) (r : Reg) (b : Bool) : (x.markV r b).csr = x.csr := rfl
@[simp] theorem Row.markV_north (x : Row) (r : Reg) (b : Bool) : (x.markV r b).north = x.north := rfl
@[simp] theorem Row.markV_south (x : Row) (r : Reg) (b : Bool) : (x.markV r b).south = x.south := rfl
@[simp] theorem Row.markV_mx (x : Row) (r : Reg) (b : Bool) : (x.markV r b).mx = x.mx := rfl
@[simp] theorem Row.markV_prods (x : Row) (r : Reg) (b : Bool) : (x.markV r b).prods = x.prods := rfl
@[simp] theorem Row.markV_posted (x : Row) (r : Reg) (b : Bool) : (x.markV r b).posted = x.posted := rfl
@[simp] theorem Row.markV_cls (x : Row) (r : Reg) (b : Bool) : (x.markV r b).cls = x.cls := rfl
@[simp] theorem Row.markV_ctl (x : Row) (r : Reg) (b : Bool) : (x.markV r b).ctl = x.ctl := rfl

/-! ### raise -/

@[simp] theorem Row.raise_band (x : Row) (f : Flags) : (x.raise f).band = x.band := rfl
@[simp] theorem Row.raise_inBand (x : Row) (f : Flags) : (x.raise f).inBand = x.inBand := rfl
@[simp] theorem Row.raise_status (x : Row) (f : Flags) : (x.raise f).status = x.status := rfl
@[simp] theorem Row.raise_pc (x : Row) (f : Flags) : (x.raise f).pc = x.pc := rfl
@[simp] theorem Row.raise_ibuf (x : Row) (f : Flags) : (x.raise f).ibuf = x.ibuf := rfl
@[simp] theorem Row.raise_regs (x : Row) (f : Flags) : (x.raise f).regs = x.regs := rfl
@[simp] theorem Row.raise_hints (x : Row) (f : Flags) : (x.raise f).hints = x.hints := rfl
@[simp] theorem Row.raise_repix (x : Row) (f : Flags) : (x.raise f).repix = x.repix := rfl
@[simp] theorem Row.raise_stack (x : Row) (f : Flags) : (x.raise f).stack = x.stack := rfl
@[simp] theorem Row.raise_csr (x : Row) (f : Flags) : (x.raise f).csr = x.csr := rfl
@[simp] theorem Row.raise_north (x : Row) (f : Flags) : (x.raise f).north = x.north := rfl
@[simp] theorem Row.raise_south (x : Row) (f : Flags) : (x.raise f).south = x.south := rfl
@[simp] theorem Row.raise_mx (x : Row) (f : Flags) : (x.raise f).mx = x.mx := rfl
@[simp] theorem Row.raise_prods (x : Row) (f : Flags) : (x.raise f).prods = x.prods := rfl
@[simp] theorem Row.raise_posted (x : Row) (f : Flags) : (x.raise f).posted = x.posted := rfl
@[simp] theorem Row.raise_cls (x : Row) (f : Flags) : (x.raise f).cls = x.cls := rfl
@[simp] theorem Row.raise_ctl (x : Row) (f : Flags) : (x.raise f).ctl = x.ctl := rfl

/-! ### pop -/

@[simp] theorem Row.pop_band (x : Row) : (x.pop).band = x.band := rfl
@[simp] theorem Row.pop_inBand (x : Row) : (x.pop).inBand = x.inBand := rfl
@[simp] theorem Row.pop_status (x : Row) : (x.pop).status = x.status := rfl
@[simp] theorem Row.pop_pc (x : Row) : (x.pop).pc = x.pc := rfl
@[simp] theorem Row.pop_ibuf (x : Row) : (x.pop).ibuf = x.ibuf := rfl
@[simp] theorem Row.pop_regs (x : Row) : (x.pop).regs = x.regs := rfl
@[simp] theorem Row.pop_hints (x : Row) : (x.pop).hints = x.hints := rfl
@[simp] theorem Row.pop_repix (x : Row) : (x.pop).repix = x.repix := rfl
@[simp] theorem Row.pop_stack (x : Row) : (x.pop).stack = x.stack := rfl
@[simp] theorem Row.pop_fp (x : Row) : (x.pop).fp = x.fp := rfl
@[simp] theorem Row.pop_csr (x : Row) : (x.pop).csr = x.csr := rfl
@[simp] theorem Row.pop_south (x : Row) : (x.pop).south = x.south := rfl
@[simp] theorem Row.pop_mx (x : Row) : (x.pop).mx = x.mx := rfl
@[simp] theorem Row.pop_prods (x : Row) : (x.pop).prods = x.prods := rfl
@[simp] theorem Row.pop_posted (x : Row) : (x.pop).posted = x.posted := rfl
@[simp] theorem Row.pop_cls (x : Row) : (x.pop).cls = x.cls := rfl
@[simp] theorem Row.pop_ctl (x : Row) : (x.pop).ctl = x.ctl := rfl

/-! ### setM0 -/

@[simp] theorem Row.setM0_band (x : Row) (v : Mask) : (x.setM0 v).band = x.band := rfl
@[simp] theorem Row.setM0_inBand (x : Row) (v : Mask) : (x.setM0 v).inBand = x.inBand := rfl
@[simp] theorem Row.setM0_status (x : Row) (v : Mask) : (x.setM0 v).status = x.status := rfl
@[simp] theorem Row.setM0_pc (x : Row) (v : Mask) : (x.setM0 v).pc = x.pc := rfl
@[simp] theorem Row.setM0_ibuf (x : Row) (v : Mask) : (x.setM0 v).ibuf = x.ibuf := rfl
@[simp] theorem Row.setM0_hints (x : Row) (v : Mask) : (x.setM0 v).hints = x.hints := rfl
@[simp] theorem Row.setM0_repix (x : Row) (v : Mask) : (x.setM0 v).repix = x.repix := rfl
@[simp] theorem Row.setM0_stack (x : Row) (v : Mask) : (x.setM0 v).stack = x.stack := rfl
@[simp] theorem Row.setM0_fp (x : Row) (v : Mask) : (x.setM0 v).fp = x.fp := rfl
@[simp] theorem Row.setM0_csr (x : Row) (v : Mask) : (x.setM0 v).csr = x.csr := rfl
@[simp] theorem Row.setM0_north (x : Row) (v : Mask) : (x.setM0 v).north = x.north := rfl
@[simp] theorem Row.setM0_south (x : Row) (v : Mask) : (x.setM0 v).south = x.south := rfl
@[simp] theorem Row.setM0_mx (x : Row) (v : Mask) : (x.setM0 v).mx = x.mx := rfl
@[simp] theorem Row.setM0_prods (x : Row) (v : Mask) : (x.setM0 v).prods = x.prods := rfl
@[simp] theorem Row.setM0_posted (x : Row) (v : Mask) : (x.setM0 v).posted = x.posted := rfl
@[simp] theorem Row.setM0_cls (x : Row) (v : Mask) : (x.setM0 v).cls = x.cls := rfl
@[simp] theorem Row.setM0_ctl (x : Row) (v : Mask) : (x.setM0 v).ctl = x.ctl := rfl

/-! ### modCls -/

@[simp] theorem Row.modCls_band (x : Row) (c : BClass) (f : ClassState → ClassState) : (x.modCls c f).band = x.band := rfl
@[simp] theorem Row.modCls_inBand (x : Row) (c : BClass) (f : ClassState → ClassState) : (x.modCls c f).inBand = x.inBand := rfl
@[simp] theorem Row.modCls_status (x : Row) (c : BClass) (f : ClassState → ClassState) : (x.modCls c f).status = x.status := rfl
@[simp] theorem Row.modCls_pc (x : Row) (c : BClass) (f : ClassState → ClassState) : (x.modCls c f).pc = x.pc := rfl
@[simp] theorem Row.modCls_ibuf (x : Row) (c : BClass) (f : ClassState → ClassState) : (x.modCls c f).ibuf = x.ibuf := rfl
@[simp] theorem Row.modCls_regs (x : Row) (c : BClass) (f : ClassState → ClassState) : (x.modCls c f).regs = x.regs := rfl
@[simp] theorem Row.modCls_hints (x : Row) (c : BClass) (f : ClassState → ClassState) : (x.modCls c f).hints = x.hints := rfl
@[simp] theorem Row.modCls_repix (x : Row) (c : BClass) (f : ClassState → ClassState) : (x.modCls c f).repix = x.repix := rfl
@[simp] theorem Row.modCls_stack (x : Row) (c : BClass) (f : ClassState → ClassState) : (x.modCls c f).stack = x.stack := rfl
@[simp] theorem Row.modCls_fp (x : Row) (c : BClass) (f : ClassState → ClassState) : (x.modCls c f).fp = x.fp := rfl
@[simp] theorem Row.modCls_csr (x : Row) (c : BClass) (f : ClassState → ClassState) : (x.modCls c f).csr = x.csr := rfl
@[simp] theorem Row.modCls_north (x : Row) (c : BClass) (f : ClassState → ClassState) : (x.modCls c f).north = x.north := rfl
@[simp] theorem Row.modCls_south (x : Row) (c : BClass) (f : ClassState → ClassState) : (x.modCls c f).south = x.south := rfl
@[simp] theorem Row.modCls_mx (x : Row) (c : BClass) (f : ClassState → ClassState) : (x.modCls c f).mx = x.mx := rfl
@[simp] theorem Row.modCls_prods (x : Row) (c : BClass) (f : ClassState → ClassState) : (x.modCls c f).prods = x.prods := rfl
@[simp] theorem Row.modCls_posted (x : Row) (c : BClass) (f : ClassState → ClassState) : (x.modCls c f).posted = x.posted := rfl
@[simp] theorem Row.modCls_ctl (x : Row) (c : BClass) (f : ClassState → ClassState) : (x.modCls c f).ctl = x.ctl := rfl

/-! ### dueParity -/

@[simp] theorem Row.dueParity_band (x : Row) (t : Option Dword) : (x.dueParity t).band = x.band := by unfold Row.dueParity; split <;> rfl
@[simp] theorem Row.dueParity_inBand (x : Row) (t : Option Dword) : (x.dueParity t).inBand = x.inBand := by unfold Row.dueParity; split <;> rfl
@[simp] theorem Row.dueParity_status (x : Row) (t : Option Dword) : (x.dueParity t).status = x.status := by unfold Row.dueParity; split <;> rfl
@[simp] theorem Row.dueParity_pc (x : Row) (t : Option Dword) : (x.dueParity t).pc = x.pc := by unfold Row.dueParity; split <;> rfl
@[simp] theorem Row.dueParity_ibuf (x : Row) (t : Option Dword) : (x.dueParity t).ibuf = x.ibuf := by unfold Row.dueParity; split <;> rfl
@[simp] theorem Row.dueParity_regs (x : Row) (t : Option Dword) : (x.dueParity t).regs = x.regs := by unfold Row.dueParity; split <;> rfl
@[simp] theorem Row.dueParity_hints (x : Row) (t : Option Dword) : (x.dueParity t).hints = x.hints := by unfold Row.dueParity; split <;> rfl
@[simp] theorem Row.dueParity_repix (x : Row) (t : Option Dword) : (x.dueParity t).repix = x.repix := by unfold Row.dueParity; split <;> rfl
@[simp] theorem Row.dueParity_stack (x : Row) (t : Option Dword) : (x.dueParity t).stack = x.stack := by unfold Row.dueParity; split <;> rfl
@[simp] theorem Row.dueParity_fp (x : Row) (t : Option Dword) : (x.dueParity t).fp = x.fp := by unfold Row.dueParity; split <;> rfl
@[simp] theorem Row.dueParity_csr (x : Row) (t : Option Dword) : (x.dueParity t).csr = x.csr := by unfold Row.dueParity; split <;> rfl
@[simp] theorem Row.dueParity_north (x : Row) (t : Option Dword) : (x.dueParity t).north = x.north := by unfold Row.dueParity; split <;> rfl
@[simp] theorem Row.dueParity_south (x : Row) (t : Option Dword) : (x.dueParity t).south = x.south := by unfold Row.dueParity; split <;> rfl
@[simp] theorem Row.dueParity_mx (x : Row) (t : Option Dword) : (x.dueParity t).mx = x.mx := by unfold Row.dueParity; split <;> rfl
@[simp] theorem Row.dueParity_prods (x : Row) (t : Option Dword) : (x.dueParity t).prods = x.prods := by unfold Row.dueParity; split <;> rfl
@[simp] theorem Row.dueParity_posted (x : Row) (t : Option Dword) : (x.dueParity t).posted = x.posted := by unfold Row.dueParity; split <;> rfl
@[simp] theorem Row.dueParity_cls (x : Row) (t : Option Dword) : (x.dueParity t).cls = x.cls := by unfold Row.dueParity; split <;> rfl

/-! ### produce -/

@[simp] theorem Row.produce_band (x : Row) (p : Producer) : (x.produce p).band = x.band := by unfold Row.produce; split <;> simp
@[simp] theorem Row.produce_inBand (x : Row) (p : Producer) : (x.produce p).inBand = x.inBand := by unfold Row.produce; split <;> simp
@[simp] theorem Row.produce_status (x : Row) (p : Producer) : (x.produce p).status = x.status := by unfold Row.produce; split <;> simp
@[simp] theorem Row.produce_pc (x : Row) (p : Producer) : (x.produce p).pc = x.pc := by unfold Row.produce; split <;> simp
@[simp] theorem Row.produce_ibuf (x : Row) (p : Producer) : (x.produce p).ibuf = x.ibuf := by unfold Row.produce; split <;> simp
@[simp] theorem Row.produce_hints (x : Row) (p : Producer) : (x.produce p).hints = x.hints := by unfold Row.produce; split <;> simp
@[simp] theorem Row.produce_repix (x : Row) (p : Producer) : (x.produce p).repix = x.repix := by unfold Row.produce; split <;> simp
@[simp] theorem Row.produce_stack (x : Row) (p : Producer) : (x.produce p).stack = x.stack := by unfold Row.produce; split <;> simp
@[simp] theorem Row.produce_fp (x : Row) (p : Producer) : (x.produce p).fp = x.fp := by unfold Row.produce; split <;> simp
@[simp] theorem Row.produce_csr (x : Row) (p : Producer) : (x.produce p).csr = x.csr := by unfold Row.produce; split <;> simp
@[simp] theorem Row.produce_north (x : Row) (p : Producer) : (x.produce p).north = x.north := by unfold Row.produce; split <;> simp
@[simp] theorem Row.produce_south (x : Row) (p : Producer) : (x.produce p).south = x.south := by unfold Row.produce; split <;> simp
@[simp] theorem Row.produce_mx (x : Row) (p : Producer) : (x.produce p).mx = x.mx := by unfold Row.produce; split <;> simp
@[simp] theorem Row.produce_posted (x : Row) (p : Producer) : (x.produce p).posted = x.posted := by unfold Row.produce; split <;> simp
@[simp] theorem Row.produce_cls (x : Row) (p : Producer) : (x.produce p).cls = x.cls := by unfold Row.produce; split <;> simp
@[simp] theorem Row.produce_ctl (x : Row) (p : Producer) : (x.produce p).ctl = x.ctl := by unfold Row.produce; split <;> simp

@[simp] theorem issued_band (x : Row) (st : Nat) : (issued x st).band = x.band := rfl
@[simp] theorem issued_inBand (x : Row) (st : Nat) : (issued x st).inBand = x.inBand := rfl
@[simp] theorem issued_status (x : Row) (st : Nat) : (issued x st).status = x.status := rfl
@[simp] theorem issued_pc (x : Row) (st : Nat) : (issued x st).pc = x.pc := rfl
@[simp] theorem issued_ibuf (x : Row) (st : Nat) : (issued x st).ibuf = x.ibuf := rfl
@[simp] theorem issued_regs (x : Row) (st : Nat) : (issued x st).regs = x.regs := rfl
@[simp] theorem issued_hints (x : Row) (st : Nat) : (issued x st).hints = x.hints := rfl
@[simp] theorem issued_repix (x : Row) (st : Nat) : (issued x st).repix = x.repix := rfl
@[simp] theorem issued_stack (x : Row) (st : Nat) : (issued x st).stack = x.stack := rfl
@[simp] theorem issued_fp (x : Row) (st : Nat) : (issued x st).fp = x.fp := rfl
@[simp] theorem issued_csr (x : Row) (st : Nat) : (issued x st).csr = x.csr := rfl
@[simp] theorem issued_north (x : Row) (st : Nat) : (issued x st).north = x.north := rfl
@[simp] theorem issued_south (x : Row) (st : Nat) : (issued x st).south = x.south := rfl
@[simp] theorem issued_mx (x : Row) (st : Nat) : (issued x st).mx = x.mx := rfl
@[simp] theorem issued_prods (x : Row) (st : Nat) : (issued x st).prods = x.prods := rfl
@[simp] theorem issued_posted (x : Row) (st : Nat) : (issued x st).posted = x.posted := rfl
@[simp] theorem issued_cls (x : Row) (st : Nat) : (issued x st).cls = x.cls := rfl
@[simp] theorem stamped_band (x : Row) (st : Nat) : (stamped x st).band = x.band := rfl
@[simp] theorem stamped_inBand (x : Row) (st : Nat) : (stamped x st).inBand = x.inBand := rfl
@[simp] theorem stamped_status (x : Row) (st : Nat) : (stamped x st).status = x.status := rfl
@[simp] theorem stamped_pc (x : Row) (st : Nat) : (stamped x st).pc = x.pc := rfl
@[simp] theorem stamped_ibuf (x : Row) (st : Nat) : (stamped x st).ibuf = x.ibuf := rfl
@[simp] theorem stamped_regs (x : Row) (st : Nat) : (stamped x st).regs = x.regs := rfl
@[simp] theorem stamped_hints (x : Row) (st : Nat) : (stamped x st).hints = x.hints := rfl
@[simp] theorem stamped_repix (x : Row) (st : Nat) : (stamped x st).repix = x.repix := rfl
@[simp] theorem stamped_stack (x : Row) (st : Nat) : (stamped x st).stack = x.stack := rfl
@[simp] theorem stamped_fp (x : Row) (st : Nat) : (stamped x st).fp = x.fp := rfl
@[simp] theorem stamped_csr (x : Row) (st : Nat) : (stamped x st).csr = x.csr := rfl
@[simp] theorem stamped_north (x : Row) (st : Nat) : (stamped x st).north = x.north := rfl
@[simp] theorem stamped_south (x : Row) (st : Nat) : (stamped x st).south = x.south := rfl
@[simp] theorem stamped_mx (x : Row) (st : Nat) : (stamped x st).mx = x.mx := rfl
@[simp] theorem stamped_prods (x : Row) (st : Nat) : (stamped x st).prods = x.prods := rfl
@[simp] theorem stamped_posted (x : Row) (st : Nat) : (stamped x st).posted = x.posted := rfl
@[simp] theorem stamped_cls (x : Row) (st : Nat) : (stamped x st).cls = x.cls := rfl

@[simp] theorem nextWord_band (x : Row) (pc : Dword) : (nextWord x pc).band = x.band := rfl
@[simp] theorem nextWord_inBand (x : Row) (pc : Dword) : (nextWord x pc).inBand = x.inBand := rfl
@[simp] theorem nextWord_status (x : Row) (pc : Dword) : (nextWord x pc).status = x.status := rfl
@[simp] theorem nextWord_regs (x : Row) (pc : Dword) : (nextWord x pc).regs = x.regs := rfl
@[simp] theorem nextWord_stack (x : Row) (pc : Dword) : (nextWord x pc).stack = x.stack := rfl
@[simp] theorem nextWord_fp (x : Row) (pc : Dword) : (nextWord x pc).fp = x.fp := rfl
@[simp] theorem nextWord_csr (x : Row) (pc : Dword) : (nextWord x pc).csr = x.csr := rfl
@[simp] theorem nextWord_north (x : Row) (pc : Dword) : (nextWord x pc).north = x.north := rfl
@[simp] theorem nextWord_south (x : Row) (pc : Dword) : (nextWord x pc).south = x.south := rfl
@[simp] theorem nextWord_mx (x : Row) (pc : Dword) : (nextWord x pc).mx = x.mx := rfl
@[simp] theorem nextWord_prods (x : Row) (pc : Dword) : (nextWord x pc).prods = x.prods := rfl
@[simp] theorem nextWord_posted (x : Row) (pc : Dword) : (nextWord x pc).posted = x.posted := rfl
@[simp] theorem nextWord_cls (x : Row) (pc : Dword) : (nextWord x pc).cls = x.cls := rfl
@[simp] theorem nextWord_ctl (x : Row) (pc : Dword) : (nextWord x pc).ctl = x.ctl := rfl
@[simp] theorem retireRow_band (x : Row) (st : Nat) : (retireRow x st).band = x.band := by
  unfold retireRow; split <;> rfl
@[simp] theorem retireRow_inBand (x : Row) (st : Nat) : (retireRow x st).inBand = x.inBand := by
  unfold retireRow; split <;> rfl
@[simp] theorem retireRow_status (x : Row) (st : Nat) : (retireRow x st).status = x.status := by
  unfold retireRow; split <;> rfl
@[simp] theorem retireRow_regs (x : Row) (st : Nat) : (retireRow x st).regs = x.regs := by
  unfold retireRow; split <;> rfl
@[simp] theorem retireRow_stack (x : Row) (st : Nat) : (retireRow x st).stack = x.stack := by
  unfold retireRow; split <;> rfl
@[simp] theorem retireRow_fp (x : Row) (st : Nat) : (retireRow x st).fp = x.fp := by
  unfold retireRow; split <;> rfl
@[simp] theorem retireRow_csr (x : Row) (st : Nat) : (retireRow x st).csr = x.csr := by
  unfold retireRow; split <;> rfl
@[simp] theorem retireRow_north (x : Row) (st : Nat) : (retireRow x st).north = x.north := by
  unfold retireRow; split <;> rfl
@[simp] theorem retireRow_south (x : Row) (st : Nat) : (retireRow x st).south = x.south := by
  unfold retireRow; split <;> rfl
@[simp] theorem retireRow_mx (x : Row) (st : Nat) : (retireRow x st).mx = x.mx := by
  unfold retireRow; split <;> rfl
@[simp] theorem retireRow_prods (x : Row) (st : Nat) : (retireRow x st).prods = x.prods := by
  unfold retireRow; split <;> rfl
@[simp] theorem retireRow_posted (x : Row) (st : Nat) : (retireRow x st).posted = x.posted := by
  unfold retireRow; split <;> rfl
@[simp] theorem retireRow_cls (x : Row) (st : Nat) : (retireRow x st).cls = x.cls := by
  unfold retireRow; split <;> rfl

end Sys2Proof.Machine
end

