-- ==== Sys2Proof/Laws/Issue.lean ====
section
/-! SUPPORT. What the issue of a row instruction does, once its checks are met, and the operand checks of ready operands. -/
namespace Sys2Proof.Machine

variable {s : State} {r : RowId} {x : Row} {w : Band}

/-! ### Rows of a state -/

theorem findRow_replaceRow_self {l : List (RowId × Row)} {r : RowId} {x y : Row} (h : findRow l r = some x) :
    findRow (replaceRow l r y) r = some y := by
  induction l with
  | nil => simp [findRow] at h
  | cons p l ih =>
    obtain ⟨k, z⟩ := p
    by_cases hk : k = r
    · simp [replaceRow, findRow, hk]
    · simp [replaceRow, findRow, hk] at h ⊢; exact ih h

theorem findRow_replaceRow_other {l : List (RowId × Row)} {r q : RowId} {y : Row} (h : q ≠ r) :
    findRow (replaceRow l r y) q = findRow l q := by
  induction l with
  | nil => rfl
  | cons p l ih =>
    obtain ⟨k, z⟩ := p
    by_cases hk : k = r
    · subst hk; simp [replaceRow, findRow, Ne.symm h]
    · by_cases hq : k = q
      · subst hq; simp [replaceRow, findRow, hk]
      · simp [replaceRow, findRow, hk, hq, ih]

theorem findRow_replaceRow_none {l : List (RowId × Row)} {r : RowId} {y : Row} (h : findRow l r = none) :
    replaceRow l r y = l := by
  induction l with
  | nil => rfl
  | cons p l ih =>
    obtain ⟨k, z⟩ := p
    by_cases hk : k = r
    · simp [findRow, hk] at h
    · simp [replaceRow, findRow, hk] at h ⊢; exact ih h

theorem row?_setRow_self (h : s.row? r = some x) (y : Row) : (s.setRow r y).row? r = some y :=
  findRow_replaceRow_self h

theorem row?_setRow_other {q : RowId} (h : q ≠ r) (y : Row) : (s.setRow r y).row? q = s.row? q :=
  findRow_replaceRow_other h

@[simp] theorem row?_bump : s.bump.row? r = s.row? r := rfl
@[simp] theorem band?_setRow (b : Nat) (y : Row) : (s.setRow r y).band? b = s.band? b := rfl
@[simp] theorem band?_bump (b : Nat) : s.bump.band? b = s.band? b := rfl

theorem modRow_eq (h : s.row? r = some x) (f : Row → Row) : s.modRow r f = s.setRow r (f x) := by
  simp [State.modRow, h]

theorem replaceRow_replaceRow {l : List (RowId × Row)} {r : RowId} {y z : Row} :
    replaceRow (replaceRow l r y) r z = replaceRow l r z := by
  induction l with
  | nil => rfl
  | cons p l ih =>
    obtain ⟨k, v⟩ := p
    by_cases hk : k = r
    · simp [replaceRow, hk]
    · simp [replaceRow, hk, ih]

@[simp] theorem setRow_setRow (y z : Row) : (s.setRow r y).setRow r z = s.setRow r z := by
  simp [State.setRow, replaceRow_replaceRow]

theorem modRow_setRow (h : s.row? r = some x) (y : Row) (f : Row → Row) :
    (s.setRow r y).modRow r f = s.setRow r (f y) := by
  rw [modRow_eq (row?_setRow_self h y)]; simp

theorem replaceRow_same {l : List (RowId × Row)} (h : findRow l r = some x) : replaceRow l r x = l := by
  induction l with
  | nil => rfl
  | cons p l ih =>
    obtain ⟨k, z⟩ := p
    by_cases hk : k = r
    · simp [findRow, hk] at h; simp [replaceRow, hk, h]
    · simp [findRow, hk] at h; simp [replaceRow, hk, ih h]

theorem setRow_same (h : s.row? r = some x) : s.setRow r x = s := by
  simp only [State.setRow, replaceRow_same h]

@[simp] theorem mget_mset_self (k : MReg) (v : Mask) : (x.mset k v).mget k = v := by simp [Row.mget, Row.mset]

/-! ### Issue -/

theorem prologue_ready {acc : Accept} {pw : Bool} {fd fa fb : FieldUse} {d a b : Reg}
    (h : Prepared s r x w acc pw fd fa fb d a b) : prologue s r x w acc pw fd fa fb = .ok (ctxOf s r x w d a b) := by
  obtain ⟨_, h5, h6, h7, h8, h9, hd, ha, hb⟩ := h
  have hw : (modBit x.hints 18 && !pw) = false := by
    cases hp : modBit x.hints 18 <;> simp_all
  simp [prologue, h6, h7, h8, h9, hd, ha, hb, hw, ctxOf]

theorem structured_ready {acc : Accept} {pw : Bool} {fd fa fb : FieldUse} {d a b : Reg}
    (h : Prepared s r x w acc pw fd fa fb d a b) (body : Ctx → Except Stop Act) :
    issueWith true pw s acc fd fa fb body = applyAct r s x (Act.ofExcept (body (ctxOf s r x w d a b))) := by
  simp [issueWith, h.active, h.row, h.band, prologue_ready h]

theorem issueWith_ready {acc : Accept} {pw : Bool} {fd fa fb : FieldUse} {d a b : Reg}
    (h : Issues s r x w acc pw fd fa fb d a b) (body : Ctx → Except Stop Act) :
    issueWith false pw s acc fd fa fb body = applyAct r s x (Act.ofExcept (body (ctxOf s r x w d a b))) := by
  simp [issueWith, h.active, h.row, h.band, h.lanes, prologue_ready h.toPrepared]

theorem issue_ready {acc : Accept} {fd fa fb : FieldUse} {d a b : Reg}
    (h : Issues s r x w acc false fd fa fb d a b) (body : Ctx → Except Stop Act) :
    issue s acc fd fa fb body = applyAct r s x (Act.ofExcept (body (ctxOf s r x w d a b))) :=
  issueWith_ready h body

theorem issue_skipped {acc : Accept} {pw : Bool} {fd fa fb : FieldUse} (h : Executes s r x w)
    (hl : x.skips w.laneW = true) (body : Ctx → Except Stop Act) :
    issueWith false pw s acc fd fa fb body = .next (completed s r) := by
  simp [issueWith, h.active, h.row, h.band, hl, applyAct, completed]

@[simp] theorem applyAct_done (t : State) : applyAct r s x (.done t) = .next (completed t r) := rfl
@[simp] theorem applyAct_jump (t : State) (pc : Dword) : applyAct r s x (.jump t pc) = .next (jumped t r pc) := rfl
@[simp] theorem applyAct_raw (t : State) : applyAct r s x (.raw t) = .next t := rfl
@[simp] theorem applyAct_trap (c d : Byte) (k : BitVec 14) (t : Dword) :
    applyAct r s x (.stop (.trap c d k t)) = .next (trapped s r x c d k t) := rfl
@[simp] theorem applyAct_wait (n : Nat) (d : Dom) :
    applyAct r s x (.stop (.wait n d)) = .next (s.setRow r (waitAt s r x n d)) := rfl
@[simp] theorem ofExcept_ok (a : Act) : Act.ofExcept (.ok a) = a := rfl
@[simp] theorem ofExcept_error (t : Stop) : Act.ofExcept (.error t) = .stop t := rfl

@[simp] theorem exceptOkBind {α β : Type} (a : α) (f : α → Except Stop β) : ((Except.ok a : Except Stop α) >>= f) = f a := rfl
@[simp] theorem exceptErrorBind {α β : Type} (e : Stop) (f : α → Except Stop β) :
    ((Except.error e : Except Stop α) >>= f) = .error e := rfl
@[simp] theorem exceptPure {α : Type} (a : α) : (pure a : Except Stop α) = .ok a := rfl

/-! ### What an instruction sees -/

variable {d a b : Reg}

@[simp] theorem ctxOf_s : (ctxOf s r x w d a b).s = s := by simp [ctxOf]
@[simp] theorem ctxOf_r : (ctxOf s r x w d a b).r = r := by simp [ctxOf]
@[simp] theorem ctxOf_x : (ctxOf s r x w d a b).x = x := by simp [ctxOf]
@[simp] theorem ctxOf_band : (ctxOf s r x w d a b).band = w := by simp [ctxOf]
@[simp] theorem ctxOf_d : (ctxOf s r x w d a b).d = d := by simp [ctxOf]
@[simp] theorem ctxOf_a : (ctxOf s r x w d a b).a = a := by simp [ctxOf]
@[simp] theorem ctxOf_b : (ctxOf s r x w d a b).b = b := by simp [ctxOf]
@[simp] theorem ctxOf_mode : (ctxOf s r x w d a b).mode = modeOf x.hints x.fp.rmode := by simp [ctxOf]
@[simp] theorem ctxOf_sat : (ctxOf s r x w d a b).sat = modBit x.hints 20 := by simp [ctxOf]
@[simp] theorem ctxOf_td : (ctxOf s r x w d a b).td = modBit x.hints 19 := by simp [ctxOf]
@[simp] theorem ctxOf_pw : (ctxOf s r x w d a b).pw = modBit x.hints 18 := by simp [ctxOf]
@[simp] theorem ctxOf_lw : (ctxOf s r x w d a b).lw = w.laneW := by simp [ctxOf, Ctx.lw]
@[simp] theorem ctxOf_act (m : MReg) : (ctxOf s r x w d a b).act m = x.active w.laneW m := by simp [ctxOf, Ctx.act]
@[simp] theorem ctxOf_env : (ctxOf s r x w d a b).env = ⟨modeOf x.hints x.fp.rmode, modBit x.hints 20, x.fp.ftz⟩ := by simp [ctxOf, Ctx.env]

/-! ### Operands -/

variable {c : Ctx}

theorem needS_ready {r : Reg} (h : c.x.scalarReady r) (tb : Bool) (k : Byte) : c.needS r tb k = .ok () := by
  obtain ⟨h1, h2⟩ := h
  have hb : c.x.badS r = false := by
    rcases h2 with rfl | h2 <;> simp [Row.badS, *]
  simp [Ctx.needS, h1, hb]

theorem needSDst_full {r : Reg} (h : c.x.sFull r = true) : c.needSDst r = .ok () := by simp [Ctx.needSDst, h]

theorem badV_ready {r : Reg} (h : x.vectorReady r) : x.badV r = false := by
  by_cases hr : r.toNat < 28
  · simp [Row.badV, hr, h.2 hr]
  · simp [Row.badV, hr]

theorem needV_ready {r : Reg} (h : c.x.vectorReady r) (tb : Bool) (k : Byte) : c.needV r tb k = .ok () := by
  simp [Ctx.needV, h.1, badV_ready h]

@[simp] theorem parityFirst_ok {α : Type} (ss vs : List Reg) (v : α) : c.parityFirst ss vs (.ok v) = .ok v := rfl

theorem needVDst_full {r : Reg} (h : c.x.vFull r = true) : c.needVDst r = .ok () := by simp [Ctx.needVDst, h]

theorem needNorth_ready {e : Entry} (h : NorthReady c.x e) (tb : Bool) : c.needNorth tb = .ok e := by
  obtain ⟨h1, h2, h3, h4⟩ := h
  unfold Ctx.needNorth
  cases hf : c.x.north.fifo <;> simp_all

theorem needSouth_ready (h : SouthReady c.s c.x) : c.needSouth = .ok () := by
  obtain ⟨h1, h2, h3⟩ := h
  unfold Ctx.needSouth
  rcases h3 with h3 | h3 <;> cases ho : c.x.south.orphan <;> simp_all

theorem needDest_ready {d : Reg} (h : destReady c.s c.x d) : c.needDest d = .ok () := by
  unfold destReady at h
  unfold Ctx.needDest
  split <;> simp_all [needSouth_ready, needVDst_full]

theorem forM_ok {α : Type} (l : List α) (f : α → Except Stop Unit) (h : ∀ v ∈ l, f v = .ok ()) : l.forM f = .ok () := by
  induction l with
  | nil => rfl
  | cons v l ih =>
    show (f v >>= fun _ => l.forM f) = _
    rw [h v (by simp), exceptOkBind]
    exact ih (fun u hu => h u (by simp [hu]))

theorem needSources_ready {l : List VSrc} {e : Option Entry} (h : SourcesReady c.x (l.map VSrc.reg) e) :
    c.needSources l = .ok e := by
  obtain ⟨h1, h2⟩ := h
  unfold Ctx.needSources
  have hf : l.forM (fun v => c.needV v.reg v.tb v.operand) = .ok () :=
    forM_ok _ _ (fun v hv => needV_ready (h1 _ (List.mem_map_of_mem hv)) _ _)
  have ha : (l.any fun v => v.reg == 28) = decide (28 ∈ l.map VSrc.reg) := by
    rw [Bool.eq_iff_iff]; simp
  rw [hf, parityFirst_ok, exceptOkBind, ha]
  by_cases hm : 28 ∈ l.map VSrc.reg
  · rw [if_pos hm] at h2
    obtain ⟨y, rfl, hn⟩ := h2
    rw [if_pos (decide_eq_true hm), needNorth_ready hn, exceptOkBind]
  · rw [if_neg hm] at h2
    rw [if_neg (by simpa using hm), h2]

theorem deliver_undisturbed (h : Undisturbed c.x) (k : Except Stop Act) : c.deliver k = k := by
  simp [Ctx.deliver, h.flags, h.pend]

theorem streamDue_quiet (h : StreamQuiet c.x) (k : Except Stop Act) : c.streamDue k = k := by
  simp [Ctx.streamDue, h.parity, h.closed]

@[simp] theorem raise_zero : x.raise 0 = x := by simp [Row.raise]

end Sys2Proof.Machine
end

