-- ==== Sys2Proof/Laws/Memory.lean ====
section
/-! SUPPORT. The laws of memory: reading after writing, what a write leaves alone, and that every operation keeps the
canonical form. -/
namespace Sys2Proof.Machine

/-! ### One byte -/

theorem memWfFrom_some_lt {l k : Nat} {m : Memory} (h : memWfFrom (some l) m = true) (hk : k ≤ l) :
    memWfFrom (some k) m = true := by
  cases m with
  | nil => rfl
  | cons c m =>
    obtain ⟨a, b⟩ := c
    simp only [memWfFrom, Bool.and_eq_true, decide_eq_true_eq] at h ⊢
    exact ⟨⟨by omega, h.1.2⟩, h.2⟩

theorem memWfFrom_none {l : Nat} {m : Memory} (h : memWfFrom (some l) m = true) : memWfFrom none m = true := by
  cases m with
  | nil => rfl
  | cons c m =>
    obtain ⟨a, b⟩ := c
    simp only [memWfFrom, Bool.and_eq_true, decide_eq_true_eq] at h ⊢
    exact ⟨h.1.2, h.2⟩

theorem memGet_of_lt {l k : Nat} {m : Memory} (h : memWfFrom (some l) m = true) (hk : k ≤ l) : memGet m k = memDefault := by
  cases m with
  | nil => rfl
  | cons c m =>
    obtain ⟨a, b⟩ := c
    simp only [memWfFrom, Bool.and_eq_true, decide_eq_true_eq] at h
    simp [memGet, show k ≠ a by omega, show k < a by omega]

/-- Reading any byte after one is written. -/
theorem memGet_memSet (m : Memory) (k j : Nat) (v : Byte) (h : m.wf = true) :
    memGet (memSet m k v) j = if j = k then v else memGet m j := by
  have aux : ∀ (o : Option Nat) (m : Memory), memWfFrom o m = true →
      memGet (memSet m k v) j = if j = k then v else memGet m j := by
    intro o m
    induction m generalizing o with
    | nil =>
      intro _
      by_cases hv : v = memDefault
      · simp [memSet, hv, memGet]
      · simp only [memSet, hv, if_false, memGet]
        split <;> simp_all
    | cons c m ih =>
      intro h
      obtain ⟨a, b⟩ := c
      have hm : memWfFrom (some a) m = true := by
        cases o <;> simp only [memWfFrom, Bool.and_eq_true] at h <;> exact h.2
      have ih := ih _ hm
      by_cases h1 : k < a
      · by_cases hv : v = memDefault
        · simp only [memSet, h1, hv, if_true]
          by_cases hj : j = k
          · subst hj; simp [memGet, show j ≠ a by omega, h1]
          · simp [hj]
        · simp only [memSet, h1, hv, if_true, if_false, memGet]
          by_cases hj : j = k
          · simp [hj]
          · simp only [hj, if_false]
            split
            · simp [show j ≠ a by omega, show j < a by omega]
            · rfl
      · by_cases h2 : k = a
        · subst h2
          by_cases hv : v = memDefault
          · simp only [memSet, Nat.lt_irrefl, hv, if_true, if_false]
            by_cases hj : j = k
            · simp [hj, memGet_of_lt hm (Nat.le_refl _)]
            · simp only [hj, if_false, memGet]
              by_cases hl : j < k
              · simp [hl, memGet_of_lt hm (Nat.le_of_lt hl)]
              · simp [hl]
          · simp only [memSet, Nat.lt_irrefl, hv, if_true, if_false, memGet]
            by_cases hj : j = k <;> simp [hj]
        · simp only [memSet, h1, h2, if_false, memGet]
          by_cases hj : j = a
          · simp [hj, show a ≠ k by omega]
          · simp only [hj, if_false]
            by_cases hl : j < a
            · simp [hl, show j ≠ k by omega]
            · simp [hl, ih]
  exact aux none m h

theorem memSet_wfFrom (k : Nat) (v : Byte) : ∀ (o : Option Nat) (m : Memory), memWfFrom o m = true →
    (∀ l, o = some l → l < k) → memWfFrom o (memSet m k v) = true := by
  intro o m
  induction m generalizing o with
  | nil =>
    intro _ hl
    by_cases hv : v = memDefault
    · simp [memSet, hv, memWfFrom]
    · cases o with
      | none => simp [memSet, hv, memWfFrom]
      | some l => simp [memSet, hv, memWfFrom, hl l rfl]
  | cons c m ih =>
    intro h hl
    obtain ⟨a, b⟩ := c
    have hm : memWfFrom (some a) m = true := by
      cases o <;> simp only [memWfFrom, Bool.and_eq_true] at h <;> exact h.2
    have hb : b ≠ memDefault := by
      cases o <;> simp only [memWfFrom, Bool.and_eq_true, bne_iff_ne] at h
      · exact h.1
      · exact h.1.2
    by_cases h1 : k < a
    · by_cases hv : v = memDefault
      · simpa [memSet, h1, hv] using h
      · cases o with
        | none => simp [memSet, h1, hv, memWfFrom, hm, hb]
        | some l => simp [memSet, h1, hv, memWfFrom, hm, hb, hl l rfl]
    · by_cases h2 : k = a
      · subst h2
        by_cases hv : v = memDefault
        · simp only [memSet, Nat.lt_irrefl, hv, if_true, if_false]
          cases o with
          | none => exact memWfFrom_none hm
          | some l => exact memWfFrom_some_lt hm (Nat.le_of_lt (hl l rfl))
        · cases o with
          | none => simp [memSet, hv, memWfFrom, hm]
          | some l => simp [memSet, hv, memWfFrom, hm, hl l rfl]
      · have := ih (some a) hm (fun l hl => by cases hl; omega)
        cases o with
        | none => simp [memSet, h1, h2, memWfFrom, this, hb]
        | some l =>
          simp only [memWfFrom, Bool.and_eq_true, decide_eq_true_eq] at h
          simp [memSet, h1, h2, memWfFrom, this, hb, h.1.1]

/-- Writing a byte keeps the canonical form. -/
theorem memSet_wf (m : Memory) (k : Nat) (v : Byte) (h : m.wf = true) : (memSet m k v).wf = true :=
  memSet_wfFrom k v none m h (fun _ hl => nomatch hl)

/-! ### Several bytes -/

/-- Writing bytes keeps the canonical form. -/
theorem memWrite_wf (m : Memory) (k : Nat) (bs : List Byte) (h : m.wf = true) : (memWrite m k bs).wf = true := by
  induction bs generalizing m k with
  | nil => exact h
  | cons b bs ih => exact ih _ _ (memSet_wf m k b h)

/-- Reading any byte after bytes are written. -/
theorem memGet_memWrite (m : Memory) (k j : Nat) (bs : List Byte) (h : m.wf = true) :
    memGet (memWrite m k bs) j = if k ≤ j ∧ j < k + bs.length then bs.getD (j - k) 0 else memGet m j := by
  induction bs generalizing m k with
  | nil => simp [memWrite, show ¬ (k ≤ j ∧ j < k) by omega]
  | cons b bs ih =>
    simp only [memWrite]
    rw [ih _ _ (memSet_wf m k b h), memGet_memSet m k j b h]
    simp only [List.length_cons]
    by_cases hj : j = k
    · subst hj; simp
    · by_cases hr : k + 1 ≤ j ∧ j < k + 1 + bs.length
      · rw [if_pos hr, if_pos (by omega)]
        rw [show j - k = j - (k + 1) + 1 by omega]; simp
      · rw [if_neg hr, if_neg hj, if_neg (by omega)]

theorem memRead_length (m : Memory) (k n : Nat) : (memRead m k n).length = n := by
  induction n generalizing k with
  | zero => rfl
  | succ n ih => simp [memRead, ih]

theorem memRead_getD (m : Memory) (k n i : Nat) (h : i < n) : (memRead m k n).getD i 0 = memGet m (k + i) := by
  induction n generalizing k i with
  | zero => omega
  | succ n ih =>
    cases i with
    | zero => simp [memRead]
    | succ i => simp only [memRead, List.getD_cons_succ]; rw [ih _ _ (by omega)]; congr 1; omega

/-- Two memories that agree on the bytes read give the same bytes. -/
theorem memRead_congr (m m' : Memory) (k n : Nat) (h : ∀ j, k ≤ j → j < k + n → memGet m j = memGet m' j) :
    memRead m k n = memRead m' k n := by
  induction n generalizing k with
  | zero => rfl
  | succ n ih =>
    simp only [memRead]
    rw [h k (Nat.le_refl _) (by omega), ih (k + 1) (fun j h1 h2 => h j (by omega) (by omega))]

/-- Bytes written and read back. -/
theorem memRead_memWrite (m : Memory) (k : Nat) (bs : List Byte) (h : m.wf = true) :
    memRead (memWrite m k bs) k bs.length = bs := by
  apply List.ext_getElem
  · simp [memRead_length]
  · intro i h1 h2
    rw [← List.getD_eq_getElem _ 0 h1, memRead_getD _ _ _ _ h2, memGet_memWrite _ _ _ _ h,
      if_pos ⟨by omega, by omega⟩, show k + i - k = i by omega, List.getD_eq_getElem _ 0 h2]

/-- A write elsewhere leaves what is read as it was. -/
theorem memRead_memWrite_apart (m : Memory) (k j n : Nat) (bs : List Byte) (h : m.wf = true)
    (ha : j + n ≤ k ∨ k + bs.length ≤ j) : memRead (memWrite m k bs) j n = memRead m j n :=
  memRead_congr _ _ _ _ (fun i h1 h2 => by
    rw [memGet_memWrite _ _ _ _ h, if_neg (by omega)])

/-! ### Words -/

theorem leBytes_length (n v : Nat) : (leBytes n v).length = n := by
  induction n generalizing v with
  | zero => rfl
  | succ n ih => simp [leBytes, ih]

theorem leNat_leBytes (n v : Nat) : leNat (leBytes n v) = v % 256 ^ n := by
  induction n generalizing v with
  | zero => simp [leBytes, leNat, Nat.mod_one]
  | succ n ih =>
    rw [leBytes, leNat, ih, BitVec.toNat_ofNat, show (256 : Nat) ^ (n + 1) = 256 * 256 ^ n from Nat.pow_succ', Nat.mod_mul]

/-- A word stored and read back. -/
theorem memWord_store (m : Memory) (k : Nat) (v : BitVec 32) (h : m.wf = true) :
    memWord (memWrite m k (leBytes 4 v.toNat)) k = v := by
  unfold memWord
  have := memRead_memWrite m k (leBytes 4 v.toNat) h
  rw [leBytes_length] at this
  rw [this, leNat_leBytes]
  apply BitVec.eq_of_toNat_eq
  simp
  omega

/-- A doubleword stored and read back. -/
theorem memDword_store (m : Memory) (k : Nat) (v : BitVec 64) (h : m.wf = true) :
    memDword (memWrite m k (leBytes 8 v.toNat)) k = v := by
  unfold memDword
  have := memRead_memWrite m k (leBytes 8 v.toNat) h
  rw [leBytes_length] at this
  rw [this, leNat_leBytes]
  apply BitVec.eq_of_toNat_eq
  simp
  omega

/-- A word stored elsewhere leaves a word as it was. -/
theorem memWord_store_apart (m : Memory) (k j : Nat) (v : BitVec 32) (h : m.wf = true) (ha : j + 4 ≤ k ∨ k + 4 ≤ j) :
    memWord (memWrite m k (leBytes 4 v.toNat)) j = memWord m j := by
  unfold memWord
  rw [memRead_memWrite_apart _ _ _ _ _ h (by rw [leBytes_length]; exact ha)]

end Sys2Proof.Machine
end

