-- ==== Sys2Proof/Laws/Access.lean ====
section
/-! SUPPORT. What the accesses of rows do: the checks of an access that is clear, posted writes performed, the words that
loads read and that stores leave. -/
namespace Sys2Proof.Machine

variable {s : State} {r : RowId} {x : Row} {w : Band}

/-! ### Lanes of a mask -/

theorem mem_maskLanes {mk : Mask} {i : Nat} : i ∈ maskLanes mk ↔ mk.getLsbD i = true := by
  simp only [maskLanes, List.mem_filter, List.mem_range]
  refine ⟨fun h => h.2, fun h => ⟨?_, h⟩⟩
  have := BitVec.lt_of_getLsbD h
  exact this

theorem maskLanes_pairwise (mk : Mask) : (maskLanes mk).Pairwise (fun i j => i < j) :=
  List.Pairwise.filter _ List.pairwise_lt_range

/-! ### Checks -/

theorem checkWindow_ok {wsize align size : Nat} {l : List (Nat × Int)} (h1 : ∀ p ∈ l, p.2 % (align : Int) = 0)
    (h2 : ∀ p ∈ l, 0 ≤ p.2 ∧ p.2 + size ≤ (wsize : Int)) : checkWindow wsize align size l = .ok () := by
  unfold checkWindow
  have e1 : l.find? (fun p => decide (p.2 % (align : Int) ≠ 0)) = none :=
    List.find?_eq_none.2 (fun p hp => by simp [h1 p hp])
  have e2 : l.find? (fun p => decide (p.2 < 0) || decide ((wsize : Int) < p.2 + size)) = none :=
    List.find?_eq_none.2 (fun p hp => by have := h2 p hp; simp; omega)
  rw [e1]
  simp only []
  rw [e2]

theorem watchHit_ok {g : CoreId} {asid : BitVec 6} {kind : AccessKind} {l : List (Nat × Nat × Dword)}
    (h : ∀ p ∈ l, ∀ k : Fin 4, watchMatches (s.core g).dbg k asid kind p.1 p.2.1 = false) :
    watchHit s g asid kind l = .ok () := by
  have e (k : Fin 4) : l.find? (fun p => watchMatches (s.core g).dbg k asid kind p.1 p.2.1) = none :=
    List.find?_eq_none.2 (fun p hp => by simp [h p hp k])
  unfold watchHit
  simp only [e, Option.map_none, List.findSome?_cons, List.findSome?_nil]

theorem sbWait_ok {g : CoreId} {lo hi : Nat} {wr : Bool} (h : sbBlocker s g lo hi wr = none) : sbWait s g lo hi wr = .ok () := by
  simp [sbWait, h]

theorem needPosted_ready {c : Ctx} (h : postedHold c.s c.x = none) : c.needPosted = .ok () := by simp [Ctx.needPosted, h]

theorem localGuard_clear {kind : AccessKind} {n : Nat} {f : Nat → Int} {mk : Mask} {d a b : Reg}
    (h : LocalClear s x w kind n f mk) :
    (ctxOf s r x w d a b).localGuard kind n n (laneAddrs mk f) = .ok () := by
  have hm : ∀ p ∈ laneAddrs mk f, mk.getLsbD p.1 = true ∧ p.2 = f p.1 := by
    intro p hp
    obtain ⟨i, hi, rfl⟩ := List.mem_map.1 hp
    exact ⟨mem_maskLanes.1 hi, rfl⟩
  have h1 : checkWindow w.wsize n n (laneAddrs mk f) = .ok () :=
    checkWindow_ok (fun p hp => by rw [(hm p hp).2]; exact h.aligned _ (hm p hp).1)
      (fun p hp => by rw [(hm p hp).2]; exact h.inside _ (hm p hp).1)
  have h2 : (ctxOf s r x w d a b).guard kind n (laneAddrs mk f) = .ok () := by
    have hw : watchHit s w.core (s.bandAsid w) kind ((laneAddrs mk f).map (fun p =>
        ((ctxOf s r x w d a b).coreOff p.2, (ctxOf s r x w d a b).coreOff p.2 + n, targOf p.2))) = .ok () :=
      watchHit_ok (fun p hp k => by
        obtain ⟨q, hq, rfl⟩ := List.mem_map.1 hp
        obtain ⟨e1, e2⟩ := hm q hq
        simpa [Ctx.coreOff, e2] using h.unwatched q.1 k e1)
    have hb : (laneAddrs mk f).forM (fun p => sbWait s w.core ((ctxOf s r x w d a b).coreOff p.2)
        ((ctxOf s r x w d a b).coreOff p.2 + n) (kind != .read)) = .ok () :=
      forM_ok _ _ (fun p hp => sbWait_ok (by
        obtain ⟨e1, e2⟩ := hm p hp
        simpa [Ctx.coreOff, e2] using h.unclaimed p.1 e1))
    simp only [Ctx.guard, ctxOf_s, ctxOf_band, hw, exceptOkBind, hb]
    split
    · rfl
    · rename_i hl
      refine needPosted_ready (h.posted (fun hz => hl ?_))
      subst hz
      simp [laneAddrs, maskLanes]
  unfold Ctx.localGuard
  rw [show (ctxOf s r x w d a b).band.wsize = w.wsize by simp, h1, exceptOkBind, h2, exceptOkBind]
  by_cases hk : kind = .read
  · subst hk; rfl
  · have : (laneAddrs mk f).any (fun p => (ctxOf s r x w d a b).sideStreamHold p.2 (p.2 + n)) = false := by
      rw [List.any_eq_false]
      intro p hp
      obtain ⟨e1, e2⟩ := hm p hp
      have := h.unstreamed p.1 e1 rfl hk
      rw [e2]
      simpa [Ctx.sideStreamHold] using this
    rw [this]
    simp

/-! ### Posted writes performed -/

theorem performLane_frame (s : State) (g : CoreId) (l : RemoteLane) :
    (performLane s g l).1 = { s with mem := (performLane s g l).1.mem } := by
  unfold performLane
  simp only []
  split
  · rfl
  · split <;> rfl

theorem performLanes_frame (s : State) (g : CoreId) (l : List RemoteLane) :
    (performLanes s g l).1 = { s with mem := (performLanes s g l).1.mem } := by
  induction l generalizing s with
  | nil => rfl
  | cons a l ih =>
    simp only [performLanes]
    rw [ih (performLane s g a).1, performLane_frame s g a]

theorem performPosted_frame (s : State) (l : List Posted) :
    (performPosted s l).1 = { s with mem := (performPosted s l).1.mem } := by
  induction l generalizing s with
  | nil => rfl
  | cons a l ih =>
    simp only [performPosted]
    rw [ih (performLanes s a.core a.lanes).1, performLanes_frame s a.core a.lanes]

theorem performLane_wf (s : State) (g : CoreId) (l : RemoteLane) (h : s.mem.wf = true) : (performLane s g l).1.mem.wf = true := by
  unfold performLane
  simp only []
  split
  · exact h
  · split <;> exact memWrite_wf _ _ _ h

theorem performLanes_wf (s : State) (g : CoreId) (l : List RemoteLane) (h : s.mem.wf = true) :
    (performLanes s g l).1.mem.wf = true := by
  induction l generalizing s with
  | nil => exact h
  | cons a l ih => exact ih _ (performLane_wf s g a h)

theorem performPosted_wf (s : State) (l : List Posted) (h : s.mem.wf = true) : (performPosted s l).1.mem.wf = true := by
  induction l generalizing s with
  | nil => exact h
  | cons a l ih => exact ih _ (performLanes_wf s a.core a.lanes h)

theorem stepAtom_frame (s : State) (p : Producer) (t : AtomStep) :
    (stepAtom s p t).1 = { s with mem := (stepAtom s p t).1.mem } := by
  simp only [stepAtom]
  split
  · rfl
  · exact performLane_frame s t.core t.what

theorem stepAtom_wf (s : State) (p : Producer) (t : AtomStep) (h : s.mem.wf = true) : (stepAtom s p t).1.mem.wf = true := by
  simp only [stepAtom]
  split
  · exact h
  · exact performLane_wf s t.core t.what h

theorem stepAtoms_frame (s : State) (p : Producer) (l : List AtomStep) :
    (stepAtoms s p l).1 = { s with mem := (stepAtoms s p l).1.mem } := by
  induction l generalizing s p with
  | nil => rfl
  | cons t l ih =>
    simp only [stepAtoms]
    rw [ih (stepAtom s p t).1, stepAtom_frame s p t]

theorem stepAtoms_wf (s : State) (p : Producer) (l : List AtomStep) (h : s.mem.wf = true) :
    (stepAtoms s p l).1.mem.wf = true := by
  induction l generalizing s p with
  | nil => exact h
  | cons t l ih => exact ih _ _ (stepAtom_wf s p t h)

theorem finishAtoms_frame (s : State) (l : List Producer) :
    (finishAtoms s l).1 = { s with mem := (finishAtoms s l).1.mem } := by
  induction l generalizing s with
  | nil => rfl
  | cons p l ih =>
    simp only [finishAtoms]
    rw [ih (stepAtoms s p p.todo).1, stepAtoms_frame s p p.todo]

theorem finishAtoms_wf (s : State) (l : List Producer) (h : s.mem.wf = true) : (finishAtoms s l).1.mem.wf = true := by
  induction l generalizing s with
  | nil => exact h
  | cons p l ih => exact ih _ (stepAtoms_wf s p p.todo h)

theorem performOwed_frame (s : State) (x : Row) : (performOwed s x).1 = { s with mem := (performOwed s x).1.mem } := by
  simp only [performOwed]
  rw [finishAtoms_frame (performPosted s x.posted).1, performPosted_frame s x.posted]

theorem performOwed_wf (s : State) (x : Row) (h : s.mem.wf = true) : (performOwed s x).1.mem.wf = true :=
  finishAtoms_wf _ _ (performPosted_wf s _ h)

/-- A row that owes nothing is left as it is. -/
theorem performOwed_none (s : State) (h1 : x.posted = []) (h2 : x.prods = []) : performOwed s x = (s, x) := by
  cases x
  simp only at h1 h2
  subst h1 h2
  rfl

/-- Performing what a row owes changes memory and that row, nothing else. -/
theorem flushPosted_eq (h : s.row? r = some x) :
    flushPosted s r = { s with
      mem := (flushPosted s r).mem
      rows := replaceRow s.rows r (performOwed s x).2 } := by
  have e := performOwed_frame s x
  unfold flushPosted
  simp only [h]
  generalize performOwed s x = p at e ⊢
  simp only [State.setRow]
  rw [e]

theorem flushPosted_wf (h : s.mem.wf = true) : (flushPosted s r).mem.wf = true := by
  unfold flushPosted
  split
  · exact h
  · exact performOwed_wf s _ h

/-- The row whose posted writes have been performed. -/
theorem flushPosted_row (h : s.row? r = some x) : (flushPosted s r).row? r = some (performOwed s x).2 := by
  rw [flushPosted_eq h]
  exact findRow_replaceRow_self h

theorem flushPosted_row_other {q : RowId} (h : q ≠ r) : (flushPosted s r).row? q = s.row? q := by
  cases hr : s.row? r with
  | none => simp [flushPosted, hr]
  | some x =>
    rw [flushPosted_eq hr]
    exact findRow_replaceRow_other h

theorem release_ready {c : Ctx} {y : Row} (hw : postedHold c.s c.x = none) (h : (flushPosted c.s c.r).row? c.r = some y)
    (hp : y.ctl.parityDue = none) : c.release = .ok { c with s := flushPosted c.s c.r, x := y } := by
  simp [Ctx.release, Ctx.performed, needPosted_ready hw, h, hp]

/-! ### Words read by a load -/

theorem loadFold_getElem (g : Nat → Word) (l : List Nat) (v : Lanes) (j : Fin 64) (hl : ∀ i ∈ l, i < 64) :
    (l.foldl (fun (v : Lanes) i => if h : i < 64 then v.set i (g i) h else v) v)[j] = if j.val ∈ l then g j else v[j] := by
  induction l generalizing v with
  | nil => simp
  | cons a l ih =>
    simp only [List.foldl_cons]
    rw [ih _ (fun i hi => hl i (List.mem_cons_of_mem _ hi))]
    have ha := hl a (List.mem_cons_self ..)
    simp only [ha, dite_true, List.mem_cons]
    by_cases h1 : j.val ∈ l
    · simp [h1]
    · by_cases h2 : j.val = a
      · subst h2; simp [h1]
      · simp [h1, h2, Vector.getElem_set_ne, Ne.symm h2]

theorem loadLanes_getElem {t : State} {d a b : Reg} {f : Nat → Int} {mk : Mask} (j : Fin 64) (hj : mk.getLsbD j = true)
    (hg : t.badWord (winKey w (f j)) = false) :
    (loadLanes t w.core ((ctxOf s r x w d a b).places (laneAddrs mk f)))[j] = memWord t.mem (winKey w (f j)) := by
  have := loadFold_getElem (fun i => if t.badWord (winKey w (f i)) then 0 else memWord t.mem (winKey w (f i))) (maskLanes mk)
    zeroLanes j (fun i hi => BitVec.lt_of_getLsbD (mem_maskLanes.1 hi))
  rw [if_pos (mem_maskLanes.2 hj), hg] at this
  simp only [loadLanes, Ctx.places, laneAddrs, List.map_map, List.foldl_map, Function.comp, Ctx.coreOff, ctxOf_band]
  exact this

theorem firstBad_none {t : State} {d a b : Reg} {f : Nat → Int} {mk : Mask} (h : WordsGood t (fun _ => w) f mk) :
    firstBad t w.core ((ctxOf s r x w d a b).places (laneAddrs mk f)) = none := by
  refine List.find?_eq_none.2 (fun p hp => ?_)
  simp only [Ctx.places, laneAddrs, List.map_map, List.mem_map, Function.comp] at hp
  obtain ⟨i, hi, rfl⟩ := hp
  have := h i (mem_maskLanes.1 hi)
  simpa [winKey, Ctx.coreOff] using this

/-! ### Words left by a store -/

/-- Words stored one after another, each at its own key. -/
def storeWords (m : Memory) (l : List (Nat × Word)) : Memory := l.foldl (fun m p => memWrite m p.1 (leBytes 4 p.2.toNat)) m

theorem storeWords_wf (m : Memory) (l : List (Nat × Word)) (h : m.wf = true) : (storeWords m l).wf = true := by
  induction l generalizing m with
  | nil => exact h
  | cons p l ih => exact ih _ (memWrite_wf _ _ _ h)

theorem storeWords_frame (m : Memory) (l : List (Nat × Word)) (k : Nat) (h : m.wf = true)
    (hk : ∀ p ∈ l, k < p.1 ∨ p.1 + 4 ≤ k) : memGet (storeWords m l) k = memGet m k := by
  induction l generalizing m with
  | nil => rfl
  | cons p l ih =>
    show memGet (storeWords (memWrite m p.1 (leBytes 4 p.2.toNat)) l) k = _
    rw [ih _ (memWrite_wf _ _ _ h) (fun q hq => hk q (List.mem_cons_of_mem _ hq)), memGet_memWrite _ _ _ _ h, leBytes_length,
      if_neg (by have := hk p (List.mem_cons_self ..); omega)]

theorem storeWords_apart (m : Memory) (l : List (Nat × Word)) (k : Nat) (h : m.wf = true)
    (hk : ∀ p ∈ l, k + 4 ≤ p.1 ∨ p.1 + 4 ≤ k) : memWord (storeWords m l) k = memWord m k := by
  unfold memWord
  rw [memRead_congr (storeWords m l) m k 4 (fun j h1 h2 => storeWords_frame m l j h (fun p hp => by have := hk p hp; omega))]

theorem storeWords_last (m : Memory) (l1 l2 : List (Nat × Word)) (p : Nat × Word) (h : m.wf = true)
    (hk : ∀ q ∈ l2, p.1 + 4 ≤ q.1 ∨ q.1 + 4 ≤ p.1) : memWord (storeWords m (l1 ++ p :: l2)) p.1 = p.2 := by
  have : storeWords m (l1 ++ p :: l2) = storeWords (memWrite (storeWords m l1) p.1 (leBytes 4 p.2.toNat)) l2 := by
    simp [storeWords]
  rw [this, storeWords_apart _ _ _ (memWrite_wf _ _ _ (storeWords_wf _ _ h)) hk, memWord_store _ _ _ (storeWords_wf _ _ h)]

theorem storeLanes_eq (t : State) (v : Lanes) {d a b : Reg} {f : Nat → Int} {mk : Mask} :
    storeLanes t w.core v ((ctxOf s r x w d a b).places (laneAddrs mk f)) =
      { t with mem := storeWords t.mem ((maskLanes mk).map (fun i => (winKey w (f i), laneAt v i))) } := by
  have hl : ∀ i ∈ maskLanes mk, i < 64 := fun i hi => BitVec.lt_of_getLsbD (mem_maskLanes.1 hi)
  simp only [storeLanes, Ctx.places, laneAddrs, List.map_map, List.foldl_map, Function.comp, Ctx.coreOff, ctxOf_band, storeWords]
  generalize maskLanes mk = l at hl
  induction l generalizing t with
  | nil => rfl
  | cons i l ih =>
    have hi := hl i (List.mem_cons_self ..)
    simp only [List.foldl_cons, hi, dite_true]
    rw [ih _ (fun j hj => hl j (List.mem_cons_of_mem _ hj))]
    simp [rowStore4, laneAt, winKey, hi]

/-- What a vector store of clear, aligned words leaves. -/
theorem storeLanes_stored (t : State) (v : Lanes) {d a b : Reg} {f : Nat → Int} {mk : Mask} (h : t.mem.wf = true)
    (h0 : ∀ i, mk.getLsbD i = true → f i % 4 = 0) (h1 : ∀ i, mk.getLsbD i = true → 0 ≤ f i) :
    Stored t (storeLanes t w.core v ((ctxOf s r x w d a b).places (laneAddrs mk f))) w f mk v := by
  rw [storeLanes_eq]
  refine ⟨rfl, fun i hi hl => ?_, fun k hk => ?_⟩
  · obtain ⟨l1, l2, e⟩ := List.append_of_mem (mem_maskLanes.2 hi)
    have hp := maskLanes_pairwise mk
    rw [e] at hp
    have hlt : ∀ j ∈ l2, i.val < j := by
      rw [List.pairwise_append, List.pairwise_cons] at hp
      exact hp.2.1.1
    have hin : ∀ j ∈ l2, mk.getLsbD j = true := fun j hj => mem_maskLanes.1 (by rw [e]; simp [hj])
    have := storeWords_last t.mem (l1.map (fun i => (winKey w (f i), laneAt v i))) (l2.map (fun i => (winKey w (f i), laneAt v i)))
      (winKey w (f i), laneAt v i) h (by
        intro q hq
        obtain ⟨j, hj, rfl⟩ := List.mem_map.1 hq
        have a1 := h0 i hi
        have a2 := h0 j (hin j hj)
        have a3 := h1 i hi
        have a4 := h1 j (hin j hj)
        have a5 := hl j (hin j hj) (hlt j hj)
        simp only [winKey, sideKey]
        omega)
    simp only [e, List.map_append, List.map_cons]
    rw [this]
    simp [laneAt]
  · apply storeWords_frame _ _ _ h
    intro p hp
    obtain ⟨i, hi, rfl⟩ := List.mem_map.1 hp
    exact hk i (mem_maskLanes.1 hi)

end Sys2Proof.Machine
end

