-- ==== Sys2Proof/Laws/Dispatch.lean ====
section
/-! SUPPORT. The meaning that exec gives each instruction, one lemma for each arm. -/
namespace Sys2Proof.Machine

@[simp] theorem exec_imx (p : BitVec 24) (s : State) :
    exec (.imx p) s = execImx p s := rfl
@[simp] theorem exec_rep (c : BitVec 6) (d : BitVec 2) (a : BitVec 2) (b : BitVec 2) (s : State) :
    exec (.rep c d a b) s = execRep c d a b s := rfl
@[simp] theorem exec_mod (r : BitVec 3) (src : Bool) (t : Bool) (w : Bool) (s : State) :
    exec (.mod r src t w) s = execMod r src t w s := rfl
@[simp] theorem exec_schd (l : Bool) (y : BitVec 2) (s : State) :
    exec (.schd l y) s = execSchd l y s := rfl
@[simp] theorem exec_sadd (d : Reg) (a : Reg) (b : Reg) (ta : Bool) (tb : Bool) (s : State) :
    exec (.sadd d a b ta tb) s = execSadd d a b ta tb s := rfl
@[simp] theorem exec_ssub (d : Reg) (a : Reg) (b : Reg) (ta : Bool) (tb : Bool) (s : State) :
    exec (.ssub d a b ta tb) s = execSsub d a b ta tb s := rfl
@[simp] theorem exec_smul (d : Reg) (a : Reg) (b : Reg) (ta : Bool) (tb : Bool) (s : State) :
    exec (.smul d a b ta tb) s = execSmul d a b ta tb s := rfl
@[simp] theorem exec_smulh (d : Reg) (a : Reg) (b : Reg) (ta : Bool) (tb : Bool) (u : Bool) (s : State) :
    exec (.smulh d a b ta tb u) s = execSmulh d a b ta tb u s := rfl
@[simp] theorem exec_sdiv (d : Reg) (a : Reg) (b : Reg) (ta : Bool) (tb : Bool) (u : Bool) (s : State) :
    exec (.sdiv d a b ta tb u) s = execSdiv d a b ta tb u s := rfl
@[simp] theorem exec_srem (d : Reg) (a : Reg) (b : Reg) (ta : Bool) (tb : Bool) (u : Bool) (s : State) :
    exec (.srem d a b ta tb u) s = execSrem d a b ta tb u s := rfl
@[simp] theorem exec_sand (d : Reg) (a : Reg) (b : Reg) (ta : Bool) (tb : Bool) (s : State) :
    exec (.sand d a b ta tb) s = execSand d a b ta tb s := rfl
@[simp] theorem exec_sor (d : Reg) (a : Reg) (b : Reg) (ta : Bool) (tb : Bool) (s : State) :
    exec (.sor d a b ta tb) s = execSor d a b ta tb s := rfl
@[simp] theorem exec_sxor (d : Reg) (a : Reg) (b : Reg) (ta : Bool) (tb : Bool) (s : State) :
    exec (.sxor d a b ta tb) s = execSxor d a b ta tb s := rfl
@[simp] theorem exec_sshl (d : Reg) (a : Reg) (b : Reg) (ta : Bool) (tb : Bool) (s : State) :
    exec (.sshl d a b ta tb) s = execSshl d a b ta tb s := rfl
@[simp] theorem exec_sshr (d : Reg) (a : Reg) (b : Reg) (ta : Bool) (tb : Bool) (u : Bool) (s : State) :
    exec (.sshr d a b ta tb u) s = execSshr d a b ta tb u s := rfl
@[simp] theorem exec_smin (d : Reg) (a : Reg) (b : Reg) (ta : Bool) (tb : Bool) (u : Bool) (s : State) :
    exec (.smin d a b ta tb u) s = execSmin d a b ta tb u s := rfl
@[simp] theorem exec_smax (d : Reg) (a : Reg) (b : Reg) (ta : Bool) (tb : Bool) (u : Bool) (s : State) :
    exec (.smax d a b ta tb u) s = execSmax d a b ta tb u s := rfl
@[simp] theorem exec_scmp (d : Reg) (a : Reg) (b : Reg) (ta : Bool) (tb : Bool) (u : Bool) (c : Cond) (s : State) :
    exec (.scmp d a b ta tb u c) s = execScmp d a b ta tb u c s := rfl
@[simp] theorem exec_ssel (d : Reg) (a : Reg) (b : Reg) (ta : Bool) (tb : Bool) (c : BitVec 4) (s : State) :
    exec (.ssel d a b ta tb c) s = execSsel d a b ta tb c s := rfl
@[simp] theorem exec_saddi (d : Reg) (a : Reg) (imm : BitVec 14) (s : State) :
    exec (.saddi d a imm) s = execSaddi d a imm s := rfl
@[simp] theorem exec_sandi (d : Reg) (a : Reg) (imm : BitVec 14) (s : State) :
    exec (.sandi d a imm) s = execSandi d a imm s := rfl
@[simp] theorem exec_sori (d : Reg) (a : Reg) (imm : BitVec 14) (s : State) :
    exec (.sori d a imm) s = execSori d a imm s := rfl
@[simp] theorem exec_sxori (d : Reg) (a : Reg) (imm : BitVec 14) (s : State) :
    exec (.sxori d a imm) s = execSxori d a imm s := rfl
@[simp] theorem exec_sshli (d : Reg) (a : Reg) (n : BitVec 6) (s : State) :
    exec (.sshli d a n) s = execSshli d a n s := rfl
@[simp] theorem exec_sshri (d : Reg) (a : Reg) (k : Bool) (n : BitVec 6) (s : State) :
    exec (.sshri d a k n) s = execSshri d a k n s := rfl
@[simp] theorem exec_sli (d : Reg) (imm : BitVec 14) (s : State) :
    exec (.sli d imm) s = execSli d imm s := rfl
@[simp] theorem exec_spopc (d : Reg) (a : Reg) (ta : Bool) (s : State) :
    exec (.spopc d a ta) s = execSpopc d a ta s := rfl
@[simp] theorem exec_sclz (d : Reg) (a : Reg) (ta : Bool) (s : State) :
    exec (.sclz d a ta) s = execSclz d a ta s := rfl
@[simp] theorem exec_smov (d : Reg) (a : Reg) (ta : Bool) (s : State) :
    exec (.smov d a ta) s = execSmov d a ta s := rfl
@[simp] theorem exec_bra (o : BitVec 24) (s : State) :
    exec (.bra o) s = execBra o s := rfl
@[simp] theorem exec_bz (a : Reg) (o : BitVec 19) (s : State) :
    exec (.bz a o) s = execBz a o s := rfl
@[simp] theorem exec_bnz (a : Reg) (o : BitVec 19) (s : State) :
    exec (.bnz a o) s = execBnz a o s := rfl
@[simp] theorem exec_call (o : BitVec 24) (s : State) :
    exec (.call o) s = execCall o s := rfl
@[simp] theorem exec_ret (a : Reg) (ta : Bool) (s : State) :
    exec (.ret a ta) s = execRet a ta s := rfl
@[simp] theorem exec_jmpr (a : Reg) (ta : Bool) (s : State) :
    exec (.jmpr a ta) s = execJmpr a ta s := rfl
@[simp] theorem exec_exit (s : State) :
    exec (.exit) s = execExit s := rfl
@[simp] theorem exec_yield (s : State) :
    exec (.yield) s = execYield s := rfl
@[simp] theorem exec_nop (s : State) :
    exec (.nop) s = execNop s := rfl
@[simp] theorem exec_ifm (k : MReg) (o : BitVec 19) (s : State) :
    exec (.ifm k o) s = execIfm k o s := rfl
@[simp] theorem exec_elsem (o : BitVec 19) (s : State) :
    exec (.elsem o) s = execElsem o s := rfl
@[simp] theorem exec_endifm (s : State) :
    exec (.endifm) s = execEndifm s := rfl
@[simp] theorem exec_loopm (o : BitVec 19) (s : State) :
    exec (.loopm o) s = execLoopm o s := rfl
@[simp] theorem exec_brkm (k : MReg) (o : BitVec 19) (s : State) :
    exec (.brkm k o) s = execBrkm k o s := rfl
@[simp] theorem exec_endl (o : BitVec 19) (s : State) :
    exec (.endl o) s = execEndl o s := rfl
@[simp] theorem exec_vadd (d : Reg) (a : Reg) (b : Reg) (m : MReg) (ta : Bool) (tb : Bool) (u : Bool) (s : State) :
    exec (.vadd d a b m ta tb u) s = execVadd d a b m ta tb u s := rfl
@[simp] theorem exec_vsub (d : Reg) (a : Reg) (b : Reg) (m : MReg) (ta : Bool) (tb : Bool) (u : Bool) (s : State) :
    exec (.vsub d a b m ta tb u) s = execVsub d a b m ta tb u s := rfl
@[simp] theorem exec_vmul (d : Reg) (a : Reg) (b : Reg) (m : MReg) (ta : Bool) (tb : Bool) (u : Bool) (s : State) :
    exec (.vmul d a b m ta tb u) s = execVmul d a b m ta tb u s := rfl
@[simp] theorem exec_vmulh (d : Reg) (a : Reg) (b : Reg) (m : MReg) (ta : Bool) (tb : Bool) (u : Bool) (s : State) :
    exec (.vmulh d a b m ta tb u) s = execVmulh d a b m ta tb u s := rfl
@[simp] theorem exec_vmad (d : Reg) (a : Reg) (b : Reg) (m : MReg) (ta : Bool) (tb : Bool) (u : Bool) (s : State) :
    exec (.vmad d a b m ta tb u) s = execVmad d a b m ta tb u s := rfl
@[simp] theorem exec_vabs (d : Reg) (a : Reg) (m : MReg) (ta : Bool) (s : State) :
    exec (.vabs d a m ta) s = execVabs d a m ta s := rfl
@[simp] theorem exec_vmin (d : Reg) (a : Reg) (b : Reg) (m : MReg) (ta : Bool) (tb : Bool) (u : Bool) (s : State) :
    exec (.vmin d a b m ta tb u) s = execVmin d a b m ta tb u s := rfl
@[simp] theorem exec_vmax (d : Reg) (a : Reg) (b : Reg) (m : MReg) (ta : Bool) (tb : Bool) (u : Bool) (s : State) :
    exec (.vmax d a b m ta tb u) s = execVmax d a b m ta tb u s := rfl
@[simp] theorem exec_vand (d : Reg) (a : Reg) (b : Reg) (m : MReg) (ta : Bool) (tb : Bool) (s : State) :
    exec (.vand d a b m ta tb) s = execVand d a b m ta tb s := rfl
@[simp] theorem exec_vor (d : Reg) (a : Reg) (b : Reg) (m : MReg) (ta : Bool) (tb : Bool) (s : State) :
    exec (.vor d a b m ta tb) s = execVor d a b m ta tb s := rfl
@[simp] theorem exec_vxor (d : Reg) (a : Reg) (b : Reg) (m : MReg) (ta : Bool) (tb : Bool) (s : State) :
    exec (.vxor d a b m ta tb) s = execVxor d a b m ta tb s := rfl
@[simp] theorem exec_vandn (d : Reg) (a : Reg) (b : Reg) (m : MReg) (ta : Bool) (tb : Bool) (s : State) :
    exec (.vandn d a b m ta tb) s = execVandn d a b m ta tb s := rfl
@[simp] theorem exec_vshl (d : Reg) (a : Reg) (b : Reg) (m : MReg) (ta : Bool) (tb : Bool) (s : State) :
    exec (.vshl d a b m ta tb) s = execVshl d a b m ta tb s := rfl
@[simp] theorem exec_vshr (d : Reg) (a : Reg) (b : Reg) (m : MReg) (ta : Bool) (tb : Bool) (u : Bool) (s : State) :
    exec (.vshr d a b m ta tb u) s = execVshr d a b m ta tb u s := rfl
@[simp] theorem exec_vshli (d : Reg) (a : Reg) (n : Reg) (m : MReg) (ta : Bool) (s : State) :
    exec (.vshli d a n m ta) s = execVshli d a n m ta s := rfl
@[simp] theorem exec_vshri (d : Reg) (a : Reg) (n : Reg) (m : MReg) (ta : Bool) (u : Bool) (s : State) :
    exec (.vshri d a n m ta u) s = execVshri d a n m ta u s := rfl
@[simp] theorem exec_vaddi (d : Reg) (a : Reg) (imm : BitVec 14) (s : State) :
    exec (.vaddi d a imm) s = execVaddi d a imm s := rfl
@[simp] theorem exec_vcmp (d : MReg) (a : Reg) (b : Reg) (m : MReg) (ta : Bool) (tb : Bool) (u : Bool) (c : Cond) (s : State) :
    exec (.vcmp d a b m ta tb u c) s = execVcmp d a b m ta tb u c s := rfl
@[simp] theorem exec_vcmpi (d : MReg) (a : Reg) (imm : Reg) (m : MReg) (ta : Bool) (u : Bool) (c : Cond) (s : State) :
    exec (.vcmpi d a imm m ta u c) s = execVcmpi d a imm m ta u c s := rfl
@[simp] theorem exec_vsel (d : Reg) (a : Reg) (b : Reg) (m : MReg) (ta : Bool) (tb : Bool) (c : MReg) (s : State) :
    exec (.vsel d a b m ta tb c) s = execVsel d a b m ta tb c s := rfl
@[simp] theorem exec_vpopc (d : Reg) (a : Reg) (m : MReg) (ta : Bool) (s : State) :
    exec (.vpopc d a m ta) s = execVpopc d a m ta s := rfl
@[simp] theorem exec_vclz (d : Reg) (a : Reg) (m : MReg) (ta : Bool) (s : State) :
    exec (.vclz d a m ta) s = execVclz d a m ta s := rfl
@[simp] theorem exec_vmov (d : Reg) (a : Reg) (m : MReg) (ta : Bool) (s : State) :
    exec (.vmov d a m ta) s = execVmov d a m ta s := rfl
@[simp] theorem exec_vmovs (d : Reg) (a : Reg) (m : MReg) (ta : Bool) (s : State) :
    exec (.vmovs d a m ta) s = execVmovs d a m ta s := rfl
@[simp] theorem exec_vli (d : Reg) (imm : BitVec 14) (s : State) :
    exec (.vli d imm) s = execVli d imm s := rfl
@[simp] theorem exec_vsatn (d : Reg) (a : Reg) (m : MReg) (ta : Bool) (f : TyCode) (s : State) :
    exec (.vsatn d a m ta f) s = execVsatn d a m ta f s := rfl
@[simp] theorem exec_vdot4 (d : Reg) (a : Reg) (b : Reg) (m : MReg) (ta : Bool) (tb : Bool) (u : Bool) (s : State) :
    exec (.vdot4 d a b m ta tb u) s = execVdot4 d a b m ta tb u s := rfl
@[simp] theorem exec_vfadd (d : Reg) (a : Reg) (b : Reg) (m : MReg) (ta : Bool) (tb : Bool) (s : State) :
    exec (.vfadd d a b m ta tb) s = execVfadd d a b m ta tb s := rfl
@[simp] theorem exec_vfsub (d : Reg) (a : Reg) (b : Reg) (m : MReg) (ta : Bool) (tb : Bool) (s : State) :
    exec (.vfsub d a b m ta tb) s = execVfsub d a b m ta tb s := rfl
@[simp] theorem exec_vfmul (d : Reg) (a : Reg) (b : Reg) (m : MReg) (ta : Bool) (tb : Bool) (s : State) :
    exec (.vfmul d a b m ta tb) s = execVfmul d a b m ta tb s := rfl
@[simp] theorem exec_vfma (d : Reg) (a : Reg) (b : Reg) (m : MReg) (ta : Bool) (tb : Bool) (s : State) :
    exec (.vfma d a b m ta tb) s = execVfma d a b m ta tb s := rfl
@[simp] theorem exec_vfmin (d : Reg) (a : Reg) (b : Reg) (m : MReg) (ta : Bool) (tb : Bool) (s : State) :
    exec (.vfmin d a b m ta tb) s = execVfmin d a b m ta tb s := rfl
@[simp] theorem exec_vfmax (d : Reg) (a : Reg) (b : Reg) (m : MReg) (ta : Bool) (tb : Bool) (s : State) :
    exec (.vfmax d a b m ta tb) s = execVfmax d a b m ta tb s := rfl
@[simp] theorem exec_vfsgn (d : Reg) (a : Reg) (b : Reg) (m : MReg) (ta : Bool) (tb : Bool) (f : SgnOp) (s : State) :
    exec (.vfsgn d a b m ta tb f) s = execVfsgn d a b m ta tb f s := rfl
@[simp] theorem exec_vfrcp (d : Reg) (a : Reg) (m : MReg) (ta : Bool) (s : State) :
    exec (.vfrcp d a m ta) s = execVfrcp d a m ta s := rfl
@[simp] theorem exec_vfrsq (d : Reg) (a : Reg) (m : MReg) (ta : Bool) (s : State) :
    exec (.vfrsq d a m ta) s = execVfrsq d a m ta s := rfl
@[simp] theorem exec_vfsqrt (d : Reg) (a : Reg) (m : MReg) (ta : Bool) (s : State) :
    exec (.vfsqrt d a m ta) s = execVfsqrt d a m ta s := rfl
@[simp] theorem exec_vfdiv (d : Reg) (a : Reg) (b : Reg) (m : MReg) (ta : Bool) (tb : Bool) (s : State) :
    exec (.vfdiv d a b m ta tb) s = execVfdiv d a b m ta tb s := rfl
@[simp] theorem exec_vfexp2 (d : Reg) (a : Reg) (m : MReg) (ta : Bool) (s : State) :
    exec (.vfexp2 d a m ta) s = execVfexp2 d a m ta s := rfl
@[simp] theorem exec_vflog2 (d : Reg) (a : Reg) (m : MReg) (ta : Bool) (s : State) :
    exec (.vflog2 d a m ta) s = execVflog2 d a m ta s := rfl
@[simp] theorem exec_vfcmp (d : MReg) (a : Reg) (b : Reg) (m : MReg) (ta : Bool) (tb : Bool) (c : Cond) (s : State) :
    exec (.vfcmp d a b m ta tb c) s = execVfcmp d a b m ta tb c s := rfl
@[simp] theorem exec_vfclass (d : Reg) (a : Reg) (m : MReg) (ta : Bool) (s : State) :
    exec (.vfclass d a m ta) s = execVfclass d a m ta s := rfl
@[simp] theorem exec_vfrnd (d : Reg) (a : Reg) (m : MReg) (ta : Bool) (s : State) :
    exec (.vfrnd d a m ta) s = execVfrnd d a m ta s := rfl
@[simp] theorem exec_vfscl (d : Reg) (a : Reg) (b : Reg) (m : MReg) (ta : Bool) (tb : Bool) (s : State) :
    exec (.vfscl d a b m ta tb) s = execVfscl d a b m ta tb s := rfl
@[simp] theorem exec_vhadd (d : Reg) (a : Reg) (b : Reg) (m : MReg) (ta : Bool) (tb : Bool) (bf : Bool) (s : State) :
    exec (.vhadd d a b m ta tb bf) s = execVhadd d a b m ta tb bf s := rfl
@[simp] theorem exec_vhmul (d : Reg) (a : Reg) (b : Reg) (m : MReg) (ta : Bool) (tb : Bool) (bf : Bool) (s : State) :
    exec (.vhmul d a b m ta tb bf) s = execVhmul d a b m ta tb bf s := rfl
@[simp] theorem exec_vhfma (d : Reg) (a : Reg) (b : Reg) (m : MReg) (ta : Bool) (tb : Bool) (bf : Bool) (s : State) :
    exec (.vhfma d a b m ta tb bf) s = execVhfma d a b m ta tb bf s := rfl
@[simp] theorem exec_vcvt (d : Reg) (a : Reg) (h : Bool) (src : TyCode) (m : MReg) (ta : Bool) (f : TyCode) (s : State) :
    exec (.vcvt d a h src m ta f) s = execVcvt d a h src m ta f s := rfl
@[simp] theorem exec_vcvts (d : Reg) (a : Reg) (b : Reg) (m : MReg) (ta : Bool) (tb : Bool) (f : TyCode) (s : State) :
    exec (.vcvts d a b m ta tb f) s = execVcvts d a b m ta tb f s := rfl
@[simp] theorem exec_vshfl (d : Reg) (a : Reg) (b : Reg) (m : MReg) (ta : Bool) (tb : Bool) (f : BitVec 2) (s : State) :
    exec (.vshfl d a b m ta tb f) s = execVshfl d a b m ta tb f s := rfl
@[simp] theorem exec_vbcst (d : Reg) (a : Reg) (b : Reg) (m : MReg) (ta : Bool) (tb : Bool) (s : State) :
    exec (.vbcst d a b m ta tb) s = execVbcst d a b m ta tb s := rfl
@[simp] theorem exec_vred (d : Reg) (a : Reg) (m : MReg) (ta : Bool) (p : RedOp) (y : RedTy) (s : State) :
    exec (.vred d a m ta p y) s = execVred d a m ta p y s := rfl
@[simp] theorem exec_vscan (d : Reg) (a : Reg) (m : MReg) (ta : Bool) (p : RedOp) (y : RedTy) (s : State) :
    exec (.vscan d a m ta p y) s = execVscan d a m ta p y s := rfl
@[simp] theorem exec_vcprs (d : Reg) (a : Reg) (m : MReg) (ta : Bool) (s : State) :
    exec (.vcprs d a m ta) s = execVcprs d a m ta s := rfl
@[simp] theorem exec_vexpd (d : Reg) (a : Reg) (m : MReg) (ta : Bool) (s : State) :
    exec (.vexpd d a m ta) s = execVexpd d a m ta s := rfl
@[simp] theorem exec_mpopc (d : Reg) (a : MReg) (m : MReg) (f : PopFn) (s : State) :
    exec (.mpopc d a m f) s = execMpopc d a m f s := rfl
@[simp] theorem exec_vtos (d : Reg) (a : Reg) (b : Reg) (ta : Bool) (tb : Bool) (sx : Bool) (s : State) :
    exec (.vtos d a b ta tb sx) s = execVtos d a b ta tb sx s := rfl
@[simp] theorem exec_stov (d : Reg) (a : Reg) (b : Reg) (m : MReg) (ta : Bool) (tb : Bool) (s : State) :
    exec (.stov d a b m ta tb) s = execStov d a b m ta tb s := rfl
@[simp] theorem exec_mlog (d : MReg) (a : MReg) (b : MReg) (f : MaskOp) (s : State) :
    exec (.mlog d a b f) s = execMlog d a b f s := rfl
@[simp] theorem exec_mmovsMS (d : Reg) (a : MReg) (s : State) :
    exec (.mmovsMS d a) s = execMmovsMS d a s := rfl
@[simp] theorem exec_mmovsSM (d : MReg) (a : Reg) (ta : Bool) (s : State) :
    exec (.mmovsSM d a ta) s = execMmovsSM d a ta s := rfl
@[simp] theorem exec_ldv (d : Reg) (src : Reg) (m : MReg) (o : BitVec 6) (s : State) :
    exec (.ldv d src m o) s = execLdv d src m o s := rfl
@[simp] theorem exec_stv (d : Reg) (src : Reg) (m : MReg) (o : BitVec 6) (s : State) :
    exec (.stv d src m o) s = execStv d src m o s := rfl
@[simp] theorem exec_ldvs (d : Reg) (src : Reg) (x : Reg) (m : MReg) (o : BitVec 6) (s : State) :
    exec (.ldvs d src x m o) s = execLdvs d src x m o s := rfl
@[simp] theorem exec_stvs (d : Reg) (src : Reg) (x : Reg) (m : MReg) (o : BitVec 6) (s : State) :
    exec (.stvs d src x m o) s = execStvs d src x m o s := rfl
@[simp] theorem exec_ldvx (d : Reg) (src : Reg) (x : Reg) (m : MReg) (c : BitVec 2) (o : BitVec 4) (s : State) :
    exec (.ldvx d src x m c o) s = execLdvx d src x m c o s := rfl
@[simp] theorem exec_stvx (d : Reg) (src : Reg) (x : Reg) (m : MReg) (c : BitVec 2) (o : BitVec 4) (s : State) :
    exec (.stvx d src x m c o) s = execStvx d src x m c o s := rfl
@[simp] theorem exec_lds (d : Reg) (src : Reg) (o : BitVec 6) (s : State) :
    exec (.lds d src o) s = execLds d src o s := rfl
@[simp] theorem exec_sts (d : Reg) (src : Reg) (o : BitVec 6) (s : State) :
    exec (.sts d src o) s = execSts d src o s := rfl
@[simp] theorem exec_rldv (d : Reg) (src : Reg) (m : MReg) (o : BitVec 6) (s : State) :
    exec (.rldv d src m o) s = execRldv d src m o s := rfl
@[simp] theorem exec_rstv (d : Reg) (src : Reg) (m : MReg) (o : BitVec 6) (s : State) :
    exec (.rstv d src m o) s = execRstv d src m o s := rfl
@[simp] theorem exec_atom (d : Reg) (a : Reg) (b : Reg) (m : MReg) (ord : BitVec 2) (sc : Bool) (p : AtomOp) (s : State) :
    exec (.atom d a b m ord sc p) s = execAtom d a b m ord sc p s := rfl
@[simp] theorem exec_ratom (d : Reg) (a : Reg) (b : Reg) (m : MReg) (ord : BitVec 2) (rt : Bool) (p : AtomOp) (s : State) :
    exec (.ratom d a b m ord rt p) s = execRatom d a b m ord rt p s := rfl
@[simp] theorem exec_tak2 (d : Reg) (m : MReg) (ta : Bool) (w : Bool) (s : State) :
    exec (.tak2 d m ta w) s = execTak2 d m ta w s := rfl
@[simp] theorem exec_put2 (a : Reg) (b : Reg) (m : MReg) (ta : Bool) (tb : Bool) (s : State) :
    exec (.put2 a b m ta tb) s = execPut2 a b m ta tb s := rfl
@[simp] theorem exec_pqry (d : Reg) (s : State) :
    exec (.pqry d) s = execPqry d s := rfl
@[simp] theorem exec_shape (d : Reg) (a : Reg) (ta : Bool) (s : State) :
    exec (.shape d a ta) s = execShape d a ta s := rfl
@[simp] theorem exec_mgat (d : Reg) (src : Reg) (m : MReg) (o : BitVec 6) (s : State) :
    exec (.mgat d src m o) s = execMgat d src m o s := rfl
@[simp] theorem exec_mlat (src : Reg) (m : MReg) (o : BitVec 6) (s : State) :
    exec (.mlat src m o) s = execMlat src m o s := rfl
@[simp] theorem exec_mma (a : Reg) (b : Reg) (m : MReg) (ta : Bool) (tb : Bool) (zp : Bool) (s : State) :
    exec (.mma a b m ta tb zp) s = execMma a b m ta tb zp s := rfl
@[simp] theorem exec_mmas (d : Reg) (a : Reg) (b : Reg) (m : MReg) (ta : Bool) (tb : Bool) (zp : Bool) (s : State) :
    exec (.mmas d a b m ta tb zp) s = execMmas d a b m ta tb zp s := rfl
@[simp] theorem exec_mwl (src : Reg) (m : MReg) (o : BitVec 6) (s : State) :
    exec (.mwl src m o) s = execMwl src m o s := rfl
@[simp] theorem exec_mwf (a : Reg) (b : Reg) (m : MReg) (ta : Bool) (tb : Bool) (s : State) :
    exec (.mwf a b m ta tb) s = execMwf a b m ta tb s := rfl
@[simp] theorem exec_mwb (a : Reg) (b : Reg) (m : MReg) (ta : Bool) (tb : Bool) (s : State) :
    exec (.mwb a b m ta tb) s = execMwb a b m ta tb s := rfl
@[simp] theorem exec_mclr (m : MReg) (f : BitVec 4) (s : State) :
    exec (.mclr m f) s = execMclr m f s := rfl
@[simp] theorem exec_msca (a : Reg) (b : Reg) (m : MReg) (ta : Bool) (tb : Bool) (s : State) :
    exec (.msca a b m ta tb) s = execMsca a b m ta tb s := rfl
@[simp] theorem exec_mdrn (d : Reg) (a : Reg) (b : Reg) (m : MReg) (ta : Bool) (tb : Bool) (f : TyCode) (s : State) :
    exec (.mdrn d a b m ta tb f) s = execMdrn d a b m ta tb f s := rfl
@[simp] theorem exec_mmovpGP (d : Reg) (m : MReg) (s : State) :
    exec (.mmovpGP d m) s = execMmovpGP d m s := rfl
@[simp] theorem exec_mmovpGA (d : Reg) (m : MReg) (s : State) :
    exec (.mmovpGA d m) s = execMmovpGA d m s := rfl
@[simp] theorem exec_mmovpSP (a : Reg) (m : MReg) (ta : Bool) (s : State) :
    exec (.mmovpSP a m ta) s = execMmovpSP a m ta s := rfl
@[simp] theorem exec_mmovpSA (a : Reg) (m : MReg) (ta : Bool) (s : State) :
    exec (.mmovpSA a m ta) s = execMmovpSA a m ta s := rfl
@[simp] theorem exec_mpack (d : Reg) (a : Reg) (b : Reg) (ta : Bool) (tb : Bool) (s : State) :
    exec (.mpack d a b ta tb) s = execMpack d a b ta tb s := rfl
@[simp] theorem exec_munpk (a : Reg) (b : Reg) (ta : Bool) (tb : Bool) (s : State) :
    exec (.munpk a b ta tb) s = execMunpk a b ta tb s := rfl
@[simp] theorem exec_cardck (d : Reg) (a : Reg) (ta : Bool) (s : State) :
    exec (.cardck d a ta) s = execCardck d a ta s := rfl
@[simp] theorem exec_qpack (d : Reg) (a : Reg) (b : Reg) (ta : Bool) (tb : Bool) (s : State) :
    exec (.qpack d a b ta tb) s = execQpack d a b ta tb s := rfl
@[simp] theorem exec_shcp (d : Reg) (a : Reg) (b : Reg) (bar : Bool) (d3 : Bool) (s : State) :
    exec (.shcp d a b bar d3) s = execShcp d a b bar d3 s := rfl
@[simp] theorem exec_shtr (d : Reg) (a : Reg) (exp : Bool) (bar : Bool) (sp : Bool) (s : State) :
    exec (.shtr d a exp bar sp) s = execShtr d a exp bar sp s := rfl
@[simp] theorem exec_shset (d : Reg) (a : Reg) (b : Reg) (z : BitVec 2) (bar : Bool) (d3 : Bool) (s : State) :
    exec (.shset d a b z bar d3) s = execShset d a b z bar d3 s := rfl
@[simp] theorem exec_gath (d : Reg) (a : Reg) (b : Reg) (bar : Bool) (ixr : Bool) (s : State) :
    exec (.gath d a b bar ixr) s = execGath d a b bar ixr s := rfl
@[simp] theorem exec_scat (d : Reg) (a : Reg) (b : Reg) (bar : Bool) (ixr : Bool) (s : State) :
    exec (.scat d a b bar ixr) s = execScat d a b bar ixr s := rfl
@[simp] theorem exec_sred (d : Reg) (a : Reg) (b : Reg) (p : SredOp) (ord : Bool) (bar : Bool) (ixr : Bool) (s : State) :
    exec (.sred d a b p ord bar ixr) s = execSred d a b p ord bar ixr s := rfl
@[simp] theorem exec_wkst (d : Reg) (a : Reg) (rl : Bool) (bar : Bool) (s : State) :
    exec (.wkst d a rl bar) s = execWkst d a rl bar s := rfl
@[simp] theorem exec_nput (d : Reg) (a : Reg) (s : State) :
    exec (.nput d a) s = execNput d a s := rfl
@[simp] theorem exec_nget (d : Reg) (a : Reg) (bar : Bool) (s : State) :
    exec (.nget d a bar) s = execNget d a bar s := rfl
@[simp] theorem exec_nred (d : Reg) (a : Reg) (p : SredOp) (s : State) :
    exec (.nred d a p) s = execNred d a p s := rfl
@[simp] theorem exec_nsig (d : Reg) (a : Reg) (st : Bool) (s : State) :
    exec (.nsig d a st) s = execNsig d a st s := rfl
@[simp] theorem exec_seal (d : Reg) (c : BClass) (s : State) :
    exec (.seal d c) s = execSeal d c s := rfl
@[simp] theorem exec_wait (d : Reg) (c : BClass) (n : BitVec 4) (s : State) :
    exec (.wait d c n) s = execWait d c n s := rfl
@[simp] theorem exec_wstat (d : Reg) (a : Reg) (c : BClass) (addr : Bool) (s : State) :
    exec (.wstat d a c addr) s = execWstat d a c addr s := rfl
@[simp] theorem exec_binit (a : Reg) (b : Reg) (ta : Bool) (tb : Bool) (s : State) :
    exec (.binit a b ta tb) s = execBinit a b ta tb s := rfl
@[simp] theorem exec_barv (d : Reg) (a : Reg) (ta : Bool) (s : State) :
    exec (.barv d a ta) s = execBarv d a ta s := rfl
@[simp] theorem exec_barx (d : Reg) (a : Reg) (ta : Bool) (s : State) :
    exec (.barx d a ta) s = execBarx d a ta s := rfl
@[simp] theorem exec_bwait (d : Reg) (a : Reg) (ta : Bool) (s : State) :
    exec (.bwait d a ta) s = execBwait d a ta s := rfl
@[simp] theorem exec_bwany (d : Reg) (a : Reg) (b : Reg) (ta : Bool) (tb : Bool) (s : State) :
    exec (.bwany d a b ta tb) s = execBwany d a b ta tb s := rfl
@[simp] theorem exec_bpark (a : Reg) (b : Reg) (ta : Bool) (tb : Bool) (s : State) :
    exec (.bpark a b ta tb) s = execBpark a b ta tb s := rfl
@[simp] theorem exec_binv (a : Reg) (ta : Bool) (s : State) :
    exec (.binv a ta) s = execBinv a ta s := rfl
@[simp] theorem exec_fence (src : Scope) (s : State) :
    exec (.fence src) s = execFence src s := rfl
@[simp] theorem exec_gbar (d : Reg) (s : State) :
    exec (.gbar d) s = execGbar d s := rfl
@[simp] theorem exec_csrr (d : Reg) (c : BitVec 12) (s : State) :
    exec (.csrr d c) s = execCsrr d c s := rfl
@[simp] theorem exec_csrw (a : Reg) (c : BitVec 12) (s : State) :
    exec (.csrw a c) s = execCsrw a c s := rfl
@[simp] theorem exec_trap (a : Reg) (imm : BitVec 14) (s : State) :
    exec (.trap a imm) s = execTrap a imm s := rfl
@[simp] theorem exec_bkpt (a : Reg) (imm : BitVec 14) (s : State) :
    exec (.bkpt a imm) s = execBkpt a imm s := rfl
@[simp] theorem exec_lnch (d : Reg) (a : Reg) (s : State) :
    exec (.lnch d a) s = execLnch d a s := rfl
@[simp] theorem exec_evsig (d : Reg) (a : Reg) (st : Bool) (s : State) :
    exec (.evsig d a st) s = execEvsig d a st s := rfl
@[simp] theorem exec_krdr (d : Reg) (a : Reg) (s : State) :
    exec (.krdr d a) s = execKrdr d a s := rfl
@[simp] theorem exec_kwrr (a : Reg) (b : Reg) (s : State) :
    exec (.kwrr a b) s = execKwrr a b s := rfl
@[simp] theorem exec_krsm (a : Reg) (s : State) :
    exec (.krsm a) s = execKrsm a s := rfl
@[simp] theorem exec_kkil (a : Reg) (s : State) :
    exec (.kkil a) s = execKkil a s := rfl
@[simp] theorem exec_ksav (d : Reg) (a : Reg) (b : Reg) (s : State) :
    exec (.ksav d a b) s = execKsav d a b s := rfl
@[simp] theorem exec_klod (d : Reg) (a : Reg) (b : Reg) (s : State) :
    exec (.klod d a b) s = execKlod d a b s := rfl
@[simp] theorem exec_kret (s : State) :
    exec (.kret) s = execKret s := rfl
@[simp] theorem exec_wadd (d : WReg) (a : WReg) (b : WReg) (s : State) :
    exec (.wadd d a b) s = execWadd d a b s := rfl
@[simp] theorem exec_wsub (d : WReg) (a : WReg) (b : WReg) (s : State) :
    exec (.wsub d a b) s = execWsub d a b s := rfl
@[simp] theorem exec_wmul (d : WReg) (a : WReg) (b : WReg) (s : State) :
    exec (.wmul d a b) s = execWmul d a b s := rfl
@[simp] theorem exec_wand (d : WReg) (a : WReg) (b : WReg) (s : State) :
    exec (.wand d a b) s = execWand d a b s := rfl
@[simp] theorem exec_wor (d : WReg) (a : WReg) (b : WReg) (s : State) :
    exec (.wor d a b) s = execWor d a b s := rfl
@[simp] theorem exec_wxor (d : WReg) (a : WReg) (b : WReg) (s : State) :
    exec (.wxor d a b) s = execWxor d a b s := rfl
@[simp] theorem exec_wshl (d : WReg) (a : WReg) (b : WReg) (s : State) :
    exec (.wshl d a b) s = execWshl d a b s := rfl
@[simp] theorem exec_wshr (d : WReg) (a : WReg) (b : WReg) (s : State) :
    exec (.wshr d a b) s = execWshr d a b s := rfl
@[simp] theorem exec_waddi (d : WReg) (a : WReg) (imm : BitVec 18) (s : State) :
    exec (.waddi d a imm) s = execWaddi d a imm s := rfl
@[simp] theorem exec_wli (d : WReg) (imm : BitVec 22) (s : State) :
    exec (.wli d imm) s = execWli d imm s := rfl
@[simp] theorem exec_wld (d : WReg) (a : WReg) (src : BitVec 2) (imm : BitVec 16) (s : State) :
    exec (.wld d a src imm) s = execWld d a src imm s := rfl
@[simp] theorem exec_wpref (d : WReg) (a : WReg) (imm : BitVec 16) (s : State) :
    exec (.wpref d a imm) s = execWpref d a imm s := rfl
@[simp] theorem exec_wbcc (a : WReg) (b : WReg) (c : WCond) (o : BitVec 15) (s : State) :
    exec (.wbcc a b c o) s = execWbcc a b c o s := rfl
@[simp] theorem exec_wj (o : BitVec 15) (s : State) :
    exec (.wj o) s = execWj o s := rfl
@[simp] theorem exec_wpopc (d : WReg) (a : WReg) (s : State) :
    exec (.wpopc d a) s = execWpopc d a s := rfl
@[simp] theorem exec_wpfx (d : WReg) (a : WReg) (b : WReg) (s : State) :
    exec (.wpfx d a b) s = execWpfx d a b s := rfl
@[simp] theorem exec_isect (d : WReg) (a : WReg) (b : WReg) (e : WReg) (s : State) :
    exec (.isect d a b e) s = execIsect d a b e s := rfl
@[simp] theorem exec_part (d : WReg) (a : WReg) (b : WReg) (e : WReg) (s : State) :
    exec (.part d a b e) s = execPart d a b e s := rfl
@[simp] theorem exec_emit (d : WReg) (a : WReg) (b : WReg) (e : WReg) (cr : Bool) (s : State) :
    exec (.emit d a b e cr) s = execEmit d a b e cr s := rfl
@[simp] theorem exec_emitz (d : WReg) (b : WReg) (e : WReg) (cr : Bool) (s : State) :
    exec (.emitz d b e cr) s = execEmitz d b e cr s := rfl
@[simp] theorem exec_sigb (a : WReg) (s : State) :
    exec (.sigb a) s = execSigb a s := rfl
@[simp] theorem exec_wend (s : State) :
    exec (.wend) s = execWend s := rfl
@[simp] theorem exec_illegalEncoding (st : Nat) (s : State) :
    exec (.illegalEncoding st) s = execIllegalEncoding st s := rfl
@[simp] theorem exec_bringUpStep (ok : Bool) (bad : List Nat) (s : State) :
    exec (.bringUpStep ok bad) s = execBringUpStep ok bad s := rfl
@[simp] theorem exec_deviceReset (s : State) :
    exec (.deviceReset) s = execDeviceReset s := rfl
@[simp] theorem exec_walkerCommandStart (cl : ClusterId) (s : State) :
    exec (.walkerCommandStart cl) s = execWalkerCommandStart cl s := rfl
@[simp] theorem exec_walkerInstructionLimit (cl : ClusterId) (s : State) :
    exec (.walkerInstructionLimit cl) s = execWalkerInstructionLimit cl s := rfl
@[simp] theorem exec_walkerLoadData (cl : ClusterId) (line : BitVec 64) (s : State) :
    exec (.walkerLoadData cl line) s = execWalkerLoadData cl line s := rfl
@[simp] theorem exec_walkerEmissionComplete (cl : ClusterId) (n : Nat) (s : State) :
    exec (.walkerEmissionComplete cl n) s = execWalkerEmissionComplete cl n s := rfl
@[simp] theorem exec_producerComplete (r : RowId) (n : Nat) (s : State) :
    exec (.producerComplete r n) s = execProducerComplete r n s := rfl
@[simp] theorem exec_remoteWritePerform (r : RowId) (s : State) :
    exec (.remoteWritePerform r) s = execRemoteWritePerform r s := rfl
@[simp] theorem exec_portEntryArrive (r : RowId) (s : State) :
    exec (.portEntryArrive r) s = execPortEntryArrive r s := rfl
@[simp] theorem exec_latchFill (r : RowId) (s : State) :
    exec (.latchFill r) s = execLatchFill r s := rfl
@[simp] theorem exec_mwlArrive (r : RowId) (s : State) :
    exec (.mwlArrive r) s = execMwlArrive r s := rfl
@[simp] theorem exec_streamStep (r : RowId) (s : State) :
    exec (.streamStep r) s = execStreamStep r s := rfl
@[simp] theorem exec_streamComplete (r : RowId) (s : State) :
    exec (.streamComplete r) s = execStreamComplete r s := rfl
@[simp] theorem exec_mscaComplete (r : RowId) (s : State) :
    exec (.mscaComplete r) s = execMscaComplete r s := rfl
@[simp] theorem exec_translationWalkComplete (k : CacheId) (asid : BitVec 6) (va : BitVec 52) (s : State) :
    exec (.translationWalkComplete k asid va) s = execTranslationWalkComplete k asid va s := rfl
@[simp] theorem exec_shuttleLineComplete (c : Nat) (q : Nat) (k : Nat) (link : Bool) (s : State) :
    exec (.shuttleLineComplete c q k link) s = execShuttleLineComplete c q k link s := rfl
@[simp] theorem exec_gsElementComplete (c : Nat) (p : Nat) (link : Bool) (s : State) :
    exec (.gsElementComplete c p link) s = execGsElementComplete c p link s := rfl
@[simp] theorem exec_sredCombine (c : Nat) (s : State) :
    exec (.sredCombine c) s = execSredCombine c s := rfl
@[simp] theorem exec_sredUpdateApply (c : Nat) (g : Nat) (link : Bool) (s : State) :
    exec (.sredUpdateApply c g link) s = execSredUpdateApply c g link s := rfl
@[simp] theorem exec_networkAck (c : Nat) (l : Nat) (st : Byte) (data : List Byte) (s : State) :
    exec (.networkAck c l st data) s = execNetworkAck c l st data s := rfl
@[simp] theorem exec_networkTimeout (c : Nat) (s : State) :
    exec (.networkTimeout c) s = execNetworkTimeout c s := rfl
@[simp] theorem exec_peerAccessArrival (src : BitVec 12) (acc : PeerAccess) (s : State) :
    exec (.peerAccessArrival src acc) s = execPeerAccessArrival src acc s := rfl
@[simp] theorem exec_peerFlitForward (dst : BitVec 12) (data : List Byte) (s : State) :
    exec (.peerFlitForward dst data) s = execPeerFlitForward dst data s := rfl
@[simp] theorem exec_nredReceive (c : Nat) (frm : NredFrom) (v : NredPart) (nf : BitVec 2) (bad : Bool) (s : State) :
    exec (.nredReceive c frm v nf bad) s = execNredReceive c frm v nf bad s := rfl
@[simp] theorem exec_peerFlitCrcError (p : Nat) (s : State) :
    exec (.peerFlitCrcError p) s = execPeerFlitCrcError p s := rfl
@[simp] theorem exec_treadleFlitCrcError (s : State) :
    exec (.treadleFlitCrcError) s = execTreadleFlitCrcError s := rfl
@[simp] theorem exec_hostRead (a : HostAddr) (n : Nat) (s : State) :
    exec (.hostRead a n) s = execHostRead a n s := rfl
@[simp] theorem exec_hostWrite (a : HostAddr) (data : List Byte) (s : State) :
    exec (.hostWrite a data) s = execHostWrite a data s := rfl
@[simp] theorem exec_hostReadHoldTimeout (s : State) :
    exec (.hostReadHoldTimeout) s = execHostReadHoldTimeout s := rfl
@[simp] theorem exec_qtailWrite (q : BitVec 4) (v : BitVec 64) (s : State) :
    exec (.qtailWrite q v) s = execQtailWrite q v s := rfl
@[simp] theorem exec_xinvcGo (v : BitVec 64) (s : State) :
    exec (.xinvcGo v) s = execXinvcGo v s := rfl
@[simp] theorem exec_invalidationDone (s : State) :
    exec (.invalidationDone) s = execInvalidationDone s := rfl
@[simp] theorem exec_registerWrite (off : Nat) (v : BitVec 64) (s : State) :
    exec (.registerWrite off v) s = execRegisterWrite off v s := rfl
@[simp] theorem exec_paceevRead (r : RowId) (d : Reg) (s : State) :
    exec (.paceevRead r d) s = execPaceevRead r d s := rfl
@[simp] theorem exec_pacereqWrite (r : RowId) (v : BitVec 64) (s : State) :
    exec (.pacereqWrite r v) s = execPacereqWrite r v s := rfl
@[simp] theorem exec_rdpoints (s : State) :
    exec (.rdpoints) s = execRdpoints s := rfl
@[simp] theorem exec_quote (s : State) :
    exec (.quote) s = execQuote s := rfl
@[simp] theorem exec_setcap (s : State) :
    exec (.setcap) s = execSetcap s := rfl
@[simp] theorem exec_rdlog (s : State) :
    exec (.rdlog) s = execRdlog s := rfl
@[simp] theorem exec_fwchunk (s : State) :
    exec (.fwchunk) s = execFwchunk s := rfl
@[simp] theorem exec_fwcommit (s : State) :
    exec (.fwcommit) s = execFwcommit s := rfl
@[simp] theorem exec_mbReset (s : State) :
    exec (.mbReset) s = execMbReset s := rfl
@[simp] theorem exec_keystat (s : State) :
    exec (.keystat) s = execKeystat s := rfl
@[simp] theorem exec_preempt (s : State) :
    exec (.preempt) s = execPreempt s := rfl
@[simp] theorem exec_resume (s : State) :
    exec (.resume) s = execResume s := rfl
@[simp] theorem exec_endlaunch (s : State) :
    exec (.endlaunch) s = execEndlaunch s := rfl
@[simp] theorem exec_mailboxReply (s : State) :
    exec (.mailboxReply) s = execMailboxReply s := rfl
@[simp] theorem exec_dcmdKrdr (g : CoreId) (s : State) :
    exec (.dcmdKrdr g) s = execDcmdKrdr g s := rfl
@[simp] theorem exec_dcmdKwrr (g : CoreId) (s : State) :
    exec (.dcmdKwrr g) s = execDcmdKwrr g s := rfl
@[simp] theorem exec_dcmdKrsm (g : CoreId) (s : State) :
    exec (.dcmdKrsm g) s = execDcmdKrsm g s := rfl
@[simp] theorem exec_dcmdKkil (g : CoreId) (s : State) :
    exec (.dcmdKkil g) s = execDcmdKkil g s := rfl
@[simp] theorem exec_channelRetrain (ch : Nat) (s : State) :
    exec (.channelRetrain ch) s = execChannelRetrain ch s := rfl
@[simp] theorem exec_retrainComplete (ch : Nat) (ok : Bool) (s : State) :
    exec (.retrainComplete ch ok) s = execRetrainComplete ch ok s := rfl
@[simp] theorem exec_commandParityAlert (ch : Nat) (ok : Bool) (hist : Bool) (s : State) :
    exec (.commandParityAlert ch ok hist) s = execCommandParityAlert ch ok hist s := rfl
@[simp] theorem exec_patrolScrub (pc : Nat) (s : State) :
    exec (.patrolScrub pc) s = execPatrolScrub pc s := rfl
@[simp] theorem exec_stackHighEnter (st : Nat) (s : State) :
    exec (.stackHighEnter st) s = execStackHighEnter st s := rfl
@[simp] theorem exec_stackHighLeave (st : Nat) (s : State) :
    exec (.stackHighLeave st) s = execStackHighLeave st s := rfl
@[simp] theorem exec_packageFreeze (st : Nat) (s : State) :
    exec (.packageFreeze st) s = execPackageFreeze st s := rfl
@[simp] theorem exec_freezeGate (s : State) :
    exec (.freezeGate) s = execFreezeGate s := rfl
@[simp] theorem exec_freezeRelease (s : State) :
    exec (.freezeRelease) s = execFreezeRelease s := rfl
@[simp] theorem exec_freezeResume (dur : Nat) (s : State) :
    exec (.freezeResume dur) s = execFreezeResume dur s := rfl
@[simp] theorem exec_junctionThrottle (cl : ClusterId) (lv : BitVec 2) (s : State) :
    exec (.junctionThrottle cl lv) s = execJunctionThrottle cl lv s := rfl
@[simp] theorem exec_overcurrent (cl : ClusterId) (s : State) :
    exec (.overcurrent cl) s = execOvercurrent cl s := rfl
@[simp] theorem exec_overcurrentEnd (cl : ClusterId) (s : State) :
    exec (.overcurrentEnd cl) s = execOvercurrentEnd cl s := rfl
@[simp] theorem exec_thermalTrip (coolant : Bool) (s : State) :
    exec (.thermalTrip coolant) s = execThermalTrip coolant s := rfl
@[simp] theorem exec_arbiterRound (s : State) :
    exec (.arbiterRound) s = execArbiterRound s := rfl
@[simp] theorem exec_paceSwitch (cl : ClusterId) (s : State) :
    exec (.paceSwitch cl) s = execPaceSwitch cl s := rfl
@[simp] theorem exec_paceSwitchComplete (cl : ClusterId) (s : State) :
    exec (.paceSwitchComplete cl) s = execPaceSwitchComplete cl s := rfl
@[simp] theorem exec_paceChangeAbandon (cl : ClusterId) (s : State) :
    exec (.paceChangeAbandon cl) s = execPaceChangeAbandon cl s := rfl
@[simp] theorem exec_paceHnApply (s : State) :
    exec (.paceHnApply) s = execPaceHnApply s := rfl
@[simp] theorem exec_rationMeasure (cl : ClusterId) (mw : Nat) (s : State) :
    exec (.rationMeasure cl mw) s = execRationMeasure cl mw s := rfl
@[simp] theorem exec_watchdog (r : RowId) (s : State) :
    exec (.watchdog r) s = execWatchdog r s := rfl
@[simp] theorem exec_yieldIntervalEnd (r : RowId) (s : State) :
    exec (.yieldIntervalEnd r) s = execYieldIntervalEnd r s := rfl
@[simp] theorem exec_eventSlotPoll (q : BitVec 4) (s : State) :
    exec (.eventSlotPoll q) s = execEventSlotPoll q s := rfl
@[simp] theorem exec_launchAccept (s : State) :
    exec (.launchAccept) s = execLaunchAccept s := rfl
@[simp] theorem exec_skeinPlace (l : Nat) (s : State) :
    exec (.skeinPlace l) s = execSkeinPlace l s := rfl
@[simp] theorem exec_skeinReservation (l : Nat) (s : State) :
    exec (.skeinReservation l) s = execSkeinReservation l s := rfl
@[simp] theorem exec_gangReservation (l : Nat) (s : State) :
    exec (.gangReservation l) s = execGangReservation l s := rfl
@[simp] theorem exec_stagingRegionRetire (bd : Nat) (s : State) :
    exec (.stagingRegionRetire bd) s = execStagingRegionRetire bd s := rfl
@[simp] theorem exec_launchComplete (l : Nat) (s : State) :
    exec (.launchComplete l) s = execLaunchComplete l s := rfl
@[simp] theorem exec_continuationStart (k : Nat) (s : State) :
    exec (.continuationStart k) s = execContinuationStart k s := rfl
@[simp] theorem exec_barrierRelease (r : RowId) (s : State) :
    exec (.barrierRelease r) s = execBarrierRelease r s := rfl
@[simp] theorem exec_gbarSlewRelease (l : Nat) (d : DieId) (s : State) :
    exec (.gbarSlewRelease l d) s = execGbarSlewRelease l d s := rfl
@[simp] theorem exec_preemptRequest (bd : Nat) (s : State) :
    exec (.preemptRequest bd) s = execPreemptRequest bd s := rfl
@[simp] theorem exec_streamStarved (r : RowId) (s : State) :
    exec (.streamStarved r) s = execStreamStarved r s := rfl
@[simp] theorem exec_monitorTrapDispatch (g : CoreId) (s : State) :
    exec (.monitorTrapDispatch g) s = execMonitorTrapDispatch g s := rfl
@[simp] theorem exec_handlerInstructionLimit (g : CoreId) (s : State) :
    exec (.handlerInstructionLimit g) s = execHandlerInstructionLimit g s := rfl
@[simp] theorem exec_pcSample (g : CoreId) (p : Nat) (s : State) :
    exec (.pcSample g p) s = execPcSample g p s := rfl
@[simp] theorem exec_tracePortSend (d : DieId) (s : State) :
    exec (.tracePortSend d) s = execTracePortSend d s := rfl
@[simp] theorem exec_illegalWalkerWord (cl : ClusterId) (s : State) :
    exec (.illegalWalkerWord cl) s = execIllegalWalkerWord cl s := rfl
@[simp] theorem exec_instructionFetchComplete (r : RowId) (s : State) :
    exec (.instructionFetchComplete r) s = execInstructionFetchComplete r s := rfl
@[simp] theorem exec_evsigUpdatePerformed (r : RowId) (s : State) :
    exec (.evsigUpdatePerformed r) s = execEvsigUpdatePerformed r s := rfl
@[simp] theorem exec_lnchBlockTaken (r : RowId) (s : State) :
    exec (.lnchBlockTaken r) s = execLnchBlockTaken r s := rfl

end Sys2Proof.Machine
end

