-- ==== Sys2Proof/Laws/PerInstr.lean ====
section
/-! SUPPORT. Per instruction: which instructions have a word. -/
namespace Sys2Proof.Laws
open Sys2Proof Sys2Proof.Machine

/-- An instruction has a word unless it is an event or a word that is no instruction. -/
def WordOf.Statement (i : Instr) : Prop := encode i = none ↔ isEvent i = true ∨ ∃ n, i = .illegalEncoding n

/-- What the cases below come to for an instruction with a word. -/
theorem WordOf.of_some {i : Instr} {w : Word} (h : encode i = some w) (he : isEvent i = false) (hn : ∀ n, i ≠ .illegalEncoding n) :
    WordOf.Statement i := by simp [WordOf.Statement, h, he, hn]

/-- What the cases below come to for an event. -/
theorem WordOf.of_none {i : Instr} (h : encode i = none) (he : isEvent i = true) : WordOf.Statement i := by simp [WordOf.Statement, h, he]

theorem WordOf.imx (p) : WordOf.Statement (.imx p) := WordOf.of_some rfl rfl nofun
theorem WordOf.rep (c) (d) (a) (b) : WordOf.Statement (.rep c d a b) := WordOf.of_some rfl rfl nofun
theorem WordOf.mod (r) (s) (t) (w) : WordOf.Statement (.mod r s t w) := WordOf.of_some rfl rfl nofun
theorem WordOf.schd (l) (y) : WordOf.Statement (.schd l y) := WordOf.of_some rfl rfl nofun
theorem WordOf.sadd (d) (a) (b) (ta) (tb) : WordOf.Statement (.sadd d a b ta tb) := WordOf.of_some rfl rfl nofun
theorem WordOf.ssub (d) (a) (b) (ta) (tb) : WordOf.Statement (.ssub d a b ta tb) := WordOf.of_some rfl rfl nofun
theorem WordOf.smul (d) (a) (b) (ta) (tb) : WordOf.Statement (.smul d a b ta tb) := WordOf.of_some rfl rfl nofun
theorem WordOf.smulh (d) (a) (b) (ta) (tb) (u) : WordOf.Statement (.smulh d a b ta tb u) := WordOf.of_some rfl rfl nofun
theorem WordOf.sdiv (d) (a) (b) (ta) (tb) (u) : WordOf.Statement (.sdiv d a b ta tb u) := WordOf.of_some rfl rfl nofun
theorem WordOf.srem (d) (a) (b) (ta) (tb) (u) : WordOf.Statement (.srem d a b ta tb u) := WordOf.of_some rfl rfl nofun
theorem WordOf.sand (d) (a) (b) (ta) (tb) : WordOf.Statement (.sand d a b ta tb) := WordOf.of_some rfl rfl nofun
theorem WordOf.sor (d) (a) (b) (ta) (tb) : WordOf.Statement (.sor d a b ta tb) := WordOf.of_some rfl rfl nofun
theorem WordOf.sxor (d) (a) (b) (ta) (tb) : WordOf.Statement (.sxor d a b ta tb) := WordOf.of_some rfl rfl nofun
theorem WordOf.sshl (d) (a) (b) (ta) (tb) : WordOf.Statement (.sshl d a b ta tb) := WordOf.of_some rfl rfl nofun
theorem WordOf.sshr (d) (a) (b) (ta) (tb) (u) : WordOf.Statement (.sshr d a b ta tb u) := WordOf.of_some rfl rfl nofun
theorem WordOf.smin (d) (a) (b) (ta) (tb) (u) : WordOf.Statement (.smin d a b ta tb u) := WordOf.of_some rfl rfl nofun
theorem WordOf.smax (d) (a) (b) (ta) (tb) (u) : WordOf.Statement (.smax d a b ta tb u) := WordOf.of_some rfl rfl nofun
theorem WordOf.scmp (d) (a) (b) (ta) (tb) (u) (c) : WordOf.Statement (.scmp d a b ta tb u c) := WordOf.of_some rfl rfl nofun
theorem WordOf.ssel (d) (a) (b) (ta) (tb) (c) : WordOf.Statement (.ssel d a b ta tb c) := WordOf.of_some rfl rfl nofun
theorem WordOf.saddi (d) (a) (i) : WordOf.Statement (.saddi d a i) := WordOf.of_some rfl rfl nofun
theorem WordOf.sandi (d) (a) (i) : WordOf.Statement (.sandi d a i) := WordOf.of_some rfl rfl nofun
theorem WordOf.sori (d) (a) (i) : WordOf.Statement (.sori d a i) := WordOf.of_some rfl rfl nofun
theorem WordOf.sxori (d) (a) (i) : WordOf.Statement (.sxori d a i) := WordOf.of_some rfl rfl nofun
theorem WordOf.sshli (d) (a) (n) : WordOf.Statement (.sshli d a n) := WordOf.of_some rfl rfl nofun
theorem WordOf.sshri (d) (a) (k) (n) : WordOf.Statement (.sshri d a k n) := WordOf.of_some rfl rfl nofun
theorem WordOf.sli (d) (i) : WordOf.Statement (.sli d i) := WordOf.of_some rfl rfl nofun
theorem WordOf.spopc (d) (a) (ta) : WordOf.Statement (.spopc d a ta) := WordOf.of_some rfl rfl nofun
theorem WordOf.sclz (d) (a) (ta) : WordOf.Statement (.sclz d a ta) := WordOf.of_some rfl rfl nofun
theorem WordOf.smov (d) (a) (ta) : WordOf.Statement (.smov d a ta) := WordOf.of_some rfl rfl nofun
theorem WordOf.bra (o) : WordOf.Statement (.bra o) := WordOf.of_some rfl rfl nofun
theorem WordOf.bz (a) (o) : WordOf.Statement (.bz a o) := WordOf.of_some rfl rfl nofun
theorem WordOf.bnz (a) (o) : WordOf.Statement (.bnz a o) := WordOf.of_some rfl rfl nofun
theorem WordOf.call (o) : WordOf.Statement (.call o) := WordOf.of_some rfl rfl nofun
theorem WordOf.ret (a) (ta) : WordOf.Statement (.ret a ta) := WordOf.of_some rfl rfl nofun
theorem WordOf.jmpr (a) (ta) : WordOf.Statement (.jmpr a ta) := WordOf.of_some rfl rfl nofun
theorem WordOf.exit : WordOf.Statement (.exit) := WordOf.of_some rfl rfl nofun
theorem WordOf.yield : WordOf.Statement (.yield) := WordOf.of_some rfl rfl nofun
theorem WordOf.nop : WordOf.Statement (.nop) := WordOf.of_some rfl rfl nofun
theorem WordOf.ifm (k) (o) : WordOf.Statement (.ifm k o) := WordOf.of_some rfl rfl nofun
theorem WordOf.elsem (o) : WordOf.Statement (.elsem o) := WordOf.of_some rfl rfl nofun
theorem WordOf.endifm : WordOf.Statement (.endifm) := WordOf.of_some rfl rfl nofun
theorem WordOf.loopm (o) : WordOf.Statement (.loopm o) := WordOf.of_some rfl rfl nofun
theorem WordOf.brkm (k) (o) : WordOf.Statement (.brkm k o) := WordOf.of_some rfl rfl nofun
theorem WordOf.endl (o) : WordOf.Statement (.endl o) := WordOf.of_some rfl rfl nofun
theorem WordOf.vadd (d) (a) (b) (m) (ta) (tb) (u) : WordOf.Statement (.vadd d a b m ta tb u) := WordOf.of_some rfl rfl nofun
theorem WordOf.vsub (d) (a) (b) (m) (ta) (tb) (u) : WordOf.Statement (.vsub d a b m ta tb u) := WordOf.of_some rfl rfl nofun
theorem WordOf.vmul (d) (a) (b) (m) (ta) (tb) (u) : WordOf.Statement (.vmul d a b m ta tb u) := WordOf.of_some rfl rfl nofun
theorem WordOf.vmulh (d) (a) (b) (m) (ta) (tb) (u) : WordOf.Statement (.vmulh d a b m ta tb u) := WordOf.of_some rfl rfl nofun
theorem WordOf.vmad (d) (a) (b) (m) (ta) (tb) (u) : WordOf.Statement (.vmad d a b m ta tb u) := WordOf.of_some rfl rfl nofun
theorem WordOf.vabs (d) (a) (m) (ta) : WordOf.Statement (.vabs d a m ta) := WordOf.of_some rfl rfl nofun
theorem WordOf.vmin (d) (a) (b) (m) (ta) (tb) (u) : WordOf.Statement (.vmin d a b m ta tb u) := WordOf.of_some rfl rfl nofun
theorem WordOf.vmax (d) (a) (b) (m) (ta) (tb) (u) : WordOf.Statement (.vmax d a b m ta tb u) := WordOf.of_some rfl rfl nofun
theorem WordOf.vand (d) (a) (b) (m) (ta) (tb) : WordOf.Statement (.vand d a b m ta tb) := WordOf.of_some rfl rfl nofun
theorem WordOf.vor (d) (a) (b) (m) (ta) (tb) : WordOf.Statement (.vor d a b m ta tb) := WordOf.of_some rfl rfl nofun
theorem WordOf.vxor (d) (a) (b) (m) (ta) (tb) : WordOf.Statement (.vxor d a b m ta tb) := WordOf.of_some rfl rfl nofun
theorem WordOf.vandn (d) (a) (b) (m) (ta) (tb) : WordOf.Statement (.vandn d a b m ta tb) := WordOf.of_some rfl rfl nofun
theorem WordOf.vshl (d) (a) (b) (m) (ta) (tb) : WordOf.Statement (.vshl d a b m ta tb) := WordOf.of_some rfl rfl nofun
theorem WordOf.vshr (d) (a) (b) (m) (ta) (tb) (u) : WordOf.Statement (.vshr d a b m ta tb u) := WordOf.of_some rfl rfl nofun
theorem WordOf.vshli (d) (a) (n) (m) (ta) : WordOf.Statement (.vshli d a n m ta) := WordOf.of_some rfl rfl nofun
theorem WordOf.vshri (d) (a) (n) (m) (ta) (u) : WordOf.Statement (.vshri d a n m ta u) := WordOf.of_some rfl rfl nofun
theorem WordOf.vaddi (d) (a) (i) : WordOf.Statement (.vaddi d a i) := WordOf.of_some rfl rfl nofun
theorem WordOf.vcmp (d) (a) (b) (m) (ta) (tb) (u) (c) : WordOf.Statement (.vcmp d a b m ta tb u c) := WordOf.of_some rfl rfl nofun
theorem WordOf.vcmpi (d) (a) (i) (m) (ta) (u) (c) : WordOf.Statement (.vcmpi d a i m ta u c) := WordOf.of_some rfl rfl nofun
theorem WordOf.vsel (d) (a) (b) (m) (ta) (tb) (c) : WordOf.Statement (.vsel d a b m ta tb c) := WordOf.of_some rfl rfl nofun
theorem WordOf.vpopc (d) (a) (m) (ta) : WordOf.Statement (.vpopc d a m ta) := WordOf.of_some rfl rfl nofun
theorem WordOf.vclz (d) (a) (m) (ta) : WordOf.Statement (.vclz d a m ta) := WordOf.of_some rfl rfl nofun
theorem WordOf.vmov (d) (a) (m) (ta) : WordOf.Statement (.vmov d a m ta) := WordOf.of_some rfl rfl nofun
theorem WordOf.vmovs (d) (a) (m) (ta) : WordOf.Statement (.vmovs d a m ta) := WordOf.of_some rfl rfl nofun
theorem WordOf.vli (d) (i) : WordOf.Statement (.vli d i) := WordOf.of_some rfl rfl nofun
theorem WordOf.vsatn (d) (a) (m) (ta) (f) : WordOf.Statement (.vsatn d a m ta f) := WordOf.of_some rfl rfl nofun
theorem WordOf.vdot4 (d) (a) (b) (m) (ta) (tb) (u) : WordOf.Statement (.vdot4 d a b m ta tb u) := WordOf.of_some rfl rfl nofun
theorem WordOf.vfadd (d) (a) (b) (m) (ta) (tb) : WordOf.Statement (.vfadd d a b m ta tb) := WordOf.of_some rfl rfl nofun
theorem WordOf.vfsub (d) (a) (b) (m) (ta) (tb) : WordOf.Statement (.vfsub d a b m ta tb) := WordOf.of_some rfl rfl nofun
theorem WordOf.vfmul (d) (a) (b) (m) (ta) (tb) : WordOf.Statement (.vfmul d a b m ta tb) := WordOf.of_some rfl rfl nofun
theorem WordOf.vfma (d) (a) (b) (m) (ta) (tb) : WordOf.Statement (.vfma d a b m ta tb) := WordOf.of_some rfl rfl nofun
theorem WordOf.vfmin (d) (a) (b) (m) (ta) (tb) : WordOf.Statement (.vfmin d a b m ta tb) := WordOf.of_some rfl rfl nofun
theorem WordOf.vfmax (d) (a) (b) (m) (ta) (tb) : WordOf.Statement (.vfmax d a b m ta tb) := WordOf.of_some rfl rfl nofun
theorem WordOf.vfsgn (d) (a) (b) (m) (ta) (tb) (f) : WordOf.Statement (.vfsgn d a b m ta tb f) := WordOf.of_some rfl rfl nofun
theorem WordOf.vfrcp (d) (a) (m) (ta) : WordOf.Statement (.vfrcp d a m ta) := WordOf.of_some rfl rfl nofun
theorem WordOf.vfrsq (d) (a) (m) (ta) : WordOf.Statement (.vfrsq d a m ta) := WordOf.of_some rfl rfl nofun
theorem WordOf.vfsqrt (d) (a) (m) (ta) : WordOf.Statement (.vfsqrt d a m ta) := WordOf.of_some rfl rfl nofun
theorem WordOf.vfdiv (d) (a) (b) (m) (ta) (tb) : WordOf.Statement (.vfdiv d a b m ta tb) := WordOf.of_some rfl rfl nofun
theorem WordOf.vfexp2 (d) (a) (m) (ta) : WordOf.Statement (.vfexp2 d a m ta) := WordOf.of_some rfl rfl nofun
theorem WordOf.vflog2 (d) (a) (m) (ta) : WordOf.Statement (.vflog2 d a m ta) := WordOf.of_some rfl rfl nofun
theorem WordOf.vfcmp (d) (a) (b) (m) (ta) (tb) (c) : WordOf.Statement (.vfcmp d a b m ta tb c) := WordOf.of_some rfl rfl nofun
theorem WordOf.vfclass (d) (a) (m) (ta) : WordOf.Statement (.vfclass d a m ta) := WordOf.of_some rfl rfl nofun
theorem WordOf.vfrnd (d) (a) (m) (ta) : WordOf.Statement (.vfrnd d a m ta) := WordOf.of_some rfl rfl nofun
theorem WordOf.vfscl (d) (a) (b) (m) (ta) (tb) : WordOf.Statement (.vfscl d a b m ta tb) := WordOf.of_some rfl rfl nofun
theorem WordOf.vhadd (d) (a) (b) (m) (ta) (tb) (bf) : WordOf.Statement (.vhadd d a b m ta tb bf) := WordOf.of_some rfl rfl nofun
theorem WordOf.vhmul (d) (a) (b) (m) (ta) (tb) (bf) : WordOf.Statement (.vhmul d a b m ta tb bf) := WordOf.of_some rfl rfl nofun
theorem WordOf.vhfma (d) (a) (b) (m) (ta) (tb) (bf) : WordOf.Statement (.vhfma d a b m ta tb bf) := WordOf.of_some rfl rfl nofun
theorem WordOf.vcvt (d) (a) (h) (s) (m) (ta) (f) : WordOf.Statement (.vcvt d a h s m ta f) := WordOf.of_some rfl rfl nofun
theorem WordOf.vcvts (d) (a) (b) (m) (ta) (tb) (f) : WordOf.Statement (.vcvts d a b m ta tb f) := WordOf.of_some rfl rfl nofun
theorem WordOf.vshfl (d) (a) (b) (m) (ta) (tb) (f) : WordOf.Statement (.vshfl d a b m ta tb f) := WordOf.of_some rfl rfl nofun
theorem WordOf.vbcst (d) (a) (b) (m) (ta) (tb) : WordOf.Statement (.vbcst d a b m ta tb) := WordOf.of_some rfl rfl nofun
theorem WordOf.vred (d) (a) (m) (ta) (p) (y) : WordOf.Statement (.vred d a m ta p y) := WordOf.of_some rfl rfl nofun
theorem WordOf.vscan (d) (a) (m) (ta) (p) (y) : WordOf.Statement (.vscan d a m ta p y) := WordOf.of_some rfl rfl nofun
theorem WordOf.vcprs (d) (a) (m) (ta) : WordOf.Statement (.vcprs d a m ta) := WordOf.of_some rfl rfl nofun
theorem WordOf.vexpd (d) (a) (m) (ta) : WordOf.Statement (.vexpd d a m ta) := WordOf.of_some rfl rfl nofun
theorem WordOf.mpopc (d) (a) (m) (f) : WordOf.Statement (.mpopc d a m f) := WordOf.of_some rfl rfl nofun
theorem WordOf.vtos (d) (a) (b) (ta) (tb) (sx) : WordOf.Statement (.vtos d a b ta tb sx) := WordOf.of_some rfl rfl nofun
theorem WordOf.stov (d) (a) (b) (m) (ta) (tb) : WordOf.Statement (.stov d a b m ta tb) := WordOf.of_some rfl rfl nofun
theorem WordOf.mlog (d) (a) (b) (f) : WordOf.Statement (.mlog d a b f) := WordOf.of_some rfl rfl nofun
theorem WordOf.mmovsMS (d) (a) : WordOf.Statement (.mmovsMS d a) := WordOf.of_some rfl rfl nofun
theorem WordOf.mmovsSM (d) (a) (ta) : WordOf.Statement (.mmovsSM d a ta) := WordOf.of_some rfl rfl nofun
theorem WordOf.ldv (d) (s) (m) (o) : WordOf.Statement (.ldv d s m o) := WordOf.of_some rfl rfl nofun
theorem WordOf.stv (d) (s) (m) (o) : WordOf.Statement (.stv d s m o) := WordOf.of_some rfl rfl nofun
theorem WordOf.ldvs (d) (s) (x) (m) (o) : WordOf.Statement (.ldvs d s x m o) := WordOf.of_some rfl rfl nofun
theorem WordOf.stvs (d) (s) (x) (m) (o) : WordOf.Statement (.stvs d s x m o) := WordOf.of_some rfl rfl nofun
theorem WordOf.ldvx (d) (s) (x) (m) (c) (o) : WordOf.Statement (.ldvx d s x m c o) := WordOf.of_some rfl rfl nofun
theorem WordOf.stvx (d) (s) (x) (m) (c) (o) : WordOf.Statement (.stvx d s x m c o) := WordOf.of_some rfl rfl nofun
theorem WordOf.lds (d) (s) (o) : WordOf.Statement (.lds d s o) := WordOf.of_some rfl rfl nofun
theorem WordOf.sts (d) (s) (o) : WordOf.Statement (.sts d s o) := WordOf.of_some rfl rfl nofun
theorem WordOf.rldv (d) (s) (m) (o) : WordOf.Statement (.rldv d s m o) := WordOf.of_some rfl rfl nofun
theorem WordOf.rstv (d) (s) (m) (o) : WordOf.Statement (.rstv d s m o) := WordOf.of_some rfl rfl nofun
theorem WordOf.atom (d) (a) (b) (m) (ord) (sc) (p) : WordOf.Statement (.atom d a b m ord sc p) := WordOf.of_some rfl rfl nofun
theorem WordOf.ratom (d) (a) (b) (m) (ord) (rt) (p) : WordOf.Statement (.ratom d a b m ord rt p) := WordOf.of_some rfl rfl nofun
theorem WordOf.tak2 (d) (m) (ta) (w) : WordOf.Statement (.tak2 d m ta w) := WordOf.of_some rfl rfl nofun
theorem WordOf.put2 (a) (b) (m) (ta) (tb) : WordOf.Statement (.put2 a b m ta tb) := WordOf.of_some rfl rfl nofun
theorem WordOf.pqry (d) : WordOf.Statement (.pqry d) := WordOf.of_some rfl rfl nofun
theorem WordOf.shape (d) (a) (ta) : WordOf.Statement (.shape d a ta) := WordOf.of_some rfl rfl nofun
theorem WordOf.mgat (d) (s) (m) (o) : WordOf.Statement (.mgat d s m o) := WordOf.of_some rfl rfl nofun
theorem WordOf.mlat (s) (m) (o) : WordOf.Statement (.mlat s m o) := WordOf.of_some rfl rfl nofun
theorem WordOf.mma (a) (b) (m) (ta) (tb) (zp) : WordOf.Statement (.mma a b m ta tb zp) := WordOf.of_some rfl rfl nofun
theorem WordOf.mmas (d) (a) (b) (m) (ta) (tb) (zp) : WordOf.Statement (.mmas d a b m ta tb zp) := WordOf.of_some rfl rfl nofun
theorem WordOf.mwl (s) (m) (o) : WordOf.Statement (.mwl s m o) := WordOf.of_some rfl rfl nofun
theorem WordOf.mwf (a) (b) (m) (ta) (tb) : WordOf.Statement (.mwf a b m ta tb) := WordOf.of_some rfl rfl nofun
theorem WordOf.mwb (a) (b) (m) (ta) (tb) : WordOf.Statement (.mwb a b m ta tb) := WordOf.of_some rfl rfl nofun
theorem WordOf.mclr (m) (f) : WordOf.Statement (.mclr m f) := WordOf.of_some rfl rfl nofun
theorem WordOf.msca (a) (b) (m) (ta) (tb) : WordOf.Statement (.msca a b m ta tb) := WordOf.of_some rfl rfl nofun
theorem WordOf.mdrn (d) (a) (b) (m) (ta) (tb) (f) : WordOf.Statement (.mdrn d a b m ta tb f) := WordOf.of_some rfl rfl nofun
theorem WordOf.mmovpGP (d) (m) : WordOf.Statement (.mmovpGP d m) := WordOf.of_some rfl rfl nofun
theorem WordOf.mmovpGA (d) (m) : WordOf.Statement (.mmovpGA d m) := WordOf.of_some rfl rfl nofun
theorem WordOf.mmovpSP (a) (m) (ta) : WordOf.Statement (.mmovpSP a m ta) := WordOf.of_some rfl rfl nofun
theorem WordOf.mmovpSA (a) (m) (ta) : WordOf.Statement (.mmovpSA a m ta) := WordOf.of_some rfl rfl nofun
theorem WordOf.mpack (d) (a) (b) (ta) (tb) : WordOf.Statement (.mpack d a b ta tb) := WordOf.of_some rfl rfl nofun
theorem WordOf.munpk (a) (b) (ta) (tb) : WordOf.Statement (.munpk a b ta tb) := WordOf.of_some rfl rfl nofun
theorem WordOf.cardck (d) (a) (ta) : WordOf.Statement (.cardck d a ta) := WordOf.of_some rfl rfl nofun
theorem WordOf.qpack (d) (a) (b) (ta) (tb) : WordOf.Statement (.qpack d a b ta tb) := WordOf.of_some rfl rfl nofun
theorem WordOf.shcp (d) (a) (b) (bar) (d3) : WordOf.Statement (.shcp d a b bar d3) := WordOf.of_some rfl rfl nofun
theorem WordOf.shtr (d) (a) (exp) (bar) (sp) : WordOf.Statement (.shtr d a exp bar sp) := WordOf.of_some rfl rfl nofun
theorem WordOf.shset (d) (a) (b) (z) (bar) (d3) : WordOf.Statement (.shset d a b z bar d3) := WordOf.of_some rfl rfl nofun
theorem WordOf.gath (d) (a) (b) (bar) (ixr) : WordOf.Statement (.gath d a b bar ixr) := WordOf.of_some rfl rfl nofun
theorem WordOf.scat (d) (a) (b) (bar) (ixr) : WordOf.Statement (.scat d a b bar ixr) := WordOf.of_some rfl rfl nofun
theorem WordOf.sred (d) (a) (b) (p) (ord) (bar) (ixr) : WordOf.Statement (.sred d a b p ord bar ixr) := WordOf.of_some rfl rfl nofun
theorem WordOf.wkst (d) (a) (rl) (bar) : WordOf.Statement (.wkst d a rl bar) := WordOf.of_some rfl rfl nofun
theorem WordOf.nput (d) (a) : WordOf.Statement (.nput d a) := WordOf.of_some rfl rfl nofun
theorem WordOf.nget (d) (a) (bar) : WordOf.Statement (.nget d a bar) := WordOf.of_some rfl rfl nofun
theorem WordOf.nred (d) (a) (p) : WordOf.Statement (.nred d a p) := WordOf.of_some rfl rfl nofun
theorem WordOf.nsig (d) (a) (st) : WordOf.Statement (.nsig d a st) := WordOf.of_some rfl rfl nofun
theorem WordOf.seal (d) (c) : WordOf.Statement (.seal d c) := WordOf.of_some rfl rfl nofun
theorem WordOf.wait (d) (c) (n) : WordOf.Statement (.wait d c n) := WordOf.of_some rfl rfl nofun
theorem WordOf.wstat (d) (a) (c) (addr) : WordOf.Statement (.wstat d a c addr) := WordOf.of_some rfl rfl nofun
theorem WordOf.binit (a) (b) (ta) (tb) : WordOf.Statement (.binit a b ta tb) := WordOf.of_some rfl rfl nofun
theorem WordOf.barv (d) (a) (ta) : WordOf.Statement (.barv d a ta) := WordOf.of_some rfl rfl nofun
theorem WordOf.barx (d) (a) (ta) : WordOf.Statement (.barx d a ta) := WordOf.of_some rfl rfl nofun
theorem WordOf.bwait (d) (a) (ta) : WordOf.Statement (.bwait d a ta) := WordOf.of_some rfl rfl nofun
theorem WordOf.bwany (d) (a) (b) (ta) (tb) : WordOf.Statement (.bwany d a b ta tb) := WordOf.of_some rfl rfl nofun
theorem WordOf.bpark (a) (b) (ta) (tb) : WordOf.Statement (.bpark a b ta tb) := WordOf.of_some rfl rfl nofun
theorem WordOf.binv (a) (ta) : WordOf.Statement (.binv a ta) := WordOf.of_some rfl rfl nofun
theorem WordOf.fence (s) : WordOf.Statement (.fence s) := WordOf.of_some rfl rfl nofun
theorem WordOf.gbar (d) : WordOf.Statement (.gbar d) := WordOf.of_some rfl rfl nofun
theorem WordOf.csrr (d) (c) : WordOf.Statement (.csrr d c) := WordOf.of_some rfl rfl nofun
theorem WordOf.csrw (a) (c) : WordOf.Statement (.csrw a c) := WordOf.of_some rfl rfl nofun
theorem WordOf.trap (a) (i) : WordOf.Statement (.trap a i) := WordOf.of_some rfl rfl nofun
theorem WordOf.bkpt (a) (i) : WordOf.Statement (.bkpt a i) := WordOf.of_some rfl rfl nofun
theorem WordOf.lnch (d) (a) : WordOf.Statement (.lnch d a) := WordOf.of_some rfl rfl nofun
theorem WordOf.evsig (d) (a) (st) : WordOf.Statement (.evsig d a st) := WordOf.of_some rfl rfl nofun
theorem WordOf.krdr (d) (a) : WordOf.Statement (.krdr d a) := WordOf.of_some rfl rfl nofun
theorem WordOf.kwrr (a) (b) : WordOf.Statement (.kwrr a b) := WordOf.of_some rfl rfl nofun
theorem WordOf.krsm (a) : WordOf.Statement (.krsm a) := WordOf.of_some rfl rfl nofun
theorem WordOf.kkil (a) : WordOf.Statement (.kkil a) := WordOf.of_some rfl rfl nofun
theorem WordOf.ksav (d) (a) (b) : WordOf.Statement (.ksav d a b) := WordOf.of_some rfl rfl nofun
theorem WordOf.klod (d) (a) (b) : WordOf.Statement (.klod d a b) := WordOf.of_some rfl rfl nofun
theorem WordOf.kret : WordOf.Statement (.kret) := WordOf.of_some rfl rfl nofun
theorem WordOf.wadd (d) (a) (b) : WordOf.Statement (.wadd d a b) := WordOf.of_some rfl rfl nofun
theorem WordOf.wsub (d) (a) (b) : WordOf.Statement (.wsub d a b) := WordOf.of_some rfl rfl nofun
theorem WordOf.wmul (d) (a) (b) : WordOf.Statement (.wmul d a b) := WordOf.of_some rfl rfl nofun
theorem WordOf.wand (d) (a) (b) : WordOf.Statement (.wand d a b) := WordOf.of_some rfl rfl nofun
theorem WordOf.wor (d) (a) (b) : WordOf.Statement (.wor d a b) := WordOf.of_some rfl rfl nofun
theorem WordOf.wxor (d) (a) (b) : WordOf.Statement (.wxor d a b) := WordOf.of_some rfl rfl nofun
theorem WordOf.wshl (d) (a) (b) : WordOf.Statement (.wshl d a b) := WordOf.of_some rfl rfl nofun
theorem WordOf.wshr (d) (a) (b) : WordOf.Statement (.wshr d a b) := WordOf.of_some rfl rfl nofun
theorem WordOf.waddi (d) (a) (i) : WordOf.Statement (.waddi d a i) := WordOf.of_some rfl rfl nofun
theorem WordOf.wli (d) (i) : WordOf.Statement (.wli d i) := WordOf.of_some rfl rfl nofun
theorem WordOf.wld (d) (a) (s) (i) : WordOf.Statement (.wld d a s i) := WordOf.of_some rfl rfl nofun
theorem WordOf.wpref (d) (a) (i) : WordOf.Statement (.wpref d a i) := WordOf.of_some rfl rfl nofun
theorem WordOf.wbcc (a) (b) (c) (o) : WordOf.Statement (.wbcc a b c o) := WordOf.of_some rfl rfl nofun
theorem WordOf.wj (o) : WordOf.Statement (.wj o) := WordOf.of_some rfl rfl nofun
theorem WordOf.wpopc (d) (a) : WordOf.Statement (.wpopc d a) := WordOf.of_some rfl rfl nofun
theorem WordOf.wpfx (d) (a) (b) : WordOf.Statement (.wpfx d a b) := WordOf.of_some rfl rfl nofun
theorem WordOf.isect (d) (a) (b) (e) : WordOf.Statement (.isect d a b e) := WordOf.of_some rfl rfl nofun
theorem WordOf.part (d) (a) (b) (e) : WordOf.Statement (.part d a b e) := WordOf.of_some rfl rfl nofun
theorem WordOf.emit (d) (a) (b) (e) (cr) : WordOf.Statement (.emit d a b e cr) := WordOf.of_some rfl rfl nofun
theorem WordOf.emitz (d) (b) (e) (cr) : WordOf.Statement (.emitz d b e cr) := WordOf.of_some rfl rfl nofun
theorem WordOf.sigb (a) : WordOf.Statement (.sigb a) := WordOf.of_some rfl rfl nofun
theorem WordOf.wend : WordOf.Statement (.wend) := WordOf.of_some rfl rfl nofun
theorem WordOf.illegalEncoding (st) : WordOf.Statement (.illegalEncoding st) := by simp [WordOf.Statement, show encode (.illegalEncoding st) = none from rfl]
theorem WordOf.bringUpStep (ok) (bad) : WordOf.Statement (.bringUpStep ok bad) := WordOf.of_none rfl rfl
theorem WordOf.deviceReset : WordOf.Statement (.deviceReset) := WordOf.of_none rfl rfl
theorem WordOf.walkerCommandStart (cl) : WordOf.Statement (.walkerCommandStart cl) := WordOf.of_none rfl rfl
theorem WordOf.walkerInstructionLimit (cl) : WordOf.Statement (.walkerInstructionLimit cl) := WordOf.of_none rfl rfl
theorem WordOf.walkerLoadData (cl) (line) : WordOf.Statement (.walkerLoadData cl line) := WordOf.of_none rfl rfl
theorem WordOf.walkerEmissionComplete (cl) (n) : WordOf.Statement (.walkerEmissionComplete cl n) := WordOf.of_none rfl rfl
theorem WordOf.producerComplete (r) (n) : WordOf.Statement (.producerComplete r n) := WordOf.of_none rfl rfl
theorem WordOf.remoteWritePerform (r) : WordOf.Statement (.remoteWritePerform r) := WordOf.of_none rfl rfl
theorem WordOf.portEntryArrive (r) : WordOf.Statement (.portEntryArrive r) := WordOf.of_none rfl rfl
theorem WordOf.latchFill (r) : WordOf.Statement (.latchFill r) := WordOf.of_none rfl rfl
theorem WordOf.mwlArrive (r) : WordOf.Statement (.mwlArrive r) := WordOf.of_none rfl rfl
theorem WordOf.streamStep (r) : WordOf.Statement (.streamStep r) := WordOf.of_none rfl rfl
theorem WordOf.streamComplete (r) : WordOf.Statement (.streamComplete r) := WordOf.of_none rfl rfl
theorem WordOf.mscaComplete (r) : WordOf.Statement (.mscaComplete r) := WordOf.of_none rfl rfl
theorem WordOf.translationWalkComplete (k) (asid) (va) : WordOf.Statement (.translationWalkComplete k asid va) := WordOf.of_none rfl rfl
theorem WordOf.shuttleLineComplete (c) (q) (k) (link) : WordOf.Statement (.shuttleLineComplete c q k link) := WordOf.of_none rfl rfl
theorem WordOf.gsElementComplete (c) (p) (link) : WordOf.Statement (.gsElementComplete c p link) := WordOf.of_none rfl rfl
theorem WordOf.sredCombine (c) : WordOf.Statement (.sredCombine c) := WordOf.of_none rfl rfl
theorem WordOf.sredUpdateApply (c) (g) (link) : WordOf.Statement (.sredUpdateApply c g link) := WordOf.of_none rfl rfl
theorem WordOf.networkAck (c) (l) (st) (data) : WordOf.Statement (.networkAck c l st data) := WordOf.of_none rfl rfl
theorem WordOf.networkTimeout (c) : WordOf.Statement (.networkTimeout c) := WordOf.of_none rfl rfl
theorem WordOf.peerAccessArrival (src) (acc) : WordOf.Statement (.peerAccessArrival src acc) := WordOf.of_none rfl rfl
theorem WordOf.peerFlitForward (dst) (data) : WordOf.Statement (.peerFlitForward dst data) := WordOf.of_none rfl rfl
theorem WordOf.nredReceive (c) (frm) (v) (nf) (bad) : WordOf.Statement (.nredReceive c frm v nf bad) := WordOf.of_none rfl rfl
theorem WordOf.peerFlitCrcError (p) : WordOf.Statement (.peerFlitCrcError p) := WordOf.of_none rfl rfl
theorem WordOf.treadleFlitCrcError : WordOf.Statement (.treadleFlitCrcError) := WordOf.of_none rfl rfl
theorem WordOf.hostRead (a) (n) : WordOf.Statement (.hostRead a n) := WordOf.of_none rfl rfl
theorem WordOf.hostWrite (a) (data) : WordOf.Statement (.hostWrite a data) := WordOf.of_none rfl rfl
theorem WordOf.hostReadHoldTimeout : WordOf.Statement (.hostReadHoldTimeout) := WordOf.of_none rfl rfl
theorem WordOf.qtailWrite (q) (v) : WordOf.Statement (.qtailWrite q v) := WordOf.of_none rfl rfl
theorem WordOf.xinvcGo (v) : WordOf.Statement (.xinvcGo v) := WordOf.of_none rfl rfl
theorem WordOf.invalidationDone : WordOf.Statement (.invalidationDone) := WordOf.of_none rfl rfl
theorem WordOf.registerWrite (off) (v) : WordOf.Statement (.registerWrite off v) := WordOf.of_none rfl rfl
theorem WordOf.paceevRead (r) (d) : WordOf.Statement (.paceevRead r d) := WordOf.of_none rfl rfl
theorem WordOf.pacereqWrite (r) (v) : WordOf.Statement (.pacereqWrite r v) := WordOf.of_none rfl rfl
theorem WordOf.rdpoints : WordOf.Statement (.rdpoints) := WordOf.of_none rfl rfl
theorem WordOf.quote : WordOf.Statement (.quote) := WordOf.of_none rfl rfl
theorem WordOf.setcap : WordOf.Statement (.setcap) := WordOf.of_none rfl rfl
theorem WordOf.rdlog : WordOf.Statement (.rdlog) := WordOf.of_none rfl rfl
theorem WordOf.fwchunk : WordOf.Statement (.fwchunk) := WordOf.of_none rfl rfl
theorem WordOf.fwcommit : WordOf.Statement (.fwcommit) := WordOf.of_none rfl rfl
theorem WordOf.mbReset : WordOf.Statement (.mbReset) := WordOf.of_none rfl rfl
theorem WordOf.keystat : WordOf.Statement (.keystat) := WordOf.of_none rfl rfl
theorem WordOf.preempt : WordOf.Statement (.preempt) := WordOf.of_none rfl rfl
theorem WordOf.resume : WordOf.Statement (.resume) := WordOf.of_none rfl rfl
theorem WordOf.endlaunch : WordOf.Statement (.endlaunch) := WordOf.of_none rfl rfl
theorem WordOf.mailboxReply : WordOf.Statement (.mailboxReply) := WordOf.of_none rfl rfl
theorem WordOf.dcmdKrdr (g) : WordOf.Statement (.dcmdKrdr g) := WordOf.of_none rfl rfl
theorem WordOf.dcmdKwrr (g) : WordOf.Statement (.dcmdKwrr g) := WordOf.of_none rfl rfl
theorem WordOf.dcmdKrsm (g) : WordOf.Statement (.dcmdKrsm g) := WordOf.of_none rfl rfl
theorem WordOf.dcmdKkil (g) : WordOf.Statement (.dcmdKkil g) := WordOf.of_none rfl rfl
theorem WordOf.channelRetrain (ch) : WordOf.Statement (.channelRetrain ch) := WordOf.of_none rfl rfl
theorem WordOf.retrainComplete (ch) (ok) : WordOf.Statement (.retrainComplete ch ok) := WordOf.of_none rfl rfl
theorem WordOf.commandParityAlert (ch) (ok) (hist) : WordOf.Statement (.commandParityAlert ch ok hist) := WordOf.of_none rfl rfl
theorem WordOf.patrolScrub (pc) : WordOf.Statement (.patrolScrub pc) := WordOf.of_none rfl rfl
theorem WordOf.stackHighEnter (st) : WordOf.Statement (.stackHighEnter st) := WordOf.of_none rfl rfl
theorem WordOf.stackHighLeave (st) : WordOf.Statement (.stackHighLeave st) := WordOf.of_none rfl rfl
theorem WordOf.packageFreeze (st) : WordOf.Statement (.packageFreeze st) := WordOf.of_none rfl rfl
theorem WordOf.freezeGate : WordOf.Statement (.freezeGate) := WordOf.of_none rfl rfl
theorem WordOf.freezeRelease : WordOf.Statement (.freezeRelease) := WordOf.of_none rfl rfl
theorem WordOf.freezeResume (dur) : WordOf.Statement (.freezeResume dur) := WordOf.of_none rfl rfl
theorem WordOf.junctionThrottle (cl) (lv) : WordOf.Statement (.junctionThrottle cl lv) := WordOf.of_none rfl rfl
theorem WordOf.overcurrent (cl) : WordOf.Statement (.overcurrent cl) := WordOf.of_none rfl rfl
theorem WordOf.overcurrentEnd (cl) : WordOf.Statement (.overcurrentEnd cl) := WordOf.of_none rfl rfl
theorem WordOf.thermalTrip (coolant) : WordOf.Statement (.thermalTrip coolant) := WordOf.of_none rfl rfl
theorem WordOf.arbiterRound : WordOf.Statement (.arbiterRound) := WordOf.of_none rfl rfl
theorem WordOf.paceSwitch (cl) : WordOf.Statement (.paceSwitch cl) := WordOf.of_none rfl rfl
theorem WordOf.paceSwitchComplete (cl) : WordOf.Statement (.paceSwitchComplete cl) := WordOf.of_none rfl rfl
theorem WordOf.paceChangeAbandon (cl) : WordOf.Statement (.paceChangeAbandon cl) := WordOf.of_none rfl rfl
theorem WordOf.paceHnApply : WordOf.Statement (.paceHnApply) := WordOf.of_none rfl rfl
theorem WordOf.rationMeasure (cl) (mw) : WordOf.Statement (.rationMeasure cl mw) := WordOf.of_none rfl rfl
theorem WordOf.watchdog (r) : WordOf.Statement (.watchdog r) := WordOf.of_none rfl rfl
theorem WordOf.yieldIntervalEnd (r) : WordOf.Statement (.yieldIntervalEnd r) := WordOf.of_none rfl rfl
theorem WordOf.eventSlotPoll (q) : WordOf.Statement (.eventSlotPoll q) := WordOf.of_none rfl rfl
theorem WordOf.launchAccept : WordOf.Statement (.launchAccept) := WordOf.of_none rfl rfl
theorem WordOf.skeinPlace (l) : WordOf.Statement (.skeinPlace l) := WordOf.of_none rfl rfl
theorem WordOf.skeinReservation (l) : WordOf.Statement (.skeinReservation l) := WordOf.of_none rfl rfl
theorem WordOf.gangReservation (l) : WordOf.Statement (.gangReservation l) := WordOf.of_none rfl rfl
theorem WordOf.stagingRegionRetire (bd) : WordOf.Statement (.stagingRegionRetire bd) := WordOf.of_none rfl rfl
theorem WordOf.launchComplete (l) : WordOf.Statement (.launchComplete l) := WordOf.of_none rfl rfl
theorem WordOf.continuationStart (k) : WordOf.Statement (.continuationStart k) := WordOf.of_none rfl rfl
theorem WordOf.barrierRelease (r) : WordOf.Statement (.barrierRelease r) := WordOf.of_none rfl rfl
theorem WordOf.gbarSlewRelease (l) (d) : WordOf.Statement (.gbarSlewRelease l d) := WordOf.of_none rfl rfl
theorem WordOf.preemptRequest (bd) : WordOf.Statement (.preemptRequest bd) := WordOf.of_none rfl rfl
theorem WordOf.streamStarved (r) : WordOf.Statement (.streamStarved r) := WordOf.of_none rfl rfl
theorem WordOf.monitorTrapDispatch (g) : WordOf.Statement (.monitorTrapDispatch g) := WordOf.of_none rfl rfl
theorem WordOf.handlerInstructionLimit (g) : WordOf.Statement (.handlerInstructionLimit g) := WordOf.of_none rfl rfl
theorem WordOf.pcSample (g) (p) : WordOf.Statement (.pcSample g p) := WordOf.of_none rfl rfl
theorem WordOf.tracePortSend (d) : WordOf.Statement (.tracePortSend d) := WordOf.of_none rfl rfl
theorem WordOf.illegalWalkerWord (cl) : WordOf.Statement (.illegalWalkerWord cl) := WordOf.of_none rfl rfl
theorem WordOf.instructionFetchComplete (r) : WordOf.Statement (.instructionFetchComplete r) := WordOf.of_none rfl rfl
theorem WordOf.evsigUpdatePerformed (r) : WordOf.Statement (.evsigUpdatePerformed r) := WordOf.of_none rfl rfl
theorem WordOf.lnchBlockTaken (r) : WordOf.Statement (.lnchBlockTaken r) := WordOf.of_none rfl rfl

end Sys2Proof.Laws
end

