-- ==== Sys2Proof/Laws/Trace.lean ====
section
/-! SUPPORT. What a trace record and the taking of a trap change. -/
namespace Sys2Proof.Machine

variable {s : State} {r : RowId} {x : Row}

/-! ### Trace records (R451) -/

@[simp] theorem modDie_mem (d : DieId) (f : Die → Die) : (s.modDie d f).mem = s.mem := rfl

theorem putTrace_frame (g : CoreId) (o : Option RowId) (ty lo hi : Nat) :
    ∃ m d, putTrace s g o ty lo hi = { s with mem := m, dies := d } := ⟨_, _, by simp only [putTrace, State.modDie]; rfl⟩

theorem dropTrace_frame (d : DieId) : ∃ e, dropTrace s d = { s with dies := e } :=
  ⟨_, by simp only [dropTrace, State.modDie]; rfl⟩

theorem dropTrace_mem (d : DieId) : (dropTrace s d).mem = s.mem := by simp only [dropTrace, modDie_mem]

/-- A trace record changes memory and the registers of a die, nothing else. -/
theorem traceRecord_frame (l : Nat) (g : CoreId) (o : Option RowId) (ty lo hi : Nat) :
    ∃ m d, traceRecord s l g o ty lo hi = { s with mem := m, dies := d } := by
  unfold traceRecord
  split
  · exact ⟨_, _, rfl⟩
  · simp only []
    split
    · exact ⟨_, _, rfl⟩
    · split
      · obtain ⟨d, h⟩ := dropTrace_frame (s := s) (dieOf g)
        exact ⟨_, _, h⟩
      · split
        · exact putTrace_frame g o ty lo hi
        · obtain ⟨m, d, h⟩ := putTrace_frame (s := s) g none 8 (s.die (dieOf g)).trLost 0
          rw [h]
          split
          · obtain ⟨e, h⟩ := dropTrace_frame
              (s := State.modDie { s with mem := m, dies := d } (dieOf g) (fun k => { k with trLost := 0 })) (dieOf g)
            exact ⟨_, _, h⟩
          · obtain ⟨n, e, h⟩ := putTrace_frame
              (s := State.modDie { s with mem := m, dies := d } (dieOf g) (fun k => { k with trLost := 0 })) g o ty lo hi
            exact ⟨_, _, h⟩

theorem traceBytes_length (ty : Nat) (g : CoreId) (o : Option RowId) (q : BitVec 32) (c : Dword) (lo hi : Nat) :
    (traceBytes ty g o q c lo hi).length = 32 := by simp [traceBytes, leBytes_length]

theorem putTrace_wf (g : CoreId) (o : Option RowId) (ty lo hi : Nat) (h : s.mem.wf = true) :
    (putTrace s g o ty lo hi).mem.wf = true := by
  simp only [putTrace, modDie_mem]
  exact memWrite_wf _ _ _ h

theorem putTrace_mem (g : CoreId) (o : Option RowId) (ty lo hi : Nat) (h : s.mem.wf = true) (k : Nat) (hk : untraced g k) :
    memGet (putTrace s g o ty lo hi).mem k = memGet s.mem k := by
  simp only [putTrace, modDie_mem]
  rw [memGet_memWrite _ _ _ _ h, traceBytes_length, if_neg]
  have : (s.die (dieOf g)).trWr.toNat % traceCap < 131072 := Nat.mod_lt _ (by decide)
  unfold untraced dieKey at hk
  unfold dieKey
  omega

/-- A trace record keeps the form of memory, and every byte outside the trace buffer of the core's die. -/
theorem traceRecord_mem (l : Nat) (g : CoreId) (o : Option RowId) (ty lo hi : Nat) (h : s.mem.wf = true) :
    (traceRecord s l g o ty lo hi).mem.wf = true ∧
      ∀ k, untraced g k → memGet (traceRecord s l g o ty lo hi).mem k = memGet s.mem k := by
  unfold traceRecord
  split
  · exact ⟨h, fun _ _ => rfl⟩
  · simp only []
    split
    · exact ⟨h, fun _ _ => rfl⟩
    · split
      · rw [dropTrace_mem]; exact ⟨h, fun _ _ => rfl⟩
      · split
        · exact ⟨putTrace_wf _ _ _ _ _ h, putTrace_mem _ _ _ _ _ h⟩
        · have h1 := putTrace_wf (s := s) g none 8 (s.die (dieOf g)).trLost 0 h
          have h2 := putTrace_mem (s := s) g none 8 (s.die (dieOf g)).trLost 0 h
          split
          · rw [dropTrace_mem, modDie_mem]; exact ⟨h1, h2⟩
          · refine ⟨putTrace_wf _ _ _ _ _ (by rw [modDie_mem]; exact h1), fun k hk => ?_⟩
            rw [putTrace_mem _ _ _ _ _ (by rw [modDie_mem]; exact h1) k hk, modDie_mem]
            exact h2 k hk

/-! ### Traps (R11, R398) -/

/-- The row that has taken a trap. -/
def trappedRow (s : State) (r : RowId) (x : Row) (cause detail : Byte) (code : BitVec 14) (targ : Dword) : Row :=
  { x.leaveWait with ctl := { x.leaveWait.ctl with
      trap := some ⟨cause, detail, code, targ, x.ibuf.getD 0, (s.core r.core).cycle⟩
      wait := none
      gather := (0, 0) } }.seePace s r.core

/-- The state with row r trapped, in its place in the queue of its core. -/
def trapQueued (s : State) (r : RowId) (y : Row) : State :=
  (s.setRow r y).modCore r.core (fun k => { k with trapQ := queueTrap (s.setRow r y) r (s.core r.core).cycle k.trapQ })

/-- Taking a trap changes the row, the queue of its core, memory and the registers of a die, nothing else. -/
theorem takeTrap_frame (cause detail : Byte) (code : BitVec 14) (targ : Dword) :
    ∃ m d, takeTrap s r x cause detail code targ =
      { trapQueued s r (trappedRow s r x cause detail code targ) with
        mem := m
        dies := d } := by
  unfold takeTrap
  simp only []
  split
  · exact traceRecord_frame _ _ _ _ _ _
  · exact ⟨_, _, rfl⟩

theorem takeTrap_mem (cause detail : Byte) (code : BitVec 14) (targ : Dword) (h : s.mem.wf = true) :
    (takeTrap s r x cause detail code targ).mem.wf = true ∧
      ∀ k, untraced r.core k → memGet (takeTrap s r x cause detail code targ).mem k = memGet s.mem k := by
  unfold takeTrap
  simp only []
  split
  · exact traceRecord_mem _ _ _ _ _ _ h
  · exact ⟨h, fun _ _ => rfl⟩

end Sys2Proof.Machine
end

