-- ==== Sys2Proof/Tests/Slice0.lean ====
section
/-! SUPPORT. The model's own tests: for each statement about the machine a state that meets its hypotheses, the words of the
manual's listings and words put together from its formats, ill-formed terms that the check refuses, and single steps. The
expected values are the manual's, or computed by hand from its rules. -/
open Sys2Proof Sys2Proof.Machine
namespace Sys2Proof.Tests

/-! ### States for the witnesses -/

/-- A device that is ready, whose one row, of one band, executes. -/
def s0 : State := { placeRowWord State.reset 0 with active := .row placedRowId }
/-- The row. -/
def x0 : Row := placedRow State.reset
/-- Its band. -/
def w0 : Band := placedBand State.reset
/-- The same with another row state. -/
def at0 (y : Row) : State := { s0 with rows := [(placedRowId, y)] }
/-- The row with one active lane. -/
def lane0 (x : Row) : Row := x.mset 0 1

theorem executes_at (y : Row) (h : y.band = 2) : Executes (at0 y) placedRowId y w0 where
  active := rfl
  row := rfl
  band := by rw [h]; rfl

theorem prepared_of {s : State} {y : Row} {w : Band} (acc : Accept) (pw : Bool) (fd fa fb : FieldUse)
    (he : Executes s placedRowId y w) (hh : y.hints = {}) :
    Prepared s placedRowId y w acc pw fd fa fb fd.val fa.val fb.val where
  toExecutes := he
  wide := by simp [hh, modBit]
  hints := by simp [hh, hintsAccepted]
  legalD := by simp [hh, stepLegal, repSteps]
  legalA := by simp [hh, stepLegal, repSteps]
  legalB := by simp [hh, stepLegal, repSteps]
  fieldD := by simp [hh, stepped, repSteps]
  fieldA := by simp [hh, stepped, repSteps]
  fieldB := by simp [hh, stepped, repSteps]

theorem issues_of {s : State} {y : Row} {w : Band} (acc : Accept) (pw : Bool) (fd fa fb : FieldUse)
    (he : Executes s placedRowId y w) (hh : y.hints = {}) (hl : y.skips w.laneW = false) :
    Issues s placedRowId y w acc pw fd fa fb fd.val fa.val fb.val where
  toPrepared := prepared_of acc pw fd fa fb he hh
  lanes := hl

theorem prepared_at (y : Row) (acc : Accept) (pw : Bool) (fd fa fb : FieldUse) (h : y.band = 2) (hh : y.hints = {}) :
    Prepared (at0 y) placedRowId y w0 acc pw fd fa fb fd.val fa.val fb.val :=
  prepared_of acc pw fd fa fb (executes_at y h) hh

theorem issues_at (y : Row) (acc : Accept) (pw : Bool) (fd fa fb : FieldUse) (h : y.band = 2) (hh : y.hints = {})
    (hl : y.skips 64 = false) : Issues (at0 y) placedRowId y w0 acc pw fd fa fb fd.val fa.val fb.val :=
  issues_of acc pw fd fa fb (executes_at y h) hh hl

theorem skips_x0 : x0.skips 64 = false := rfl

/-! ### Witnesses of the hypotheses of the statements -/

theorem witness_ScalarBinaryResult : Issues (at0 x0) placedRowId x0 w0 accRep false (fSca 1) (fSca 2) (fSca 3) 1 2 3 ∧
    x0.scalarReady 2 ∧ x0.scalarReady 3 ∧ x0.sFull 1 = true :=
  ⟨issues_at _ _ _ _ _ _ rfl rfl rfl, ⟨rfl, .inr rfl⟩, ⟨rfl, .inr rfl⟩, rfl⟩

/-- The same under REP with steps 1, 2 and 0, at its third repeat. -/
def repRow : Row := { x0 with
  hints := { x0.hints with rep := some 0x0D8000 }
  repix := 2 }

theorem witness_ScalarBinaryResult_rep :
    Issues (at0 repRow) placedRowId repRow w0 accRep false (fSca 1) (fSca 2) (fSca 3) 3 6 3 where
  toExecutes := executes_at _ rfl
  wide := nofun
  hints := rfl
  legalD := rfl
  legalA := rfl
  legalB := rfl
  fieldD := rfl
  fieldA := rfl
  fieldB := rfl
  lanes := rfl

theorem witness_ScalarUnaryImmediateResult :
    Issues (at0 x0) placedRowId x0 w0 accRep false (fSca 1) (fSca 2) fNone 1 2 0 ∧
    Issues (at0 x0) placedRowId x0 w0 accAll false (fSca 1) (fSca 2) fNone 1 2 0 ∧
    Issues (at0 x0) placedRowId x0 w0 accAll false (fSca 1) fNone fNone 1 0 0 ∧ x0.scalarReady 2 ∧ x0.sFull 1 = true :=
  ⟨issues_at _ _ _ _ _ _ rfl rfl rfl, issues_at _ _ _ _ _ _ rfl rfl rfl, issues_at _ _ _ _ _ _ rfl rfl rfl,
    ⟨rfl, .inr rfl⟩, rfl⟩

/-- A row with every hint pending, two of IMX. -/
def hintedRow : Row := { x0 with hints := ⟨some 1, some 2, some 3, some 4, some 5⟩ }
/-- A row with one IMX pending. -/
def imxRow : Row := { x0 with hints := { x0.hints with imx1 := some 1 } }

theorem witness_HintResult : Executes (at0 x0) placedRowId x0 w0 ∧ x0.skips w0.laneW = false ∧ x0.hints.imx1 = none ∧
    x0.hints.rep = none ∧ x0.hints.modp = none ∧ x0.hints.schd = none := ⟨executes_at _ rfl, rfl, rfl, rfl, rfl, rfl⟩

theorem witness_HintResult_second : Executes (at0 imxRow) placedRowId imxRow w0 ∧ imxRow.skips w0.laneW = false ∧
    imxRow.hints.imx1.isSome = true ∧ imxRow.hints.imx2 = none := ⟨executes_at _ rfl, rfl, rfl, rfl⟩

theorem witness_HintResult_illegal : Executes (at0 hintedRow) placedRowId hintedRow w0 ∧
    hintedRow.skips w0.laneW = false ∧ hintedRow.hints.imx1.isSome = true ∧ hintedRow.hints.imx2.isSome = true ∧
    hintedRow.hints.rep.isSome = true ∧ hintedRow.hints.modp.isSome = true ∧ hintedRow.hints.schd.isSome = true :=
  ⟨executes_at _ rfl, rfl, rfl, rfl, rfl, rfl, rfl⟩

theorem quiet_x0 : StreamQuiet x0 := ⟨rfl, rfl⟩
theorem undisturbed_x0 : Undisturbed x0 := ⟨rfl, rfl⟩

theorem witness_ControlResult : Issues (at0 x0) placedRowId x0 w0 accNone false fNone fNone fNone 0 0 0 ∧ x0.sFull 31 = true ∧
    Issues (at0 x0) placedRowId x0 w0 accNone false fNone (fSca 2) fNone 0 2 0 ∧ x0.scalarReady 2 ∧
    (x0.sget 2).toNat % 4 = 0 ∧ (flushPosted (at0 x0) placedRowId).row? placedRowId = some x0 ∧
    x0.ctl.parityDue = none ∧ exitHeld x0 = false ∧ StreamQuiet x0 ∧ Undisturbed x0 ∧ postedHold (at0 x0) x0 = none :=
  ⟨issues_at _ _ _ _ _ _ rfl rfl rfl, rfl, issues_at _ _ _ _ _ _ rfl rfl rfl, ⟨rfl, .inr rfl⟩, rfl, rfl, rfl, rfl, quiet_x0,
    undisturbed_x0, rfl⟩

/-- A row whose s2 is 3. -/
def oddRow : Row := x0.sset 2 3

theorem witness_ControlResult_misaligned : Issues (at0 oddRow) placedRowId oddRow w0 accNone false fNone (fSca 2) fNone 0 2 0 ∧
    oddRow.scalarReady 2 ∧ (oddRow.sget 2).toNat % 4 ≠ 0 :=
  ⟨issues_at _ _ _ _ _ _ rfl rfl rfl, ⟨rfl, .inr rfl⟩, by decide⟩

/-- A class with an open command and 8 sealed batches outstanding. -/
def fullClass : ClassState :=
  ⟨8, { emptyBatch 0 false with
    ncmd := 1
    pending := 1 }, (List.range 8).map (fun i => { emptyBatch (i + 1) false with
    ncmd := 1
    pending := 1 }), 1⟩

/-- A row with such a class. -/
def heldRow : Row := { x0 with cls := Vector.replicate 5 fullClass }

theorem witness_ControlResult_held : Issues (at0 heldRow) placedRowId heldRow w0 accNone false fNone fNone fNone 0 0 0 ∧
    StreamQuiet heldRow ∧ Undisturbed heldRow ∧ (flushPosted (at0 heldRow) placedRowId).row? placedRowId = some heldRow ∧
    heldRow.ctl.parityDue = none ∧ exitHeld heldRow = true ∧ postedHold (at0 heldRow) heldRow = none :=
  ⟨issues_at _ _ _ _ _ _ rfl rfl rfl, ⟨rfl, rfl⟩, ⟨rfl, rfl⟩, rfl, rfl, by decide, rfl⟩

/-- A row with a mask stack. -/
def stackRow (l : List MaskEntry) : Row := { x0 with stack := l }
/-- An entry of IFM, one past its ELSEM, and one of LOOPM. -/
def ifEntry : MaskEntry := ⟨false, false, 3, 1⟩
def elseEntry : MaskEntry := ⟨false, true, 3, 1⟩
def loopEntry : MaskEntry := ⟨true, false, 7, 0⟩

/-- A structured instruction without a mask field, and one with the field m1. -/
def Structured (y : Row) : Prop :=
  Prepared (at0 y) placedRowId y w0 accNone false fNone fNone fNone 0 0 0 ∧
  Prepared (at0 y) placedRowId y w0 accNone false fNone (fMsk 1) fNone 0 ((0 : BitVec 2) ++ (1 : MReg)) 0

theorem structured_at (y : Row) (h : y.band = 2) (hh : y.hints = {}) : Structured y :=
  ⟨prepared_at _ _ _ _ _ _ h hh, prepared_at _ _ _ _ _ _ h hh⟩

theorem witness_DivergenceResult : Structured (stackRow [ifEntry]) ∧ (stackRow [ifEntry]).stack = ifEntry :: [] ∧
    ifEntry.isLoop = false ∧ ifEntry.elseDone = false ∧ (stackRow [ifEntry]).stack.length < 16 :=
  ⟨structured_at _ rfl rfl, rfl, rfl, rfl, by decide⟩

theorem witness_DivergenceResult_loop : Structured (stackRow [loopEntry]) ∧ (stackRow [loopEntry]).stack = loopEntry :: [] ∧
    loopEntry.isLoop = true ∧ (stackRow [loopEntry]).mget 0 ≠ 0 := ⟨structured_at _ rfl rfl, rfl, rfl, by decide⟩

theorem witness_DivergenceResult_loopEnd : Structured ((stackRow [loopEntry]).mset 0 0) ∧
    ((stackRow [loopEntry]).mset 0 0).stack = loopEntry :: [] ∧ loopEntry.isLoop = true ∧
    ((stackRow [loopEntry]).mset 0 0).mget 0 = 0 := ⟨structured_at _ rfl rfl, rfl, rfl, rfl⟩

theorem witness_DivergenceResult_break : Structured (stackRow [ifEntry, loopEntry]) ∧ (∀ f ∈ [ifEntry], f.isLoop = false) ∧
    (stackRow [ifEntry, loopEntry]).stack = [ifEntry] ++ loopEntry :: [] ∧ loopEntry.isLoop = true :=
  ⟨structured_at _ rfl rfl, by decide⟩

theorem witness_OperandTraps_full : Structured (stackRow (List.replicate 16 ifEntry)) ∧
    16 ≤ (stackRow (List.replicate 16 ifEntry)).stack.length := ⟨structured_at _ rfl rfl, by decide⟩

theorem witness_OperandTraps_empty : Structured (stackRow []) ∧ (∀ e ∈ (stackRow []).stack.head?, e.isLoop = true) ∧
    (∀ e ∈ (stackRow []).stack.head?, e.elseDone = true) ∧ (∀ e ∈ (stackRow []).stack.head?, e.isLoop = false) ∧
    (∀ e ∈ (stackRow []).stack, e.isLoop = false) := ⟨structured_at _ rfl rfl, by decide⟩

theorem witness_OperandTraps_kind : Structured (stackRow [loopEntry]) ∧
    (∀ e ∈ (stackRow [loopEntry]).stack.head?, e.isLoop = true) ∧ Structured (stackRow [elseEntry]) ∧
    (∀ e ∈ (stackRow [elseEntry]).stack.head?, e.elseDone = true) ∧
    (∀ e ∈ (stackRow [elseEntry]).stack.head?, e.isLoop = false) :=
  ⟨structured_at _ rfl rfl, by decide, structured_at _ rfl rfl, by decide, by decide⟩

theorem one_lane {i : Nat} (h : (1#64).getLsbD i = true) : i = 0 := by
  simp [BitVec.getLsbD_one] at h
  exact h

/-- A row of one lane, with s2. -/
def accRow (v : Dword) : Row := lane0 (x0.sset 2 v)

theorem sources_one {x : Row} {r : Reg} (h : x.vectorReady r) (hr : r ≠ 28) : SourcesReady x [r] none where
  regs := by simpa using h
  port := by rw [if_neg (fun hm => hr (List.mem_singleton.mp hm).symm)]

theorem witness_OperandTraps_misaligned :
    Issues (at0 (accRow 1)) placedRowId (accRow 1) w0 accRep false (fVec 1) (fSca 2) fNone 1 2 0 ∧ (accRow 1).scalarReady 2 ∧
    ((accRow 1).active w0.laneW 0).getLsbD 0 = true ∧
    ((((accRow 1).sget 2).toNat + 4 * (0 : BitVec 6).toNat + 4 * 0 : Nat) : Int) % 4 ≠ 0 ∧ (accRow 1).vFull 1 = true ∧
    SourcesReady (accRow 1) [1] none :=
  ⟨issues_at _ _ _ _ _ _ rfl rfl rfl, ⟨rfl, .inr rfl⟩, rfl, by decide, rfl, sources_one ⟨rfl, fun _ => rfl⟩ (by decide)⟩

/-- Offset 4093 to 4096: the last word of the window ends at its end, one byte more is out. -/
theorem witness_OperandTraps_range :
    Issues (at0 (accRow 4096)) placedRowId (accRow 4096) w0 accRep false (fVec 1) (fSca 2) fNone 1 2 0 ∧
    (accRow 4096).scalarReady 2 ∧ ((accRow 4096).active w0.laneW 0).getLsbD 0 = true ∧
    (∀ i, ((accRow 4096).active w0.laneW 0).getLsbD i = true →
      ((((accRow 4096).sget 2).toNat + 4 * (0 : BitVec 6).toNat + 4 * i : Nat) : Int) % 4 = 0) ∧
    (w0.wsize : Int) < ((((accRow 4096).sget 2).toNat + 4 * (0 : BitVec 6).toNat + 4 * 0 : Nat) : Int) + 4 ∧
    (accRow 4096).vFull 1 = true ∧ SourcesReady (accRow 4096) [1] none := by
  refine ⟨issues_at _ _ _ _ _ _ rfl rfl rfl, ⟨rfl, .inr rfl⟩, rfl, ?_, by decide, rfl, sources_one ⟨rfl, fun _ => rfl⟩ (by decide)⟩
  intro i h
  have := one_lane h
  subst this
  decide

/-- The machine with slot 0 of cluster 0 replaced. -/
def atSlot (y : Row) (k : Slot) : State :=
  { at0 y with clusters := s0.clusters.set 0 { Cluster.reset with slots := Cluster.reset.slots.set 0 k } }

theorem executes_slot (y : Row) (k : Slot) (h : y.band = 2) : Executes (atSlot y k) placedRowId y w0 where
  active := rfl
  row := rfl
  band := by rw [h]; rfl

/-- A slot of the launch with one arrival due. -/
def slot1 : Slot :=
  { Slot.reset with
    owner := some 1
    exp := 1
    ra := 1 }

/-- The other shapes of access: strided, indexed, scalar, remote and atomic, with an address above every band of the skein. -/
theorem witness_OperandTraps_access :
    Issues (at0 (accRow 4097)) placedRowId (accRow 4097) w0 accRep false (fVec 1) (fSca 2) (fSca 3) 1 2 3 ∧
    (accRow 4097).scalarReady 2 ∧ (accRow 4097).scalarReady 3 ∧
    Issues (at0 (accRow 4097)) placedRowId (accRow 4097) w0 accRep false (fVec 1) (fSca 2) (fVec 3) 1 2 3 ∧
    SourcesReady (accRow 4097) [3] none ∧
    Issues (at0 (accRow 4097)) placedRowId (accRow 4097) w0 accRep false (fSca 1) (fSca 2) fNone 1 2 0 ∧
    (accRow 4097).sFull 1 = true ∧ ((accRow 4097).sget 2).toNat % 8 ≠ 0 ∧ w0.wsize < ((accRow 4096).sget 2).toNat + 8 ∧
    Issues (at0 (accRow 0x40000000)) placedRowId (accRow 0x40000000) w0 accRep false (fVec 1) (fSca 2) fNone 1 2 0 ∧
    w0.nb < ((accRow 0x40000000).sget 2).toNat / 2 ^ 20 ∧
    Issues (at0 (accRow 0)) placedRowId (accRow 0) w0 accRep false (fVec 1) (fVec 2) (fVec 3) 1 2 3 ∧
    Issues (at0 (accRow 0)) placedRowId (accRow 0) w0 accRep false fNone (fVec 2) (fVec 3) 0 2 3 :=
  ⟨issues_at _ _ _ _ _ _ rfl rfl rfl, ⟨rfl, .inr rfl⟩, ⟨rfl, .inr rfl⟩, issues_at _ _ _ _ _ _ rfl rfl rfl,
    sources_one ⟨rfl, fun _ => rfl⟩ (by decide), issues_at _ _ _ _ _ _ rfl rfl rfl, rfl, by decide, by decide,
    issues_at _ _ _ _ _ _ rfl rfl rfl, by decide, issues_at _ _ _ _ _ _ rfl rfl rfl, issues_at _ _ _ _ _ _ rfl rfl rfl⟩

theorem witness_OperandTraps_slot :
    Issues (at0 (x0.sset 2 64)) placedRowId (x0.sset 2 64) w0 accSchd false (fSca 1) (fSca 2) fNone 1 2 0 ∧
    Issues (at0 (x0.sset 2 64)) placedRowId (x0.sset 2 64) w0 accSchd false fNone (fSca 2) fNone 0 2 0 ∧
    (x0.sset 2 64).scalarReady 2 ∧ (x0.sset 2 64).sFull 1 = true ∧ ((x0.sset 2 64).sget 2).extractLsb' 6 58 ≠ 0 :=
  ⟨issues_at _ _ _ _ _ _ rfl rfl rfl, issues_at _ _ _ _ _ _ rfl rfl rfl, ⟨rfl, .inr rfl⟩, rfl, by decide⟩

theorem witness_OperandTraps_owner :
    Issues (at0 x0) placedRowId x0 w0 accSchd false (fSca 1) (fSca 2) fNone 1 2 0 ∧
    (x0.sget 2).extractLsb' 6 58 = 0 ∧ (slotOf (at0 x0) placedRowId ((x0.sget 2).setWidth 6)).owner ≠ some w0.launch :=
  ⟨issues_at _ _ _ _ _ _ rfl rfl rfl, rfl, nofun⟩

theorem witness_OperandTraps_arrivals :
    Issues (atSlot x0 { slot1 with ra := 0 }) placedRowId x0 w0 accSchd false (fSca 1) (fSca 2) fNone 1 2 0 ∧
    (slotOf (atSlot x0 { slot1 with ra := 0 }) placedRowId ((x0.sget 2).setWidth 6)).owner = some w0.launch ∧
    (slotOf (atSlot x0 { slot1 with ra := 0 }) placedRowId ((x0.sget 2).setWidth 6)).ra = 0 :=
  ⟨issues_of _ _ _ _ _ (executes_slot _ _ rfl) rfl rfl, rfl, rfl⟩

/-- The group, park and set-up operands: a group without a mask, a target that is not a multiple of 4, a slot of another
launch. -/
theorem witness_OperandTraps_slots :
    Issues (at0 x0) placedRowId x0 w0 accSchd false (fSca 1) (fSca 2) (fSca 3) 1 2 3 ∧ x0.scalarReady 2 ∧ x0.scalarReady 3 ∧
    x0.sFull 1 = true ∧ x0.ctl.barrier = none ∧ fld (x0.sget 2) 15 8 = 0 ∧
    Issues (at0 oddRow) placedRowId oddRow w0 accSchd false fNone (fSca 1) (fSca 2) 0 1 2 ∧ oddRow.scalarReady 2 ∧
    (oddRow.sget 2).toNat % 4 ≠ 0 ∧ Undisturbed oddRow ∧ StreamQuiet oddRow ∧
    Issues (atSlot x0 { slot1 with owner := some 2 }) placedRowId x0 w0 accSchd false fNone (fSca 2) (fSca 3) 0 2 3 ∧
    (slotOf (atSlot x0 { slot1 with owner := some 2 }) placedRowId ((x0.sget 2).setWidth 6)).owner = some 2 ∧ w0.launch ≠ 2 :=
  ⟨issues_at _ _ _ _ _ _ rfl rfl rfl, ⟨rfl, .inr rfl⟩, ⟨rfl, .inr rfl⟩, rfl, rfl, by decide,
    issues_at _ _ _ _ _ _ rfl rfl rfl, ⟨rfl, .inr rfl⟩, by decide, ⟨rfl, rfl⟩, ⟨rfl, rfl⟩,
    issues_of _ _ _ _ _ (executes_slot _ _ rfl) rfl rfl, rfl, by decide⟩

/-- Rows with an empty scalar register and an empty vector register. -/
def emptyS (r : Reg) : Row := x0.markS r false
def emptyV (r : Reg) : Row := x0.markV r false

theorem witness_OperandTraps_operand :
    (Issues (at0 (emptyS 2)) placedRowId (emptyS 2) w0 accRep false (fSca 1) (fSca 2) (fSca 3) 1 2 3 ∧
      (emptyS 2).sFull 2 = false ∧ (emptyS 2).badS 2 = false ∧ (emptyS 2).badS 3 = false) ∧
    (Issues (at0 (emptyS 3)) placedRowId (emptyS 3) w0 accRep false (fSca 1) (fSca 2) (fSca 3) 1 2 3 ∧
      (emptyS 3).scalarReady 2 ∧ (emptyS 3).sFull 3 = false ∧ (emptyS 3).badS 3 = false) ∧
    (Issues (at0 (emptyS 1)) placedRowId (emptyS 1) w0 accRep false (fSca 1) (fSca 2) (fSca 3) 1 2 3 ∧
      (emptyS 1).scalarReady 2 ∧ (emptyS 1).scalarReady 3 ∧ (emptyS 1).sFull 1 = false) ∧
    (Issues (at0 (emptyV 2)) placedRowId (emptyV 2) w0 accRep false (fVec 1) (fVec 2) (fVec 3) 1 2 3 ∧
      (emptyV 2).vFull 2 = false ∧ (emptyV 2).badV 2 = false ∧ (emptyV 2).badV 3 = false) :=
  ⟨⟨issues_at _ _ _ _ _ _ rfl rfl rfl, rfl, rfl, rfl⟩, ⟨issues_at _ _ _ _ _ _ rfl rfl rfl, ⟨rfl, .inr rfl⟩, rfl, rfl⟩,
    ⟨issues_at _ _ _ _ _ _ rfl rfl rfl, ⟨rfl, .inr rfl⟩, ⟨rfl, .inr rfl⟩, rfl⟩, issues_at _ _ _ _ _ _ rfl rfl rfl, rfl, rfl, rfl⟩

/-- A row whose north port is connected and holds entries, or none. -/
def northRow (l : List Entry) (c : Bool) : Row := { x0 with north := ⟨l, [], false, c, []⟩ }

/-- The other operand shapes, with the source or the destination empty. -/
theorem witness_OperandTraps_shapes :
    (∀ y ∈ [emptyS 2, emptyS 1], Issues (at0 y) placedRowId y w0 accRep false (fSca 1) (fSca 2) fNone 1 2 0 ∧
      Issues (at0 y) placedRowId y w0 accAll false (fSca 1) (fSca 2) fNone 1 2 0 ∧
      Issues (at0 y) placedRowId y w0 accNone false fNone (fSca 2) fNone 0 2 0 ∧
      Issues (at0 y) placedRowId y w0 accRep false (fVec 1) (fSca 2) fNone 1 2 0 ∧
      Issues (at0 y) placedRowId y w0 accMod false fNone fNone fNone 0 0 0 ∧
      Issues (at0 y) placedRowId y w0 accSchd false (fSca 1) (fSca 2) fNone 1 2 0 ∧
      Issues (at0 y) placedRowId y w0 accSchd false fNone (fSca 3) (fSca 2) 0 3 2 ∧ StreamQuiet y ∧ y.badS 1 = false ∧
      y.badS 2 = false ∧ y.badS 3 = false ∧ y.sFull 3 = true) ∧
    (∀ y ∈ [emptyV 2, emptyV 1], Issues (at0 y) placedRowId y w0 accRep false (fVec 1) (fVec 2) fNone 1 2 0 ∧
      Issues (at0 y) placedRowId y w0 accRep false (fVec 1) (fSca 2) fNone 1 2 0 ∧ y.sFull 2 = true ∧ y.badV 1 = false ∧
      y.badV 2 = false) ∧ (emptyV 1).vFull 1 = false ∧ (emptyV 1).vFull 2 = true := by
  refine ⟨?_, ?_, rfl, rfl⟩ <;> intro y hy <;> simp only [List.mem_cons, List.not_mem_nil, or_false] at hy <;>
    obtain rfl | rfl := hy
  all_goals (refine ⟨issues_at _ _ _ _ _ _ rfl rfl rfl, issues_at _ _ _ _ _ _ rfl rfl rfl, ?_⟩)
  · exact ⟨issues_at _ _ _ _ _ _ rfl rfl rfl, issues_at _ _ _ _ _ _ rfl rfl rfl, issues_at _ _ _ _ _ _ rfl rfl rfl,
      issues_at _ _ _ _ _ _ rfl rfl rfl, issues_at _ _ _ _ _ _ rfl rfl rfl, ⟨rfl, rfl⟩, rfl, rfl, rfl, rfl⟩
  · exact ⟨issues_at _ _ _ _ _ _ rfl rfl rfl, issues_at _ _ _ _ _ _ rfl rfl rfl, issues_at _ _ _ _ _ _ rfl rfl rfl,
      issues_at _ _ _ _ _ _ rfl rfl rfl, issues_at _ _ _ _ _ _ rfl rfl rfl, ⟨rfl, rfl⟩, rfl, rfl, rfl, rfl⟩
  · exact ⟨rfl, rfl, rfl⟩
  · exact ⟨rfl, rfl, rfl⟩

theorem witness_OperandTraps_port :
    (∀ y ∈ [x0, northRow [] true, northRow [] false], Issues (at0 y) placedRowId y w0 accRep false (fVec 1) (fVec 28) (fVec 3)
      1 28 3 ∧ y.vectorReady 28 ∧ y.vectorReady 3 ∧ y.mx.anyStream Stream.north = false ∧ y.badHead = false) ∧
    x0.north.isOpen = true ∧ (northRow [] true).north.fifo = [] ∧ (northRow [] true).north.closed = true ∧
    (northRow [] true).north.transit = [] ∧ (northRow [] false).north.isOpen = false ∧
    (northRow [] false).north.closed = false := by
  refine ⟨?_, rfl, rfl, rfl, rfl, rfl, rfl⟩
  intro y hy
  simp only [List.mem_cons, List.not_mem_nil, or_false] at hy
  obtain rfl | rfl | rfl := hy <;> exact ⟨issues_at _ _ _ _ _ _ rfl rfl rfl, ⟨rfl, fun h => absurd h (by decide)⟩, ⟨rfl, fun _ => rfl⟩, rfl, rfl⟩

/-! Lane instructions: registers, and the ports. -/

theorem sources_x0 (l : List Reg) (h : 28 ∉ l) (hl : ∀ r ∈ l, x0.vFull r = true) : SourcesReady x0 l none where
  regs := fun r hr => ⟨hl r hr, fun _ => by simp [x0, placedRow, startRow]⟩
  port := by rw [if_neg h]

theorem witness_VectorIntegerResult : Issues (at0 x0) placedRowId x0 w0 accRep false (fVec 1) (fVec 2) (fVec 3) 1 2 3 ∧
    destReady (at0 x0) x0 1 ∧ SourcesReady x0 [2, 3] none ∧ SourcesReady x0 [2, 3, 1] none :=
  ⟨issues_at _ _ _ _ _ _ rfl rfl rfl, rfl, sources_x0 _ (by decide) (by decide), sources_x0 _ (by decide) (by decide)⟩

/-- A row between two others, with an entry at its north port; and the state. -/
def midRow : Row := { x0 with
  north := ⟨[zeroEntry], [], false, false, []⟩
  south := ⟨some ⟨0, 0, 1⟩, 8, false, false⟩ }

theorem north_midRow : NorthReady midRow zeroEntry := ⟨rfl, rfl, rfl, rfl⟩
theorem south_midRow : SouthReady (at0 midRow) midRow := ⟨rfl, rfl, .inr rfl⟩

theorem sources_midRow : SourcesReady midRow [28, 3] (some zeroEntry) where
  regs := by
    intro r hr
    simp only [List.mem_cons, List.not_mem_nil, or_false] at hr
    obtain rfl | rfl := hr
    · exact ⟨rfl, fun h => absurd h (by decide)⟩
    · exact ⟨rfl, fun _ => rfl⟩
  port := by simpa using north_midRow

theorem witness_VectorIntegerResult_ports :
    Issues (at0 midRow) placedRowId midRow w0 accRep false (fVec 29) (fVec 28) (fVec 3) 29 28 3 ∧
    destReady (at0 midRow) midRow 29 ∧ SourcesReady midRow [28, 3] (some zeroEntry) :=
  ⟨issues_at _ _ _ _ _ _ rfl rfl rfl, south_midRow, sources_midRow⟩

theorem witness_VectorUnaryCompareResult :
    Issues (at0 x0) placedRowId x0 w0 accRep false (fVec 1) (fVec 2) fNone 1 2 0 ∧
    Issues (at0 x0) placedRowId x0 w0 accRep false (fVec 1) (fVec 2) (fImm5 31) 1 2 31 ∧
    Issues (at0 x0) placedRowId x0 w0 accAll false (fVec 1) (fVec 2) fNone 1 2 0 ∧
    Issues (at0 x0) placedRowId x0 w0 accAll false (fVec 1) fNone fNone 1 0 0 ∧
    Issues (at0 x0) placedRowId x0 w0 accRep false (fVec 1) (fSca 2) fNone 1 2 0 ∧
    Issues (at0 x0) placedRowId x0 w0 accRep false (fMsk 1) (fVec 2) (fVec 3) ((0 : BitVec 2) ++ (1 : MReg)) 2 3 ∧
    Issues (at0 x0) placedRowId x0 w0 accRep false (fMsk 1) (fVec 2) (fImm5 31) ((0 : BitVec 2) ++ (1 : MReg)) 2 31 ∧
    destReady (at0 x0) x0 1 ∧ SourcesReady x0 [2] none ∧ SourcesReady x0 [2, 3] none ∧ x0.scalarReady 2 ∧
    modBit x0.hints 18 = false :=
  ⟨issues_at _ _ _ _ _ _ rfl rfl rfl, issues_at _ _ _ _ _ _ rfl rfl rfl, issues_at _ _ _ _ _ _ rfl rfl rfl,
    issues_at _ _ _ _ _ _ rfl rfl rfl, issues_at _ _ _ _ _ _ rfl rfl rfl, issues_at _ _ _ _ _ _ rfl rfl rfl,
    issues_at _ _ _ _ _ _ rfl rfl rfl, rfl, sources_x0 _ (by decide) (by decide), sources_x0 _ (by decide) (by decide),
    ⟨rfl, .inr rfl⟩, rfl⟩

theorem witness_VectorFloatResult : destReady (at0 x0) x0 1 ∧
    Issues (at0 x0) placedRowId x0 w0 accRep false (fVec 1) (fVec 2) (fVec 3) 1 2 3 ∧
    Issues (at0 x0) placedRowId x0 w0 accRep false (fVec 1) (fVec 2) fNone 1 2 0 ∧
    Issues (at0 x0) placedRowId x0 w0 accRep false (fVec 1) (fVec 2) (fSca 3) 1 2 3 ∧
    Issues (at0 x0) placedRowId x0 w0 accRep false (fMsk 1) (fVec 2) (fVec 3) ((0 : BitVec 2) ++ (1 : MReg)) 2 3 ∧
    SourcesReady x0 [2, 3] none ∧ SourcesReady x0 [2, 3, 1] none ∧ SourcesReady x0 [2] none ∧ SourcesReady x0 [2, 1] none ∧
    x0.scalarReady 3 ∧ TyCode.packed .f32 = false ∧ TyCode.packed .f16x2 = true :=
  ⟨rfl, issues_at _ _ _ _ _ _ rfl rfl rfl, issues_at _ _ _ _ _ _ rfl rfl rfl, issues_at _ _ _ _ _ _ rfl rfl rfl,
    issues_at _ _ _ _ _ _ rfl rfl rfl, sources_x0 _ (by decide) (by decide), sources_x0 _ (by decide) (by decide),
    sources_x0 _ (by decide) (by decide), sources_x0 _ (by decide) (by decide), ⟨rfl, .inr rfl⟩, rfl, rfl⟩

/-- A lane of VFCMP with a NaN, and one without. -/
theorem witness_VectorFloatResult_nan : (ftzIn false 0x7FC00000).isNan = true ∧ (ftzIn false 0x3F800000).isNan = false := by
  decide

/-- A row with words in each lane of v2 and v3, and its band of some lane width. -/
def wordsRow (f g : Nat → Word) : Row := ((x0.vset 2 (BitVec.allOnes 64) (lanesOf f)).vset 3 (BitVec.allOnes 64) (lanesOf g))
def wordsState (y : Row) (n : Nat) : State := { at0 y with bands := [{ w0 with laneW := n }] }

theorem issues_words (f g : Nat → Word) (n : Nat) (mk : Mask) (acc : Accept) (fd fa fb : FieldUse)
    (hl : ((wordsRow f g).mset 0 mk).skips n = false) :
    Issues (wordsState ((wordsRow f g).mset 0 mk) n) placedRowId ((wordsRow f g).mset 0 mk) { w0 with laneW := n } acc false fd fa fb
      fd.val fa.val fb.val :=
  issues_of acc false fd fa fb ⟨rfl, rfl, rfl⟩ rfl hl

theorem sources_words (f g : Nat → Word) (mk : Mask) (r : Reg) (h : r ≠ 28) (hf : ((wordsRow f g).mset 0 mk).vFull r = true) :
    SourcesReady ((wordsRow f g).mset 0 mk) [r] none :=
  sources_one ⟨hf, fun _ => by simp [wordsRow, Row.mset, Row.vset, x0, placedRow, startRow]⟩ h

/-- Sums of 1 and 2^-24 in each lane, rounded to nearest. -/
theorem witness_VectorFloatResult_values :
    Issues (wordsState ((wordsRow (fun _ => 0x3F800000) (fun _ => 0x33800000)).mset 0 1) 64) placedRowId
      ((wordsRow (fun _ => 0x3F800000) (fun _ => 0x33800000)).mset 0 1) { w0 with laneW := 64 } accRep false (fVec 1) (fVec 2)
      (fVec 3) 1 2 3 ∧
    modeOf x0.hints x0.fp.rmode = .rne ∧ x0.fp.ftz = false ∧
    laneAt ((wordsRow (fun _ => 0x3F800000) (fun _ => 0x33800000)).vget 2) 0 = 0x3F800000 ∧
    laneAt ((wordsRow (fun _ => 0x3F800000) (fun _ => 0x33800000)).vget 3) 0 = 0x33800000 :=
  ⟨issues_words _ _ _ _ _ _ _ _ rfl, rfl, rfl, by decide, by decide⟩

/-- The lanes of the worked example of R95. -/
def sumLanes (i : Nat) : Word := if i = 0 then 0x4B800000 else if i = 2 ∨ i = 3 then 0x3F800000 else 0
/-- Lanes whose sums in inactive lanes round. -/
def scanWords (i : Nat) : Word :=
  if i = 1 then 0xBF800000 else if i = 2 then 0x3F800000 else if i = 4 then 0x30800000 else 0

theorem witness_LaneMoveResult_sum :
    Issues (wordsState ((wordsRow sumLanes sumLanes).mset 0 0xFFFF) 16) placedRowId ((wordsRow sumLanes sumLanes).mset 0 0xFFFF)
      { w0 with laneW := 16 } accRep false (fSca 1) (fVec 2) fNone 1 2 0 ∧
    ((wordsRow sumLanes sumLanes).mset 0 0xFFFF).active 16 0 = BitVec.ofNat 64 (2 ^ 16 - 1) ∧
    (∀ i : Fin 64, i.val < 16 → laneAt ((wordsRow sumLanes sumLanes).vget 2) i = sumLanes i) ∧
    SourcesReady ((wordsRow sumLanes sumLanes).mset 0 0xFFFF) [2] none :=
  ⟨issues_words _ _ _ _ _ _ _ _ rfl, by decide, by decide, sources_words _ _ _ _ (by decide) rfl⟩

theorem witness_LaneMoveResult_scan :
    Issues (wordsState ((wordsRow scanWords scanWords).mset 0 0x1F) 16) placedRowId ((wordsRow scanWords scanWords).mset 0 0x1F)
      { w0 with laneW := 16 } accRep false (fVec 1) (fVec 2) fNone 1 2 0 ∧
    ((wordsRow scanWords scanWords).mset 0 0x1F).active 16 0 = BitVec.ofNat 64 (2 ^ 5 - 1) ∧
    (∀ i : Fin 64, laneAt ((wordsRow scanWords scanWords).vget 2) i = scanWords i) ∧
    ((wordsRow (fun _ => 0x7FC00001) scanWords).mset 0 1).active 16 0 = 1 ∧
    0x7F800000 < (laneAt ((wordsRow (fun _ => 0x7FC00001) scanWords).vget 2) 0 &&& 0x7FFFFFFF).toNat :=
  ⟨issues_words _ _ _ _ _ _ _ _ rfl, by decide, by decide, by decide, by decide⟩

/-- A row between two others, with MOD.PW pending. -/
def wideRow : Row := { midRow with hints := { midRow.hints with modp := some 0x040000 } }

theorem wide_at (d a : Reg) (h : pwFields d a = true) :
    Issues (at0 wideRow) placedRowId wideRow w0 accRep (pwFields d a) (fVec d) (fVec a) fNone d a 0 where
  toExecutes := executes_at _ rfl
  wide := fun _ => h
  hints := rfl
  legalD := rfl
  legalA := rfl
  legalB := rfl
  fieldD := rfl
  fieldA := rfl
  fieldB := rfl
  lanes := rfl

theorem witness_PortMoveResult : modBit wideRow.hints 18 = true ∧
    Issues (at0 wideRow) placedRowId wideRow w0 accRep (pwFields 29 26) (fVec 29) (fVec 26) fNone 29 26 0 ∧
    wideRow.vectorReady 26 ∧ wideRow.vectorReady 27 ∧ SouthReady (at0 wideRow) wideRow ∧
    Issues (at0 wideRow) placedRowId wideRow w0 accRep (pwFields 26 28) (fVec 26) (fVec 28) fNone 26 28 0 ∧
    NorthReady wideRow zeroEntry ∧ wideRow.vFull 26 = true ∧ wideRow.vFull 27 = true ∧
    Issues (at0 wideRow) placedRowId wideRow w0 accRep (pwFields 29 28) (fVec 29) (fVec 28) fNone 29 28 0 :=
  ⟨rfl, wide_at _ _ rfl, ⟨rfl, fun _ => rfl⟩, ⟨rfl, fun _ => rfl⟩, ⟨rfl, rfl, .inr rfl⟩, wide_at _ _ rfl, ⟨rfl, rfl, rfl, rfl⟩, rfl, rfl,
    wide_at _ _ rfl⟩

theorem witness_PortMoveResult_ports :
    Issues (at0 midRow) placedRowId midRow w0 accRep false (fVec 26) (fVec 28) fNone 26 28 0 ∧ NorthReady midRow zeroEntry ∧
    SouthReady (at0 midRow) midRow ∧ midRow.vFull 26 = true ∧ midRow.vFull (26 + 1) = true ∧
    Issues (at0 midRow) placedRowId midRow w0 accRep false (fVec 29) (fVec 28) (fVec 3) 29 28 3 ∧
    SourcesReady midRow [28, 3] (some zeroEntry) ∧
    Issues (at0 midRow) placedRowId midRow w0 accRep false (fSca 1) fNone fNone 1 0 0 ∧ midRow.sFull 1 = true :=
  ⟨issues_at _ _ _ _ _ _ rfl rfl rfl, north_midRow, south_midRow, rfl, rfl, issues_at _ _ _ _ _ _ rfl rfl rfl, sources_midRow,
    issues_at _ _ _ _ _ _ rfl rfl rfl, rfl⟩

theorem witness_LaneMoveResult :
    Issues (at0 x0) placedRowId x0 w0 accRep false (fVec 1) (fVec 2) (fVec 3) 1 2 3 ∧
    Issues (at0 x0) placedRowId x0 w0 accRep false (fVec 1) (fVec 2) (fSca 3) 1 2 3 ∧
    Issues (at0 x0) placedRowId x0 w0 accRep false (fVec 1) (fVec 2) fNone 1 2 0 ∧
    Issues (at0 x0) placedRowId x0 w0 accRep false (fSca 1) (fVec 2) fNone 1 2 0 ∧
    Issues (at0 x0) placedRowId x0 w0 accRep false (fSca 1) (fVec 2) (fSca 3) 1 2 3 ∧
    Issues (at0 x0) placedRowId x0 w0 accRep false (fVec 1) (fSca 2) (fSca 3) 1 2 3 ∧
    Issues (at0 x0) placedRowId x0 w0 accRep false (fSca 1) (fMsk 2) fNone 1 2 0 ∧
    Issues (at0 x0) placedRowId x0 w0 accRep false (fMsk 1) (fSca 2) fNone 1 2 0 ∧
    Issues (at0 x0) placedRowId x0 w0 accRep false (fMsk 1) (fMsk 2) (fMsk 3) 1 2 3 ∧
    SourcesReady x0 [2, 3] none ∧ SourcesReady x0 [2] none ∧ x0.scalarReady 2 ∧ x0.scalarReady 3 ∧ destReady (at0 x0) x0 1 ∧
    x0.sFull 1 = true ∧ x0.vFull 1 = true :=
  ⟨issues_at _ _ _ _ _ _ rfl rfl rfl, issues_at _ _ _ _ _ _ rfl rfl rfl, issues_at _ _ _ _ _ _ rfl rfl rfl,
    issues_at _ _ _ _ _ _ rfl rfl rfl, issues_at _ _ _ _ _ _ rfl rfl rfl, issues_at _ _ _ _ _ _ rfl rfl rfl,
    issues_at _ _ _ _ _ _ rfl rfl rfl, issues_at _ _ _ _ _ _ rfl rfl rfl, issues_at _ _ _ _ _ _ rfl rfl rfl,
    sources_x0 _ (by decide) (by decide), sources_x0 _ (by decide) (by decide), ⟨rfl, .inr rfl⟩, ⟨rfl, .inr rfl⟩, rfl, rfl, rfl⟩

/-! Accesses of one lane. -/

theorem watch_off (k : Debug) (h : k.wpctl = Vector.replicate 4 0) (n : Fin 4) (a : BitVec 6) (kind : AccessKind) (lo hi : Nat) :
    watchMatches k n a kind lo hi = false := by
  cases kind <;> simp [watchMatches, h, tst]

/-- Where no band is away, no window is. -/
theorem home_window {s : State} (h : ∀ b ∈ s.bands, b.away = false) (g : CoreId) (lo hi : Nat) : windowAway s g lo hi = false := by
  cases hl : windowAway s g lo hi with
  | false => rfl
  | true =>
    simp only [windowAway, Bool.and_eq_true, Bool.not_eq_true', List.all_eq_true, List.isEmpty_eq_false_iff] at hl
    obtain ⟨he, ha⟩ := hl
    obtain ⟨b, hb⟩ := List.exists_mem_of_ne_nil _ he
    exact absurd (ha b hb) (by simp [h b (List.mem_filter.mp hb).1])

/-- Where no command is in flight and no band is away, nothing holds an access back. -/
theorem home_clear {s : State} (hc : s.cmds = []) (h : ∀ b ∈ s.bands, b.away = false) (g : CoreId) (lo hi : Nat) (wr : Bool) :
    sbBlocker s g lo hi wr = none := by simp [sbBlocker, hc, home_window h]

theorem home_at (y : Row) : ∀ b ∈ (at0 y).bands, b.away = false := by
  intro b hb
  rw [List.mem_singleton.mp hb]
  rfl

theorem clear_at (y : Row) (kind : AccessKind) (n : Nat) (f : Nat → Int) (own : Nat → Bool) (hm : y.mx.running = none ∧ y.mx.queued = none)
    (hp : y.posted = [] ∧ y.prods = []) (ha : f 0 % (n : Int) = 0) (h0 : 0 ≤ f 0) (h1 : f 0 + n ≤ w0.wsize) :
    AccessClear (at0 y) y w0 (fun _ => w0) own kind n f 1 where
  aligned := fun i h => by rw [one_lane h]; exact ha
  inside := fun i h => by rw [one_lane h]; exact ⟨h0, h1⟩
  unwatched := fun _ _ _ => watch_off _ rfl _ _ _ _ _
  unclaimed := fun _ _ => home_clear rfl (home_at y) _ _ _ _
  unstreamed := fun _ _ _ _ => by simp [Matrix.anyStream, hm]
  posted := fun _ => by simp [postedHold, wordsHold, Row.stepWords, hp]

theorem wordsGood_at (u : State) (f : Nat → Int) (mk : Mask) (h : u.badWords = []) : WordsGood u (fun _ => w0) f mk :=
  fun _ _ => by simp [State.badWord, h]

theorem sources_lane (v : Dword) (l : List Reg) (h : 28 ∉ l) (hl : ∀ r ∈ l, (accRow v).vFull r = true) :
    SourcesReady (accRow v) l none where
  regs := fun r hr => ⟨hl r hr, fun _ => by simp [accRow, lane0, Row.mset, Row.sset, x0, placedRow, startRow]⟩
  port := by rw [if_neg h]

/-- The last word of the window, and the last doubleword. -/
theorem witness_LoadResult :
    Issues (at0 (accRow 4092)) placedRowId (accRow 4092) w0 accRep false (fVec 1) (fSca 2) fNone 1 2 0 ∧
    Issues (at0 (accRow 4092)) placedRowId (accRow 4092) w0 accRep false (fVec 1) (fSca 2) (fSca 3) 1 2 3 ∧
    Issues (at0 (accRow 4092)) placedRowId (accRow 4092) w0 accRep false (fVec 1) (fSca 2) (fVec 3) 1 2 3 ∧
    (accRow 4092).active w0.laneW 0 = 1 ∧ (accRow 4092).scalarReady 2 ∧ (accRow 4092).scalarReady 3 ∧
    (accRow 4092).vFull 1 = true ∧ SourcesReady (accRow 4092) [3] none ∧
    LocalClear (at0 (accRow 4092)) (accRow 4092) w0 .read 4 (fun i => ((4092 + 4 * i : Nat) : Int)) 1 ∧
    WordsGood (flushPosted (at0 (accRow 4092)) placedRowId) (fun _ => w0) (fun i => ((4092 + 4 * i : Nat) : Int)) 1 :=
  ⟨issues_at _ _ _ _ _ _ rfl rfl rfl, issues_at _ _ _ _ _ _ rfl rfl rfl, issues_at _ _ _ _ _ _ rfl rfl rfl, rfl,
    ⟨rfl, .inr rfl⟩, ⟨rfl, .inr rfl⟩, rfl, sources_lane _ _ (by decide) (by decide),
    clear_at _ _ _ _ _ ⟨rfl, rfl⟩ ⟨rfl, rfl⟩ (by decide) (by decide) (by decide), wordsGood_at _ _ _ rfl⟩

theorem witness_LoadResult_scalar :
    Issues (at0 (accRow 4088)) placedRowId (accRow 4088) w0 accRep false (fSca 1) (fSca 2) fNone 1 2 0 ∧
    (accRow 4088).scalarReady 2 ∧ (accRow 4088).sFull 1 = true ∧
    LocalClear (at0 (accRow 4088)) (accRow 4088) w0 .read 8 (fun _ => 4088) 1 ∧
    (flushPosted (at0 (accRow 4088)) placedRowId).badWord (winKey w0 4088) = false :=
  ⟨issues_at _ _ _ _ _ _ rfl rfl rfl, ⟨rfl, .inr rfl⟩, rfl, clear_at _ _ _ _ _ ⟨rfl, rfl⟩ ⟨rfl, rfl⟩ (by decide) (by decide) (by decide), rfl⟩

theorem wf_at (y : Row) : (at0 y).mem.wf = true := (by decide : s0.mem.wf = true)

theorem witness_StoreResult : (at0 (accRow 4092)).mem.wf = true ∧
    Issues (at0 (accRow 4092)) placedRowId (accRow 4092) w0 accRep false (fVec 1) (fSca 2) fNone 1 2 0 ∧
    Issues (at0 (accRow 4092)) placedRowId (accRow 4092) w0 accRep false (fVec 1) (fSca 2) (fSca 3) 1 2 3 ∧
    Issues (at0 (accRow 4092)) placedRowId (accRow 4092) w0 accRep false (fVec 1) (fSca 2) (fVec 3) 1 2 3 ∧
    (accRow 4092).active w0.laneW 0 = 1 ∧ (accRow 4092).scalarReady 2 ∧ (accRow 4092).scalarReady 3 ∧
    SourcesReady (accRow 4092) [1] none ∧ SourcesReady (accRow 4092) [3, 1] none ∧
    LocalClear (at0 (accRow 4092)) (accRow 4092) w0 .write 4 (fun i => ((4092 + 4 * i : Nat) : Int)) 1 ∧
    WordsGood (flushPosted (at0 (accRow 4092)) placedRowId) (fun _ => w0) (fun i => ((4092 + 4 * i : Nat) : Int)) 1 :=
  ⟨wf_at _, issues_at _ _ _ _ _ _ rfl rfl rfl, issues_at _ _ _ _ _ _ rfl rfl rfl, issues_at _ _ _ _ _ _ rfl rfl rfl, rfl,
    ⟨rfl, .inr rfl⟩, ⟨rfl, .inr rfl⟩, sources_lane _ _ (by decide) (by decide), sources_lane _ _ (by decide) (by decide),
    clear_at _ _ _ _ _ ⟨rfl, rfl⟩ ⟨rfl, rfl⟩ (by decide) (by decide) (by decide), wordsGood_at _ _ _ rfl⟩

theorem witness_StoreResult_scalar : (at0 (accRow 4088)).mem.wf = true ∧
    Issues (at0 (accRow 4088)) placedRowId (accRow 4088) w0 accRep false (fSca 1) (fSca 2) fNone 1 2 0 ∧
    (accRow 4088).scalarReady 2 ∧ (accRow 4088).scalarReady 1 ∧
    LocalClear (at0 (accRow 4088)) (accRow 4088) w0 .write 8 (fun _ => 4088) 1 :=
  ⟨wf_at _, issues_at _ _ _ _ _ _ rfl rfl rfl, ⟨rfl, .inr rfl⟩, ⟨rfl, .inr rfl⟩,
    clear_at _ _ _ _ _ ⟨rfl, rfl⟩ ⟨rfl, rfl⟩ (by decide) (by decide) (by decide)⟩

theorem witness_RemoteResult :
    Issues (at0 (accRow 4092)) placedRowId (accRow 4092) w0 accRep false (fVec 1) (fSca 2) fNone 1 2 0 ∧
    (accRow 4092).scalarReady 2 ∧ ((accRow 4092).sget 2).toNat / 2 ^ 20 ≤ w0.nb ∧
    skeinBand (at0 (accRow 4092)) w0 (((accRow 4092).sget 2).toNat / 2 ^ 20) = some w0 ∧ (accRow 4092).vFull 1 = true ∧
    (accRow 4092).active w0.laneW 0 = 1 ∧ w0.preempt ≠ some .saved ∧ SourcesReady (accRow 4092) [1] none ∧
    AccessClear (at0 (accRow 4092)) (accRow 4092) w0 (fun _ => w0) (fun _ => true) .read 4 (fun i => ((4092 + 4 * i : Nat) : Int)) 1 ∧
    AccessClear (at0 (accRow 4092)) (accRow 4092) w0 (fun _ => w0) (fun _ => true) .write 4 (fun i => ((4092 + 4 * i : Nat) : Int)) 1 ∧
    WordsGood (flushPosted (at0 (accRow 4092)) placedRowId) (fun _ => w0) (fun i => ((4092 + 4 * i : Nat) : Int)) 1 :=
  ⟨issues_at _ _ _ _ _ _ rfl rfl rfl, ⟨rfl, .inr rfl⟩, by decide, rfl, rfl, rfl, nofun, sources_lane _ _ (by decide) (by decide),
    clear_at _ _ _ _ _ ⟨rfl, rfl⟩ ⟨rfl, rfl⟩ (by decide) (by decide) (by decide), clear_at _ _ _ _ _ ⟨rfl, rfl⟩ ⟨rfl, rfl⟩ (by decide) (by decide) (by decide),
    wordsGood_at _ _ _ rfl⟩

/-- A posted write of one word, and a row that has it outstanding. -/
def post0 : Posted := ⟨0, 2, [⟨0, 0, none, 5, 5⟩]⟩
def postRow : Row := { x0 with posted := [post0] }

theorem witness_RemoteResult_performed : (at0 postRow).row? placedRowId = some postRow ∧ postRow.posted = post0 :: [] ∧
    postRow.status = .running ∧ (∀ j ∈ post0.lanes, sbBlocker (at0 postRow) post0.core j.off (j.off + 4) true = none) ∧ (∀ j ∈ post0.lanes, (at0 postRow).badWord (sideKey post0.core.toNat j.off) = false) ∧
    (∀ b ∈ (at0 postRow).bands, b.busy ((at0 postRow).setRow placedRowId { postRow with posted := [] }) = true) := by
  refine ⟨rfl, rfl, rfl, fun _ _ => home_clear rfl (home_at _) _ _ _ _, ?_, ?_⟩
  · intro j hj
    simp only [post0, List.mem_singleton] at hj
    subst hj
    rfl
  · intro b hb
    have : b = w0 := List.mem_singleton.mp hb
    subst this
    rfl

theorem witness_AtomicResult :
    Issues (at0 (accRow 0)) placedRowId (accRow 0) w0 accRep false (fVec 1) (fVec 2) (fVec 3) 1 2 3 ∧
    Issues (at0 (accRow 0)) placedRowId (accRow 0) w0 accRep false fNone (fVec 2) (fVec 3) 0 2 3 ∧
    SourcesReady (accRow 0) [2, 3] none ∧ SourcesReady (accRow 0) [2, 3, 1] none ∧ (accRow 0).vFull 1 = true ∧
    (accRow 0).active w0.laneW 0 = 1 ∧
    (∀ i, (1#64).getLsbD i = true → (laneAt (vecValue (accRow 0) none 2) i).toNat / 2 ^ 20 ≤ w0.nb ∧
      skeinBand (at0 (accRow 0)) w0 ((laneAt (vecValue (accRow 0) none 2) i).toNat / 2 ^ 20) = some w0 ∧
      w0.preempt ≠ some .saved) ∧
    LocalClear (at0 (accRow 0)) (accRow 0) w0 .update 4 (fun i => (laneAt (vecValue (accRow 0) none 2) i).toNat) 1 ∧
    AccessClear (at0 (accRow 0)) (accRow 0) w0 (fun _ => w0) (fun _ => true) .update 4
      (fun i => (((laneAt (vecValue (accRow 0) none 2) i).toNat % 2 ^ 20 : Nat) : Int)) 1 ∧
    WordsGood (flushPosted (at0 (accRow 0)) placedRowId) (fun _ => w0) (fun i => (laneAt (vecValue (accRow 0) none 2) i).toNat) 1 := by
  refine ⟨issues_at _ _ _ _ _ _ rfl rfl rfl, issues_at _ _ _ _ _ _ rfl rfl rfl, sources_lane _ _ (by decide) (by decide),
    sources_lane _ _ (by decide) (by decide), rfl, rfl, ?_, clear_at _ _ _ _ _ ⟨rfl, rfl⟩ ⟨rfl, rfl⟩ (by decide) (by decide) (by decide),
    clear_at _ _ _ _ _ ⟨rfl, rfl⟩ ⟨rfl, rfl⟩ (by decide) (by decide) (by decide), wordsGood_at _ _ _ rfl⟩
  intro i h
  rw [one_lane h]
  exact ⟨by decide, rfl, nofun⟩

/-- A row whose lanes are all inactive: an access has no effect. -/
theorem witness_LoadResult_idle : Issues (at0 (x0.mset 1 0)) placedRowId (x0.mset 1 0) w0 accRep false (fVec 1) (fSca 2) fNone 1 2 0 ∧
    Issues (at0 (x0.mset 1 0)) placedRowId (x0.mset 1 0) w0 accRep false (fVec 1) (fVec 2) (fVec 3) 1 2 3 ∧
    Issues (at0 (x0.mset 1 0)) placedRowId (x0.mset 1 0) w0 accRep false fNone (fVec 2) (fVec 3) 0 2 3 ∧
    (x0.mset 1 0).active w0.laneW 1 = 0 :=
  ⟨issues_at _ _ _ _ _ _ rfl rfl rfl, issues_at _ _ _ _ _ _ rfl rfl rfl, issues_at _ _ _ _ _ _ rfl rfl rfl, by decide⟩

/-- An atomic with two steps to make, and a row that has it outstanding. -/
def steps2 : Producer :=
  { dest := .vec 1 3 zeroLanes
    todo := [⟨0, 0, 2, ⟨0, 0, some .addI32, 5, 0⟩⟩, ⟨1, 0, 2, ⟨0, 0, some .addI32, 7, 0⟩⟩] }
def stepRow : Row := { x0 with prods := [steps2] }

theorem witness_AtomicResult_steps : (at0 stepRow).row? placedRowId = some stepRow ∧ stepRow.prods = [steps2] ∧
    stepRow.posted = [] ∧ (∀ j ∈ steps2.todo, (at0 stepRow).badWord (sideKey j.core.toNat j.what.off) = false ∧ j.lane < 64) := by
  refine ⟨rfl, rfl, rfl, ?_⟩
  intro j hj
  simp only [steps2, List.mem_cons, List.not_mem_nil, or_false] at hj
  obtain rfl | rfl := hj <;> exact ⟨rfl, by decide⟩

/-- The same where its first word is uncorrectable. -/
theorem witness_AtomicResult_bad :
    ({ at0 stepRow with badWords := [sideKey 0 0 / 8] } : State).row? placedRowId = some stepRow ∧
    ({ at0 stepRow with badWords := [sideKey 0 0 / 8] } : State).badWord (sideKey 0 0) = true := ⟨rfl, by decide⟩

/-! The matrix unit. -/

theorem sources_any {y : Row} (l : List Reg) (h : 28 ∉ l) (hl : ∀ r ∈ l, y.vFull r = true) (hb : y.regs.vbad = Vector.replicate 28 0) :
    SourcesReady y l none where
  regs := fun r hr => ⟨hl r hr, fun _ => by simp [hb]⟩
  port := by rw [if_neg h]

/-- A row with one lane and a grant: VALID, PARTICIPATING, i8 by i8, one step. -/
def shapeRow (mode src : Nat) : Row :=
  { lane0 x0 with mx := { Matrix.start with
    shape := dw (mode * 2 ^ 62 + src * 2 ^ 60 + 2 ^ 58 + 2 ^ 57 + 4 * 2 ^ 52 + 4 * 2 ^ 48) } }

theorem witness_ShapeLatchResult :
    Issues (at0 x0) placedRowId x0 w0 accMod false fNone fNone fNone 0 0 0 ∧ StreamQuiet x0 ∧ x0.scalarReady 2 ∧
    x0.sFull 1 = true ∧ x0.mx.idle = true ∧ w0.height ≤ 128 ∧ 1 ≤ w0.height ∧ w0.laneW ≤ 64 ∧ 1 ≤ w0.laneW :=
  ⟨issues_at _ _ _ _ _ _ rfl rfl rfl, ⟨rfl, rfl⟩, ⟨rfl, .inr rfl⟩, rfl, rfl, by decide, by decide, by decide, by decide⟩

/-- A request that is granted, and one with a reserved bit. -/
theorem witness_ShapeLatchResult_request : shapeRefused (dw (4 * 2 ^ 52 + 4 * 2 ^ 48)) = false ∧
    shapeRefused (dw (2 ^ 28 + 4 * 2 ^ 52 + 4 * 2 ^ 48)) = true := by decide

/-- The last doubleword of the window. -/
def latchRow : Row := (shapeRow 0 0).sset 2 4088

theorem witness_ShapeLatchResult_latch :
    Issues (at0 latchRow) placedRowId latchRow w0 accMod false fNone fNone fNone 0 0 0 ∧ latchRow.scalarReady 2 ∧
    latchRow.active w0.laneW 0 ≠ 0 ∧ latchRow.mx.occupancy + 8 * (maskLanes (latchRow.active w0.laneW 0)).length ≤ 8 * w0.laneW ∧
    LocalClear (at0 latchRow) latchRow w0 .read 8 (fun i => ((4088 + 8 * i : Nat) : Int)) (latchRow.active w0.laneW 0) ∧
    WordsGood (at0 latchRow) (fun _ => w0) (fun i => ((4088 + 8 * i : Nat) : Int)) (latchRow.active w0.laneW 0) ∧
    SourcesReady latchRow [1] none ∧ tst latchRow.mx.shape 58 = true ∧ StreamQuiet latchRow ∧ latchRow.mx.idle = true :=
  ⟨issues_at _ _ _ _ _ _ rfl rfl rfl, ⟨rfl, .inr rfl⟩, by decide, by decide,
    clear_at _ _ _ _ _ ⟨rfl, rfl⟩ ⟨rfl, rfl⟩ (by decide) (by decide) (by decide), wordsGood_at _ _ _ rfl, sources_any _ (by decide) (by decide) rfl,
    rfl, ⟨rfl, rfl⟩, rfl⟩

theorem witness_ShapeLatchResult_idle : (shapeRow 0 0).active w0.laneW 0 = 1 ∧ ((shapeRow 0 0).mset 1 0).active w0.laneW 1 = 0 ∧
    Issues (at0 ((shapeRow 0 0).mset 1 0)) placedRowId ((shapeRow 0 0).mset 1 0) w0 accMod false fNone fNone fNone 0 0 0 :=
  ⟨by decide, by decide, issues_at _ _ _ _ _ _ rfl rfl rfl⟩

theorem stream_at (mode : Nat) (y : Row) (hs : y.mx = { Matrix.start with shape := y.mx.shape }) (hc : y.ctl = RowCtl.start)
    (hp : y.posted = [] ∧ y.prods = [])
    (h1 : tst y.mx.shape 58 = true) (h2 : tst y.mx.shape 57 = true) (h3 : fld y.mx.shape 63 62 = mode)
    (h4 : fld y.mx.shape 61 60 ≠ 2) : StreamReady (at0 y) y w0 mode 2 3 where
  quiet := ⟨by rw [hc]; rfl, by rw [hc]; rfl⟩
  posted := by simp [postedHold, wordsHold, Row.stepWords, hp]
  place := .inl (by rw [hs]; rfl)
  valid := h1
  part := h2
  mode := h3
  side := fun h => absurd h h4

theorem witness_StreamIssue : ∀ k ∈ [StreamKind.mma, .mwf, .mwb],
    Issues (at0 (shapeRow k.mode 1)) placedRowId (shapeRow k.mode 1) w0 accMod false fNone fNone fNone 0 0 0 ∧
    StreamReady (at0 (shapeRow k.mode 1)) (shapeRow k.mode 1) w0 k.mode 2 3 := by
  intro k _
  cases k <;> exact ⟨issues_at _ _ _ _ _ _ rfl rfl rfl, stream_at _ _ rfl rfl ⟨rfl, rfl⟩ rfl rfl (by decide) (by decide)⟩

/-- Side operands that end with the window. -/
def sideRow : Row := (shapeRow 0 2).sset 2 3584

theorem witness_StreamIssue_side : fld sideRow.mx.shape 61 60 = 2 ∧ StreamReady (at0 sideRow) sideRow w0 0 2 3 :=
  ⟨by decide, ⟨rfl, rfl⟩, rfl, .inl rfl, rfl, rfl, by decide, fun _ =>
    ⟨⟨rfl, .inr rfl⟩, ⟨rfl, .inr rfl⟩, by decide, by decide, by decide, fun _ _ _ _ _ => watch_off _ rfl _ _ _ _ _⟩⟩

/-- A card of one row of 8 signed bytes, 2 kept of every 4: the header, metadata at 32, values at 40. -/
def cardBytes : List Byte :=
  [0xA7, 0x5C, 0x01, 0x42, 0x00, 0x04, 0, 0, 7, 0, 0, 0, 40, 0, 0, 0, 32, 0, 0, 0, 0, 0, 0, 0, 0, 0, 0, 0, 0, 0, 0, 0x67]

/-- The machine with bytes at the start of the window. -/
def atMem (y : Row) (bs : List Byte) : State := { at0 y with mem := memWrite s0.mem (sideKey 0 0) bs }

theorem executes_mem (y : Row) (bs : List Byte) (h : y.band = 2) : Executes (atMem y bs) placedRowId y w0 where
  active := rfl
  row := rfl
  band := by rw [h]; rfl

/-- What an access of the window needs of the state. -/
structure Calm (s : State) (y : Row) : Prop where
  watch : (s.core 0).dbg.wpctl = Vector.replicate 4 0
  cmds : s.cmds = []
  home : s.bands.all (fun b => !b.away) = true
  bad : s.badWords = []
  streams : y.mx.running = none ∧ y.mx.queued = none

theorem range_of {s : State} {y : Row} (h : Calm s y) (kind : AccessKind) (off n : Nat) : RangeClear s y w0 kind off n where
  unwatched := fun _ _ => watch_off _ h.watch _ _ _ _ _
  unclaimed := home_clear h.cmds (by simpa using h.home) _ _ _ _
  unstreamed := fun _ => by simp [Matrix.anyStream, h.streams]
  sound := fun v hv => by rw [h.bad] at hv; cases hv

/-- The whole card: header, metadata, values 1, 2, 3, 4. -/
def card0 : List Byte := cardBytes ++ [0xC3, 0, 0, 0, 0, 0, 0, 0, 1, 2, 3, 4]

/-- The row that runs card instructions: s2 names the card, s3 the dense operand at 64, or what is asked. -/
def cardRow (a b : Dword) : Row := ((shapeRow 0 1).sset 2 a).sset 3 b


theorem witness_StreamIssue_sparse :
    let y := cardRow 0 0
    let s := atMem y card0
    let t := flushPosted s placedRowId
    Issues s placedRowId y w0 accMod false fNone fNone fNone 0 0 0 ∧ StreamReady s y w0 0 2 3 ∧ y.scalarReady 2 ∧
    t.row? placedRowId = some y ∧ CardAt t y w0 0 cardBytes ∧ (cardOf cardBytes).ty = grantAf y.mx.shape ∧
    (cardOf cardBytes).rop = 1 ∧ (0 + grantK y.mx.shape) * perEntry (grantBf y.mx.shape) ≤ (cardOf cardBytes).kop ∧
    RangeClear t y w0 .read 32 1 ∧
    ∀ v ∈ (List.range 2).map (fun i => metaMask 4 (memRead t.mem (winKey w0 32) 1) i), countBits v 4 = (cardOf cardBytes).n := by
  refine ⟨issues_of _ _ _ _ _ (executes_mem _ _ rfl) rfl rfl, ?_, ⟨rfl, .inr rfl⟩, rfl, ?_, rfl, rfl, by decide, ?_, ?_⟩
  · exact ⟨⟨rfl, rfl⟩, rfl, .inl rfl, rfl, rfl, by decide, fun h => absurd h (by decide)⟩
  · exact ⟨rfl, by decide, range_of ⟨rfl, rfl, rfl, rfl, rfl, rfl⟩ _ _ _,
      (by decide : cardBytes = memRead (memWrite s0.mem (sideKey 0 0) card0) (winKey w0 0) 32), by decide⟩
  · exact range_of ⟨rfl, rfl, rfl, rfl, rfl, rfl⟩ _ _ _
  · exact (by decide : ∀ v ∈ (List.range 2).map (fun i =>
      metaMask 4 (memRead (memWrite s0.mem (sideKey 0 0) card0) (winKey w0 32) 1) i), countBits v 4 = (cardOf cardBytes).n)

theorem witness_AccumulatorResult :
    let y := shapeRow 0 1
    Issues (at0 y) placedRowId y w0 accMod false fNone fNone fNone 0 0 0 ∧ StreamQuiet y ∧ y.mx.idle = true ∧ y.mx.fly = [] ∧
    y.scalarReady 2 ∧ y.scalarReady 3 ∧ SourcesReady y [2] none ∧ tst y.mx.shape 58 = true ∧ tst y.mx.shape 57 = true ∧
    fld y.mx.shape 63 62 = 0 ∧ y.mx.pbad = 0 ∧ y.mx.abad = 0 ∧ y.vFull 1 = true ∧ destReady (at0 y) y 1 :=
  ⟨issues_at _ _ _ _ _ _ rfl rfl rfl, ⟨rfl, rfl⟩, rfl, rfl, ⟨rfl, .inr rfl⟩, ⟨rfl, .inr rfl⟩,
    sources_any _ (by decide) (by decide) rfl, rfl, rfl, by decide, rfl, rfl, rfl, rfl⟩

/-- A row whose result queue holds one vector. -/
def queueRow : Row :=
  let y := shapeRow 1 1
  { y with mx := { y.mx with rq := [zeroLanes] } }

theorem witness_AccumulatorResult_queue :
    Issues (at0 queueRow) placedRowId queueRow w0 accMod false fNone fNone fNone 0 0 0 ∧ StreamQuiet queueRow ∧
    queueRow.scalarReady 2 ∧ queueRow.scalarReady 3 ∧ queueRow.vFull 1 = true ∧ fld queueRow.mx.shape 63 62 ≠ 0 ∧
    queueRow.mx.rq = zeroLanes :: [] ∧ 0 ∉ queueRow.mx.rqBad ∧ tst queueRow.mx.shape 58 = true ∧
    tst queueRow.mx.shape 57 = true :=
  ⟨issues_at _ _ _ _ _ _ rfl rfl rfl, ⟨rfl, rfl⟩, ⟨rfl, .inr rfl⟩, ⟨rfl, .inr rfl⟩, rfl, by decide, rfl, by decide, rfl, rfl⟩

theorem witness_CardResult :
    let y := cardRow 64 0
    let s := atMem y card0
    let t := flushPosted s placedRowId
    Issues s placedRowId y w0 accMod false fNone fNone fNone 0 0 0 ∧ postedHold s y = none ∧ t.row? placedRowId = some y ∧
    y.scalarReady 2 ∧
    y.scalarReady 3 ∧ y.sFull 1 = true ∧ CardAt t y w0 0 cardBytes ∧ CardMasks t y w0 0 (cardOf cardBytes) [3, 12] ∧
    (y.sget 3).toNat = 0 ∧ (y.sget 2).toNat &&& 0xFFF00000FFF00000 = 0 ∧ DenseFits w0 (cardOf cardBytes) 0 64 0 ∧
    ∀ kind off n, RangeClear t y w0 kind off n := by
  refine ⟨issues_of _ _ _ _ _ (executes_mem _ _ rfl) rfl rfl, rfl, rfl, ⟨rfl, .inr rfl⟩, ⟨rfl, .inr rfl⟩, rfl, ?_, ?_, rfl,
    by decide, ?_, fun _ _ _ => range_of ⟨rfl, rfl, rfl, rfl, rfl, rfl⟩ _ _ _⟩
  · exact ⟨rfl, by decide, range_of ⟨rfl, rfl, rfl, rfl, rfl, rfl⟩ _ _ _,
      (by decide : cardBytes = memRead (memWrite s0.mem (sideKey 0 0) card0) (winKey w0 0) 32), by decide⟩
  · exact ⟨by decide, range_of ⟨rfl, rfl, rfl, rfl, rfl, rfl⟩ _ _ _,
      (by decide : [3, 12] = (cardOf cardBytes).masks (memRead (memWrite s0.mem (sideKey 0 0) card0) (winKey w0 32) 1)), by decide⟩
  · exact ⟨by decide, by decide, by decide, by decide, by decide⟩

theorem witness_CardResult_check :
    let y := cardRow 0 0
    let s := atMem y card0
    Issues s placedRowId y w0 accMod false fNone fNone fNone 0 0 0 ∧ (y.sget 2).toNat = 0 ∧ y.sFull 1 = true :=
  ⟨issues_of _ _ _ _ _ (executes_mem _ _ rfl) rfl rfl, rfl, rfl⟩

theorem witness_CardResult_quantise :
    let y := cardRow 0 (dw (256 * 2 ^ 32 + 264))
    let s := at0 y
    let t := flushPosted s placedRowId
    Issues s placedRowId y w0 accMod false fNone fNone fNone 0 0 0 ∧ postedHold s y = none ∧ t.row? placedRowId = some y ∧
    y.scalarReady 2 ∧
    y.scalarReady 3 ∧ y.sFull 1 = true ∧ (y.sget 2).toNat &&& 0x00FFFF00FFF00000 = 0 ∧
    (y.sget 3).toNat &&& 0xFFF00000FFF00000 = 0 ∧ fld (y.sget 2) 19 0 = 0 ∧ fld (y.sget 2) 39 32 + 1 = 1 ∧
    fld (y.sget 3) 51 32 = 256 ∧ fld (y.sget 3) 19 0 = 264 ∧ ∀ kind off n, RangeClear t y w0 kind off n :=
  ⟨issues_of _ _ _ _ _ (executes_at _ rfl) rfl rfl, rfl, rfl, ⟨rfl, .inr rfl⟩, ⟨rfl, .inr rfl⟩, rfl, by decide, by decide, rfl, rfl,
    by decide, by decide, fun _ _ _ => range_of ⟨rfl, rfl, rfl, rfl, rfl, rfl⟩ _ _ _⟩

/-! Engine commands. -/

/-- A row with an operand group in s8 to s11. -/
def opsRow (a b c d : Dword) : Row :=
  { x0 with regs := { x0.regs with s := (((x0.regs.s.set 8 a).set 9 b).set 10 c).set 11 d } }

theorem engine_at (a b c d : Dword) (cls : BClass) :
    EngineReady (at0 (opsRow a b c d)) placedRowId (opsRow a b c d) (opsRow a b c d) w0 cls 1 ∧
    groupReady (opsRow a b c d) 8 4 := by
  refine ⟨⟨rfl, (rfl : x0.sFull 1 = true), by cases cls <;> rfl, rfl, rfl, rfl⟩, ?_⟩
  intro i hi
  interval_cases i <;> exact ⟨(rfl : x0.sFull _ = true), .inr (rfl : x0.regs.sbad.getLsbD _ = false)⟩

/-- The command of the row's group. -/
def cmdOf (a b c d : Dword) (cls : BClass) (i : Instr) : Cmd :=
  issuedCmd (flushPosted (at0 (opsRow a b c d)) placedRowId) placedRowId (opsRow a b c d) w0 cls i 8 0 [] []

theorem witness_ShuttleIssue :
    Issues (at0 (opsRow 0x10000 0x20000 63 0)) placedRowId (opsRow 0x10000 0x20000 63 0) w0 accSchd false (fSca 1) (fSca 8) fNone
      1 8 0 ∧
    EngineReady (at0 (opsRow 0x10000 0x20000 63 0)) placedRowId (opsRow 0x10000 0x20000 63 0) (opsRow 0x10000 0x20000 63 0) w0 .sh
      1 ∧ groupReady (opsRow 0x10000 0x20000 63 0) 8 4 ∧
    (∀ t, copyCheck t (cmdOf 0x10000 0x20000 63 0 .sh (.shcp 1 8 0 false false)) = none) ∧
    (∀ t, copyCheck t (cmdOf 0x10000 0x20000 62 0 .sh (.shcp 1 8 0 false false)) = some 0x44) ∧
    (∀ t, copyCheck t (cmdOf 0x10000 0 63 0 .sh (.shset 1 8 0 0 false false)) = none) ∧
    (∀ t, trCheck t (cmdOf 0x10000 0x20000 0 0 .sh (.shtr 1 8 false false false)) = none) ∧
    (∀ t, spCheck t (cmdOf 0x10000 0x20000 0 0 .sh (.shtr 1 8 false false true)) = none) ∧
    sbRoom (flushPosted (at0 (opsRow 0x10000 0x20000 63 0)) placedRowId) [] = true :=
  ⟨issues_at _ _ _ _ _ _ rfl rfl rfl, (engine_at _ _ _ _ .sh).1, (engine_at _ _ _ _ .sh).2, fun _ => rfl, fun _ => rfl, fun _ => rfl,
    fun _ => rfl, fun _ => rfl, rfl⟩


theorem witness_GatherScatterIssue :
    Issues (at0 (opsRow 0 64 0 0)) placedRowId (opsRow 0 64 0 0) w0 accSchd false (fSca 1) (fSca 8) (fVec 26) 1 8 26 ∧
    EngineReady (at0 (opsRow 0 64 0 0)) placedRowId (opsRow 0 64 0 0) (opsRow 0 64 0 0) w0 .gs 1 ∧
    groupReady (opsRow 0 64 0 0) 8 4 ∧ (opsRow 0 64 0 0).vectorReady 26 ∧ (opsRow 0 64 0 0).vectorReady (26 + 1) ∧
    gsCheck (cmdOf 0 64 0 0 .gs (.gath 1 8 26 false true)) w0.wsize w0.laneW = none ∧
    gsCheck (cmdOf 0 64 0 0 .gs (.scat 1 8 26 false true)) w0.wsize w0.laneW = none ∧
    gsCheck (cmdOf 0 64 0 0 .gs (.sred 1 8 26 .addI32 true false true)) w0.wsize w0.laneW = none ∧
    sbRoom (flushPosted (at0 (opsRow 0 64 0 0)) placedRowId)
      (gsRanges (cmdOf 0 64 0 0 .gs (.gath 1 8 26 false true)) w0.wbase) = true :=
  ⟨issues_at _ _ _ _ _ _ rfl rfl rfl, (engine_at _ _ _ _ .gs).1, (engine_at _ _ _ _ .gs).2, ⟨rfl, fun _ => rfl⟩, ⟨rfl, fun _ => rfl⟩, rfl, rfl, rfl,
    rfl⟩

/-- An index list in the window; and a group that fails its checks, its fault vector outside the window. -/
theorem witness_GatherScatterIssue_list :
    Issues (at0 (opsRow 0 64 (dw (128 * 2 ^ 32)) 0)) placedRowId (opsRow 0 64 (dw (128 * 2 ^ 32)) 0) w0 accSchd false (fSca 1)
      (fSca 8) fNone 1 8 0 ∧
    gsCheck (cmdOf 0 64 (dw (128 * 2 ^ 32)) 0 .gs (.gath 1 8 0 false false)) w0.wsize w0.laneW = none ∧
    gsCheck (cmdOf 0 (dw (4096 * 2 ^ 32)) 0 0 .gs (.gath 1 8 0 false false)) w0.wsize w0.laneW = some 0x44 ∧
    (cmdOf 0 (dw (4096 * 2 ^ 32)) 0 0 .gs (.gath 1 8 0 false false)).statOff = 4096 :=
  ⟨issues_at _ _ _ _ _ _ rfl rfl rfl, rfl, rfl, rfl⟩

/-- Groups that fail their checks, with the fault vector at the window's last doubleword: a data slot that is not aligned; and a pair
of 64-bit indices for one lane, which passes. -/
theorem witness_GatherScatterIssue_reject :
    sbRoom (flushPosted (at0 (opsRow 0 (dw (4088 * 2 ^ 32 + 2)) 0 0)) placedRowId) [] = true ∧
    gsCheck (cmdOf 0 (dw (4088 * 2 ^ 32 + 2)) 0 0 .gs (.gath 1 8 26 false true)) w0.wsize w0.laneW = some 0x44 ∧
    gsCheck (cmdOf 0 (dw (4088 * 2 ^ 32 + 2)) 0 0 .gs (.scat 1 8 26 false true)) w0.wsize w0.laneW = some 0x44 ∧
    gsCheck (cmdOf 0 (dw (4088 * 2 ^ 32 + 2)) 0 0 .gs (.sred 1 8 26 .addI32 true false true)) w0.wsize w0.laneW = some 0x44 ∧
    (cmdOf 0 (dw (4088 * 2 ^ 32 + 2)) 0 0 .gs (.gath 1 8 26 false true)).statOff = 4088 ∧
    (cmdOf 0 (dw (4088 * 2 ^ 32 + 2)) 0 0 .gs (.gath 1 8 26 false true)).statLen = 8 ∧
    tst ((cmdOf 0 64 2048 0 .gs (.gath 1 8 26 false true)).op 2) 11 = true ∧
    gsCheck (cmdOf 0 64 2048 0 .gs (.gath 1 8 26 false true)) w0.wsize w0.laneW = none := by
  refine ⟨rfl, rfl, rfl, rfl, rfl, rfl, by decide, rfl⟩

theorem witness_WalkNetworkIssue_walk :
    let y := opsRow 0x10000 0 0 64
    Issues (at0 y) placedRowId y w0 accSchd false (fSca 1) (fSca 8) fNone 1 8 0 ∧ groupReady y 8 4 ∧ y.isLead w0 = true ∧
    y.sFull 1 = true ∧ classRoom (at0 y) w0 .wk = true ∧ walkBehind (at0 y) placedRowId = false ∧ postedHold (at0 y) y = none ∧
    (flushPosted ((at0 y).modCore placedRowId.core (fun k => { k with walkQ := k.walkQ.filter (fun q => q != placedRowId) }))
      placedRowId).row? placedRowId = some y ∧ y.ctl.parityDue = none ∧
    walkCheck (cmdOf 0x10000 0 0 64 .wk (.wkst 1 8 false false)) w0.wsize = none ∧
    walkCheck (cmdOf 0x10020 0 0 64 .wk (.wkst 1 8 false false)) w0.wsize = some 0x44 :=
  ⟨issues_at _ _ _ _ _ _ rfl rfl rfl, (engine_at _ _ _ _ .wk).2, rfl, (rfl : x0.sFull 1 = true), rfl, rfl, rfl, rfl, rfl, rfl, rfl⟩

/-- A network whose reduction group 0 has this device as its root. -/
def netState (y : Row) : State := { at0 y with net := { Network.reset with grp0 := Network.reset.grp0.set 0 (dw (2 ^ 31)) } }

theorem witness_WalkNetworkIssue_network :
    let y := opsRow 0x10000 0x20000 3 0
    Issues (at0 y) placedRowId y w0 accSchd false (fSca 1) (fSca 8) fNone 1 8 0 ∧
    EngineReady (at0 y) placedRowId y y w0 .nw 1 ∧ groupReady y 8 4 ∧
    netCheck (flushPosted (at0 y) placedRowId) (cmdOf 0x10000 0x20000 3 0 .nw (.nput 1 8)) w0.wsize = none ∧
    netCheck (flushPosted (at0 y) placedRowId) (cmdOf 0x10000 0x20000 3 0 .nw (.nget 1 8 false)) w0.wsize = none ∧
    netCheck (flushPosted (netState y) placedRowId) (cmdOf 0x10000 0x20000 3 0 .nw (.nred 1 8 .addI32)) w0.wsize = none ∧
    netCheck (flushPosted (at0 y) placedRowId) (cmdOf 0x10000 0 0 0 .nw (.nsig 1 8 true)) w0.wsize = none ∧
    netCheck (flushPosted (at0 y) placedRowId) (cmdOf 0x10000 0x20000 2 0 .nw (.nput 1 8)) w0.wsize = some 0x44 ∧
    Undisturbed y ∧ groupReady y 8 3 :=
  ⟨issues_at _ _ _ _ _ _ rfl rfl rfl, (engine_at _ _ _ _ .nw).1, (engine_at _ _ _ _ .nw).2, rfl, rfl, rfl, rfl, rfl, ⟨rfl, rfl⟩,
    fun i hi => (engine_at _ _ _ _ .nw).2 i (by omega)⟩

theorem witness_BatchResult :
    Issues (at0 x0) placedRowId x0 w0 accSchd false (fSca 1) fNone fNone 1 0 0 ∧
    Issues (at0 x0) placedRowId x0 w0 accSchd false (fSca 1) (fSca 2) fNone 1 2 0 ∧ x0.sFull 1 = true ∧ x0.scalarReady 2 ∧
    Undisturbed x0 ∧ StreamQuiet x0 ∧ (x0.clsOf .sh).outstanding = 0 ∧ x0.prods = [] ∧
    paceBusy (at0 x0) (clusterOf placedRowId.core) = false :=
  ⟨issues_at _ _ _ _ _ _ rfl rfl rfl, issues_at _ _ _ _ _ _ rfl rfl rfl, rfl, ⟨rfl, .inr rfl⟩, ⟨rfl, rfl⟩, ⟨rfl, rfl⟩, rfl, rfl,
    by decide⟩

/-- The machine with a pace change of cluster 0 pending. -/
def atPace (y : Row) : State :=
  (at0 y).modCluster 0 (fun k => { k with pace := { k.pace with pending := some (8, 0) } })

theorem executes_pace (y : Row) (h : y.band = 2) : Executes (atPace y) placedRowId y w0 where
  active := rfl
  row := rfl
  band := by rw [h]; rfl

/-- A WAIT of class MX while the change is pending. -/
theorem witness_BatchResult_pace :
    Issues (atPace x0) placedRowId x0 w0 accSchd false (fSca 1) fNone fNone 1 0 0 ∧ StreamQuiet x0 ∧
    paceBusy (atPace x0) (clusterOf placedRowId.core) = true :=
  ⟨issues_of _ _ _ _ _ (executes_pace _ rfl) rfl rfl, ⟨rfl, rfl⟩, by decide⟩

/-- Eight batches outstanding: SEAL waits, and so does WAIT for at most 7. -/
theorem witness_BatchResult_full : Issues (at0 heldRow) placedRowId heldRow w0 accSchd false (fSca 1) fNone fNone 1 0 0 ∧
    heldRow.sFull 1 = true ∧ 8 ≤ (heldRow.clsOf .sh).outstanding ∧ (7 : BitVec 4).toNat < (heldRow.clsOf .sh).outstanding ∧
    Undisturbed heldRow :=
  ⟨issues_at _ _ _ _ _ _ rfl rfl rfl, rfl, by decide, by decide, ⟨rfl, rfl⟩⟩

/-! Barriers. -/

/-- The row with a slot number, or more, in s2. -/
def slotRow (v : Dword) : Row := { x0 with regs := { x0.regs with s := x0.regs.s.set 2 v } }

theorem witness_BarrierSetArrival_init :
    Issues (at0 (slotRow 63)) placedRowId (slotRow 63) w0 accSchd false fNone (fSca 2) (fSca 3) 0 2 3 ∧
    (slotRow 63).scalarReady 2 ∧ (slotRow 63).scalarReady 3 ∧ (slotRow 63).sget 2 = (63 : BitVec 6).setWidth 64 ∧
    (slotOf (at0 (slotRow 63)) placedRowId 63).owner = none :=
  ⟨issues_at _ _ _ _ _ _ rfl rfl rfl, ⟨rfl, .inr rfl⟩, ⟨rfl, .inr rfl⟩, rfl, rfl⟩

/-- Another row of the core, which waits at slot 0 by a token of its first generation. -/
def otherRow : RowId := ⟨0, 0, 1⟩
def tokenRow : Row := { x0 with ctl := { x0.ctl with barrier := some ⟨0, [], false, none⟩ } }

theorem witness_BarrierSetArrival_released :
    let s : State := { atSlot x0 slot1 with rows := [(placedRowId, x0), (otherRow, tokenRow)] }
    Issues s placedRowId x0 w0 accSchd false fNone (fSca 2) (fSca 3) 0 2 3 ∧
    Issues s placedRowId x0 w0 accSchd false fNone (fSca 2) fNone 0 2 0 ∧ (slotOf s placedRowId 0).owner = some w0.launch ∧
    otherRow ≠ placedRowId ∧ clusterOf otherRow.core = clusterOf placedRowId.core ∧ s.row? otherRow = some tokenRow ∧
    tokenRow.ctl.barrier = some ⟨0, [], false, none⟩ ∧ (0 : Dword).extractLsb' 16 16 = (slotOf s placedRowId 0).gen ∧
    tokenRow.ctl.trap = none ∧ preempting s tokenRow = false :=
  ⟨issues_of _ _ _ _ _ ⟨rfl, rfl, rfl⟩ rfl rfl, issues_of _ _ _ _ _ ⟨rfl, rfl, rfl⟩ rfl rfl, rfl, by decide, rfl, rfl, rfl, rfl, rfl,
    rfl⟩

theorem witness_BarrierSetArrival :
    let s := atSlot x0 slot1
    Issues s placedRowId x0 w0 accSchd false fNone (fSca 2) fNone 0 2 0 ∧
    Issues s placedRowId x0 w0 accSchd false (fSca 1) (fSca 2) fNone 1 2 0 ∧ x0.scalarReady 2 ∧ x0.sFull 1 = true ∧
    x0.sget 2 = (0 : BitVec 6).setWidth 64 ∧ (slotOf s placedRowId 0).owner = some w0.launch ∧ (slotOf s placedRowId 0).ra ≠ 0 ∧
    (flushPosted s placedRowId).row? placedRowId = some x0 ∧ x0.ctl.parityDue = none ∧ Undisturbed x0 ∧ x0.ctl.barrier = none ∧
    postedHold s x0 = none :=
  ⟨issues_of _ _ _ _ _ (executes_slot _ _ rfl) rfl rfl, issues_of _ _ _ _ _ (executes_slot _ _ rfl) rfl rfl, ⟨rfl, .inr rfl⟩, rfl,
    rfl, rfl, by decide, rfl, rfl, ⟨rfl, rfl⟩, rfl, rfl⟩

/-- A row whose wait has its result: one for BARV, BWAIT and GBAR, one for BWANY. -/
def resultRow (g : List (BitVec 16)) : Row := { x0 with ctl := { x0.ctl with barrier := some ⟨0, g, false, some 5⟩ } }

theorem witness_BarrierWaits_result :
    Issues (at0 (resultRow [])) placedRowId (resultRow []) w0 accSchd false (fSca 1) (fSca 2) fNone 1 2 0 ∧
    (resultRow []).ctl.barrier = some ⟨0, [], false, some 5⟩ ∧
    Issues (at0 (resultRow [0])) placedRowId (resultRow [0]) w0 accSchd false (fSca 1) (fSca 2) (fSca 3) 1 2 3 ∧
    (resultRow [0]).ctl.barrier = some ⟨0, [0], false, some 5⟩ ∧
    Issues (at0 (resultRow [])) placedRowId (resultRow []) w0 accSchd false (fSca 1) fNone fNone 1 0 0 ∧
    (∀ l, (at0 (resultRow [])).launch? w0.launch = some l → (dieOf placedRowId.core, (clusterOf placedRowId.core).toNat % 16) ∉ l.gbarOut) ∧
    paceBusy (at0 (resultRow [])) (clusterOf placedRowId.core) = false ∧ paceBusy (at0 (resultRow [0])) (clusterOf placedRowId.core) = false ∧
    Issues (atPace (resultRow [])) placedRowId (resultRow []) w0 accSchd false (fSca 1) (fSca 2) fNone 1 2 0 ∧
    Issues (atPace (resultRow [0])) placedRowId (resultRow [0]) w0 accSchd false (fSca 1) (fSca 2) (fSca 3) 1 2 3 ∧
    paceBusy (atPace (resultRow [])) (clusterOf placedRowId.core) = true := by
  refine ⟨issues_at _ _ _ _ _ _ rfl rfl rfl, rfl, issues_at _ _ _ _ _ _ rfl rfl rfl, rfl, issues_at _ _ _ _ _ _ rfl rfl rfl, ?_,
    by decide, by decide, issues_of _ _ _ _ _ (executes_pace _ rfl) rfl rfl, issues_of _ _ _ _ _ (executes_pace _ rfl) rfl rfl,
    by decide⟩
  intro l hl
  have : l = placedLaunch State.reset := (Option.some.inj hl).symm
  subst this
  decide

/-- Tokens of slot 0: of the phase that has completed last, of an earlier one, of another generation, of the phase in progress. -/
theorem witness_BarrierWaits_token :
    let s := atSlot x0 { slot1 with phase := 1 }
    Issues s placedRowId x0 w0 accSchd false (fSca 1) (fSca 2) fNone 1 2 0 ∧ x0.scalarReady 2 ∧ x0.sFull 1 = true ∧
    Undisturbed x0 ∧ x0.ctl.barrier = none ∧
    x0.sget 2 = (0 : BitVec 32) ++ (0 : BitVec 16) ++ (0 : BitVec 10) ++ (0 : BitVec 6) ∧
    (slotOf s placedRowId 0).gen = 0 ∧ (slotOf s placedRowId 0).phase = 0 + 1 ∧
    (slotOf (atSlot x0 { slot1 with phase := 0x7FFFFFFF }) placedRowId 0).phase.toNat < 2 ^ 31 ∧
    (slotOf (atSlot x0 { slot1 with gen := 1 }) placedRowId 0).gen ≠ 0 ∧ (slotOf (atSlot x0 slot1) placedRowId 0).phase = 0 ∧
    paceBusy s (clusterOf placedRowId.core) = false :=
  ⟨issues_of _ _ _ _ _ (executes_slot _ _ rfl) rfl rfl, ⟨rfl, .inr rfl⟩, rfl, ⟨rfl, rfl⟩, rfl, rfl, rfl, rfl, by decide, by decide,
    rfl, by decide⟩

/-- A row at BWANY s1, s2, s3, with slot 0 of group 0 named. -/
def anyRow : Row := { slotRow 0x100 with ibuf := some 0xE4088600 }

/-- Slot 0 has advanced past the byte 0 by 127; the start is at slot 0. -/
theorem witness_BarrierWaits_any :
    let s := atSlot anyRow { slot1 with phase := 127 }
    Issues s placedRowId anyRow w0 accSchd false (fSca 1) (fSca 2) (fSca 3) 1 2 3 ∧ anyRow.scalarReady 2 ∧
    anyRow.scalarReady 3 ∧ anyRow.sFull 1 = true ∧ anyRow.ctl.barrier = none ∧ anyRow.waitA = 2 ∧ anyRow.waitB = 3 ∧
    fld (anyRow.sget 2) 63 16 = 0 ∧ fld (anyRow.sget 2) 7 3 = 0 ∧ fld (anyRow.sget 2) 15 8 ≠ 0 ∧
    (∀ j, j < 8 → tst (anyRow.sget 2) (8 + j) = true →
      (slotOf s placedRowId (BitVec.ofNat 6 (8 * 0 + j))).owner = some w0.launch) ∧
    tst (anyRow.sget 2) 8 = true ∧ ((slotOf s placedRowId 0).phase.setWidth 8 - (anyRow.sget 3).extractLsb' 0 8).toNat = 127 ∧
    ((slotOf (atSlot anyRow { slot1 with phase := 128 }) placedRowId 0).phase.setWidth 8
      - (anyRow.sget 3).extractLsb' 0 8).toNat = 128 ∧ paceBusy s (clusterOf placedRowId.core) = false := by
  refine ⟨issues_of _ _ _ _ _ (executes_slot _ _ rfl) rfl rfl, ⟨rfl, .inr rfl⟩, ⟨rfl, .inr rfl⟩, rfl, rfl, by decide, by decide,
    by decide, by decide, by decide, ?_, rfl, by decide, by decide, by decide⟩
  intro j hj h
  interval_cases j <;> first | rfl | exact absurd h (by decide)

theorem witness_BarrierWaits_phase : (slotOf (atSlot x0 slot1) placedRowId 0).gen = 0 ∧
    (slotOf (atSlot x0 slot1) placedRowId 0).owner = some 1 ∧ (slotOf (at0 x0) placedRowId 0).owner ≠ some 1 ∧
    ({ slot1 with ra := 0 } : Slot).exp ≠ 0 ∧ ({ slot1 with ra := 0 } : Slot).rb ≤ 0 ∧ slot1.ra ≠ 0 ∧
    ({ slot1 with exp := 0, ra := 0, txexp := 4, rb := -4 } : Slot).txexp ≠ 0 ∧
    ({ slot1 with exp := 0, ra := 0, txexp := 4, rb := -4 } : Slot).rb ≤ 0 ∧ ({ slot1 with exp := 0, ra := 0 } : Slot).txexp = 0 :=
  ⟨rfl, rfl, nofun, by decide, by decide, by decide, by decide, by decide, rfl⟩

/-- The machine with another band and launch beside a row. -/
def atBand (y : Row) (w : Band) (l : Launch) : State :=
  { at0 y with
    bands := [w]
    launches := [l] }

theorem executes_band (y : Row) (w : Band) (l : Launch) (h : y.band = 2) (hw : w.id = 2) : Executes (atBand y w l) placedRowId y w where
  active := rfl
  row := rfl
  band := by simp [State.band?, atBand, h, hw]

/-- A band whose row may park. -/
def parkBand : Band := { w0 with parks := [0] }
/-- A launch whose rows are a gang. -/
def gangLaunch : Launch := { placedLaunch State.reset with block := dw (1 + 2 ^ 14) :: List.replicate 31 0 }

theorem witness_FencePark : (flushPosted (at0 x0) placedRowId).row? placedRowId = some x0 ∧ x0.ctl.parityDue = none ∧
    Undisturbed x0 ∧ Issues (at0 x0) placedRowId x0 w0 accSchd false fNone fNone fNone 0 0 0 ∧
    Issues (at0 x0) placedRowId x0 w0 accSchd false (fSca 1) fNone fNone 1 0 0 ∧ x0.sFull 1 = true ∧ x0.ctl.barrier = none ∧
    postedHold (at0 x0) x0 = none ∧ ∀ l, (at0 x0).launch? w0.launch = some l → l.gang = false := by
  refine ⟨rfl, rfl, ⟨rfl, rfl⟩, issues_at _ _ _ _ _ _ rfl rfl rfl, issues_at _ _ _ _ _ _ rfl rfl rfl, rfl, rfl, rfl, ?_⟩
  intro l hl
  have : l = placedLaunch State.reset := (Option.some.inj hl).symm
  subst this
  decide

theorem witness_FencePark_gang :
    let s := atBand x0 w0 gangLaunch
    Issues s placedRowId x0 w0 accSchd false (fSca 1) fNone fNone 1 0 0 ∧ (flushPosted s placedRowId).row? placedRowId = some x0 ∧
    s.launch? w0.launch = some gangLaunch ∧ gangLaunch.gang = true :=
  ⟨issues_of _ _ _ _ _ (executes_band _ _ _ rfl rfl) rfl rfl, rfl, rfl, rfl⟩

theorem witness_FencePark_park :
    let s := { atSlot x0 slot1 with bands := [parkBand] }
    Issues s placedRowId x0 parkBand accSchd false fNone (fSca 2) (fSca 3) 0 2 3 ∧ StreamQuiet x0 ∧ x0.scalarReady 2 ∧
    x0.scalarReady 3 ∧ x0.sget 2 = (0 : BitVec 6).setWidth 64 ∧ (slotOf s placedRowId 0).owner = some parkBand.launch ∧
    (slotOf s placedRowId 0).ra ≠ 0 ∧ x0.canPark parkBand = true ∧ (x0.sget 3).toNat % 4 = 0 ∧ exitHeld x0 = false ∧
    (flushPosted s placedRowId).row? placedRowId = some x0 :=
  ⟨issues_of _ _ _ _ _ ⟨rfl, rfl, rfl⟩ rfl rfl, ⟨rfl, rfl⟩, ⟨rfl, .inr rfl⟩, ⟨rfl, .inr rfl⟩, rfl, rfl, by decide, rfl, rfl, rfl, rfl⟩

/-! Traps and system instructions. -/

/-- A row with empty registers: scalars 2 and 4, vectors 2 and 4; its north port is empty. -/
def hollowRow : Row := { lane0 x0 with regs := { x0.regs with
  sfull := 0xFFFFFFEB
  vfull := 0xFFFFFEB } }

/-- Empty and full scalar operands: A empty; B empty; D pending; a source without a trap bit; a MOD that traps on D. -/
theorem witness_OperandTraps_scalar :
    Issues (at0 hollowRow) placedRowId hollowRow w0 accRep false (fSca 1) (fSca 2) (fSca 4) 1 2 4 ∧
    Issues (at0 hollowRow) placedRowId hollowRow w0 accRep false (fSca 1) (fSca 3) (fSca 4) 1 3 4 ∧
    Issues (at0 hollowRow) placedRowId hollowRow w0 accRep false (fSca 2) (fSca 3) (fSca 5) 2 3 5 ∧
    Issues (at0 hollowRow) placedRowId hollowRow w0 accRep false (fSca 2) (fSca 3) fNone 2 3 0 ∧
    Issues (at0 hollowRow) placedRowId hollowRow w0 accRep false (fSca 2) (fSca 4) fNone 2 4 0 ∧
    Issues (at0 hollowRow) placedRowId hollowRow w0 accAll false (fSca 2) (fSca 3) fNone 2 3 0 ∧
    Issues (at0 hollowRow) placedRowId hollowRow w0 accAll false (fSca 2) (fSca 4) fNone 2 4 0 ∧
    Issues (at0 hollowRow) placedRowId hollowRow w0 accNone false fNone (fSca 2) fNone 0 2 0 ∧
    hollowRow.sFull 2 = false ∧ hollowRow.sFull 4 = false ∧ hollowRow.sFull 3 = true ∧ hollowRow.sFull 5 = true ∧
    ∀ v : Reg, hollowRow.badS v = false :=
  ⟨issues_at _ _ _ _ _ _ rfl rfl rfl, issues_at _ _ _ _ _ _ rfl rfl rfl, issues_at _ _ _ _ _ _ rfl rfl rfl,
    issues_at _ _ _ _ _ _ rfl rfl rfl, issues_at _ _ _ _ _ _ rfl rfl rfl, issues_at _ _ _ _ _ _ rfl rfl rfl,
    issues_at _ _ _ _ _ _ rfl rfl rfl, issues_at _ _ _ _ _ _ rfl rfl rfl, rfl, rfl, rfl, rfl, by decide⟩

/-- The vector operands: A empty; B empty; D pending; the north port empty, OPEN and CLOSED; loads and stores. -/
theorem witness_OperandTraps_vector :
    Issues (at0 hollowRow) placedRowId hollowRow w0 accRep false (fVec 1) (fVec 2) (fVec 4) 1 2 4 ∧
    Issues (at0 hollowRow) placedRowId hollowRow w0 accRep false (fVec 1) (fVec 3) (fVec 4) 1 3 4 ∧
    Issues (at0 hollowRow) placedRowId hollowRow w0 accRep false (fVec 2) (fVec 3) (fVec 5) 2 3 5 ∧
    Issues (at0 hollowRow) placedRowId hollowRow w0 accRep false (fVec 1) (fVec 28) (fVec 5) 1 28 5 ∧
    Issues (at0 hollowRow) placedRowId hollowRow w0 accRep false (fVec 2) (fVec 4) fNone 2 4 0 ∧
    Issues (at0 hollowRow) placedRowId hollowRow w0 accRep false (fVec 2) (fVec 3) fNone 2 3 0 ∧
    Issues (at0 hollowRow) placedRowId hollowRow w0 accRep false (fVec 2) (fSca 2) fNone 2 2 0 ∧
    Issues (at0 hollowRow) placedRowId hollowRow w0 accRep false (fVec 2) (fSca 3) fNone 2 3 0 ∧
    hollowRow.vFull 2 = false ∧ hollowRow.vFull 4 = false ∧ hollowRow.vFull 3 = true ∧ hollowRow.vFull 5 = true ∧
    hollowRow.vFull 28 = true ∧ hollowRow.badV 2 = false ∧ hollowRow.badV 3 = false ∧ hollowRow.badV 28 = false ∧
    hollowRow.badHead = false ∧ hollowRow.mx.anyStream Stream.north = false ∧
    hollowRow.north.fifo = [] ∧ hollowRow.north.transit = [] :=
  ⟨issues_at _ _ _ _ _ _ rfl rfl rfl, issues_at _ _ _ _ _ _ rfl rfl rfl, issues_at _ _ _ _ _ _ rfl rfl rfl,
    issues_at _ _ _ _ _ _ rfl rfl rfl, issues_at _ _ _ _ _ _ rfl rfl rfl, issues_at _ _ _ _ _ _ rfl rfl rfl,
    issues_at _ _ _ _ _ _ rfl rfl rfl, issues_at _ _ _ _ _ _ rfl rfl rfl, rfl, rfl, rfl, rfl, rfl, rfl, rfl, rfl, rfl, rfl, rfl,
    rfl⟩

/-- The same row with another north port. -/
def northWith (o c : Bool) : Row := { hollowRow with north := { hollowRow.north with isOpen := o, closed := c } }

theorem witness_OperandTraps_north : ∀ o c : Bool,
    Issues (at0 (northWith o c)) placedRowId (northWith o c) w0 accRep false (fVec 1) (fVec 28) (fVec 5) 1 28 5 ∧
    (northWith o c).north.isOpen = o ∧ (northWith o c).north.closed = c ∧ (northWith o c).north.fifo = [] := by
  intro o c
  cases o <;> cases c <;> exact ⟨issues_at _ _ _ _ _ _ rfl rfl rfl, rfl, rfl, rfl⟩

/-- The other shapes: SHAPE, BARX and its like, BINIT. -/
theorem witness_OperandTraps_rest :
    Issues (at0 hollowRow) placedRowId hollowRow w0 accMod false fNone fNone fNone 0 0 0 ∧ StreamQuiet hollowRow ∧
    Issues (at0 hollowRow) placedRowId hollowRow w0 accSchd false (fSca 1) (fSca 2) fNone 1 2 0 ∧
    Issues (at0 hollowRow) placedRowId hollowRow w0 accSchd false (fSca 2) (fSca 3) fNone 2 3 0 ∧ hollowRow.ctl.evsig = none ∧
    Issues (at0 hollowRow) placedRowId hollowRow w0 accSchd false fNone (fSca 3) (fSca 2) 0 3 2 :=
  ⟨issues_at _ _ _ _ _ _ rfl rfl rfl, ⟨rfl, rfl⟩, issues_at _ _ _ _ _ _ rfl rfl rfl, issues_at _ _ _ _ _ _ rfl rfl rfl, rfl,
    issues_at _ _ _ _ _ _ rfl rfl rfl⟩

/-- A row that a trap takes out of a WAIT, and two rows trapped before it in this V-cycle, one in a lower and one in a higher row. -/
theorem witness_TrapEntry : (at0 x0).row? placedRowId = some x0 ∧ (at0 x0).mem.wf = true := ⟨rfl, wf_at _⟩

theorem witness_TrapInstructions : Issues (at0 x0) placedRowId x0 w0 accSchd false fNone (fSca 2) fNone 0 2 0 ∧ x0.scalarReady 2 ∧
    Executes (at0 x0) placedRowId x0 w0 ∧ (2 : Nat) ≠ 3 := ⟨issues_at _ _ _ _ _ _ rfl rfl rfl, ⟨rfl, .inr rfl⟩, executes_at _ rfl, by decide⟩

/-- A row whose divergence mask is empty. -/
def noLanes : Row := x0.mset 0 0

theorem witness_TrapInstructions_skipped : Executes (at0 noLanes) placedRowId noLanes w0 ∧ noLanes.skips w0.laneW = true :=
  ⟨executes_at _ rfl, rfl⟩

theorem ready_any {y : Row} (hf : y.regs.sfull = x0.regs.sfull) (hb : y.regs.sbad = x0.regs.sbad) (i : Reg) : y.scalarReady i := by
  have h : ∀ i : Reg, x0.sFull i = true ∧ x0.regs.sbad.getLsbD i.toNat = false := by decide
  exact ⟨by simp only [Row.sFull, hf]; exact (h i).1, .inr (by rw [hb]; exact (h i).2)⟩

/-- A row with a producer that raises flags, one with an MSCA, and one with PEND. -/
def raisingRow : Row := { x0 with prods := [{ dest := .sca 1 0, raises := true }] }
def scalingRow : Row := { x0 with mx := { x0.mx with msca := some ⟨1, 0, zeroLanes⟩ } }
def pendRow : Row := { x0 with fp := { x0.fp with pend := true } }

theorem witness_TrapInstructions_flags :
    (∀ y ∈ [raisingRow, scalingRow, pendRow], StreamQuiet y ∧ Issues (at0 y) placedRowId y w0 accSchd false fNone fNone fNone 0 0 0 ∧
      Issues (at0 y) placedRowId y w0 accNone false fNone fNone fNone 0 0 0 ∧
      Issues (at0 y) placedRowId y w0 accSchd false (fSca 1) fNone fNone 1 0 0 ∧
      Issues (at0 y) placedRowId y w0 accSchd false (fSca 1) (fSca 2) fNone 1 2 0 ∧
      Issues (at0 y) placedRowId y w0 accSchd false fNone (fSca 2) (fSca 3) 0 2 3 ∧
      y.sFull 1 = true ∧ (∀ i : Reg, y.scalarReady i) ∧ y.ctl.barrier = none ∧ y.ctl.evsig = none ∧ y.ctl.lnch = none ∧
      y.isLead w0 = true ∧ classRoom (at0 y) w0 .nw = true ∧ fld (y.sget 2) 19 0 = 0) ∧
    raisingRow.prods.any (fun p => p.raises) = true ∧ scalingRow.prods.any (fun p => p.raises) = false ∧
    scalingRow.mx.msca.isSome = true ∧ pendRow.flagWait = none ∧ pendRow.fp.pend = true := by
  refine ⟨?_, rfl, rfl, rfl, rfl, rfl⟩
  intro y hy
  simp only [List.mem_cons, List.not_mem_nil, or_false] at hy
  obtain rfl | rfl | rfl := hy <;>
    exact ⟨⟨rfl, rfl⟩, issues_at _ _ _ _ _ _ rfl rfl rfl, issues_at _ _ _ _ _ _ rfl rfl rfl, issues_at _ _ _ _ _ _ rfl rfl rfl,
      issues_at _ _ _ _ _ _ rfl rfl rfl, issues_at _ _ _ _ _ _ rfl rfl rfl, rfl, ready_any rfl rfl, rfl, rfl, rfl, rfl, rfl, by decide⟩

theorem witness_SpecialRegisters : Issues (at0 x0) placedRowId x0 w0 accSchd false (fSca 1) fNone fNone 1 0 0 ∧ x0.sFull 1 = true ∧
    x0.flagWait = none ∧ (0x002 : BitVec 12) ∉ [(0x010 : BitVec 12), 0x011, 0x012, 0x013, 0x021, 0x050, 0x070] ∧
    Issues (at0 x0) placedRowId x0 w0 accSchd false fNone (fSca 2) fNone 0 2 0 ∧ x0.scalarReady 2 ∧ x0.isLead w0 = true ∧
    { x0 with inBand := 1 }.isLead w0 = false ∧
    (0x002 : BitVec 12) ∉ [(0x010 : BitVec 12), 0x011, 0x012, 0x013, 0x022, 0x060, 0x070] :=
  ⟨issues_at _ _ _ _ _ _ rfl rfl rfl, rfl, rfl, by decide, issues_at _ _ _ _ _ _ rfl rfl rfl, ⟨rfl, .inr rfl⟩, rfl, rfl, by decide⟩

/-- The last block of the window that an LNCH can name, and one with a reserved bit. -/
theorem witness_LaunchSignal_issue :
    let y := opsRow 3840 0 0 0
    Issues (at0 y) placedRowId y w0 accSchd false (fSca 1) (fSca 8) fNone 1 8 0 ∧ y.ctl.lnch = none ∧ y.ctl.evsig = none ∧
    groupReady y 8 2 ∧ y.sFull 1 = true ∧ Undisturbed y ∧ fld (y.sget 8) 19 0 % 64 = 0 ∧ fld (y.sget 8) 19 0 + 256 ≤ w0.wsize ∧
    (flushPosted (at0 y) placedRowId).row? placedRowId = some y ∧ y.ctl.parityDue = none ∧ fld (y.sget 8) 63 20 = 0 ∧
    fld (y.sget (8 + 1)) 63 4 = 0 ∧ postedHold (at0 y) y = none ∧ RangeClear (flushPosted (at0 y) placedRowId) y w0 .read 3840 256 ∧
    fld ((opsRow (dw (2 ^ 20)) 0 0 0).sget 8) 63 20 ≠ 0 :=
  ⟨issues_at _ _ _ _ _ _ rfl rfl rfl, rfl, rfl, fun i hi => (engine_at _ _ _ _ .sh).2 i (by omega), (rfl : x0.sFull 1 = true),
    ⟨rfl, rfl⟩, by decide, by decide, rfl, rfl, by decide, rfl, rfl, range_of ⟨rfl, rfl, rfl, rfl, rfl, rfl⟩ _ _ _, by decide⟩

/-- A launch that a row offers: with its ASID and no priority, and with another ASID. -/
def offer (asid : Nat) : LnchOp := ⟨leBytes 8 (asid * 2 ^ 56) ++ List.replicate 248 0, 0⟩
/-- A row at LNCH, and the state with queue 0 of a size. -/
def lnchRow (o : LnchOp) : Row := { x0 with ctl := { x0.ctl with lnch := some o } }
def lnchState (o : LnchOp) (size : BitVec 4) (tail : BitVec 12) : State :=
  { at0 (lnchRow o) with dist := { State.reset.dist with queues := State.reset.dist.queues.set 0 { LaunchQueue.reset with
    base := 1
    size := size
    en := true
    tail := tail } } }

theorem chan_at {s : State} (h : s.chans = Vector.replicate 384 { Channel.reset with trained := true }) (pa : Nat) :
    s.paFailed pa = false := by
  simp only [State.paFailed, State.chan, h, Vector.getElem?_replicate]
  split <;> rfl

theorem offer_length (n : Nat) : (offer n).block.length = 256 := by
  simp only [offer, List.length_append, List.length_replicate, leBytes_length]

theorem witness_LaunchSignal_taken :
    let s := lnchState (offer 0) 4 14
    s.row? placedRowId = some (lnchRow (offer 0)) ∧ (lnchRow (offer 0)).ctl.lnch = some (offer 0) ∧
    (lnchRow (offer 0)).ctl.trap = none ∧ lnchAllowed s (lnchRow (offer 0)) (offer 0) = true ∧ (s.queue 0).ring = 16 ∧
    (s.queue 0).count + 1 < (s.queue 0).ring ∧ (s.queue 0).entryPa 14 + 256 ≤ hbmEnd ∧
    (∀ i, i < 4 → s.paFailed ((s.queue 0).entryPa 14 + 64 * i) = false) ∧ (offer 0).block.length = 256 ∧ s.mem.wf = true ∧
    s.crossFail = false ∧ lnchHeld s (lnchRow (offer 0)) (offer 0) = false ∧ watchdogDue (lnchRow (offer 0)) = none :=
  ⟨rfl, rfl, rfl, by decide, rfl, by decide, by decide, fun _ _ => chan_at rfl _, offer_length _, wf_at x0, rfl, by decide, rfl⟩

theorem witness_LaunchSignal_full :
    let s := lnchState (offer 0) 4 15
    lnchAllowed s (lnchRow (offer 0)) (offer 0) = true ∧ (s.queue 0).ring ≤ (s.queue 0).count + 1 ∧
    lnchAllowed (lnchState (offer 1) 4 0) (lnchRow (offer 1)) (offer 1) = false ∧ lnchHeld s (lnchRow (offer 0)) (offer 0) = false ∧
    lnchHeld (lnchState (offer 1) 4 0) (lnchRow (offer 1)) (offer 1) = false := by decide

/-- A row that waits for its EVSIG of the slot at 0x10000, and a machine whose network cache holds a leaf of that page. -/
def evsigRow : Row := { x0 with ctl := { x0.ctl with evsig := some ⟨0x10000, 1, false⟩ } }
def evsigState : State := { at0 evsigRow with tcache := [(.network, ⟨(at0 evsigRow).bandAsid w0, 12, 16, 0x401C⟩)] }

theorem witness_LaunchSignal_event :
    let g := netRequester evsigState (evsigState.bandAsid w0) (some w0.launch) placedRowId.core
    evsigState.row? placedRowId = some evsigRow ∧ evsigState.band? evsigRow.band = some w0 ∧
    evsigRow.ctl.evsig = some ⟨0x10000, 1, false⟩ ∧ evsigRow.ctl.trap = none ∧ fld (0x10001 : Dword) 2 0 ≠ 0 ∧
    slotHeld evsigState g 0x10000 false = false ∧ slotHeld evsigState g 0x10001 false = false ∧
    resolve (walked evsigState g .update 0x10000 8) g .update 0x10000 8 = .ok (.hbm 0x4000) ∧ evsigState.mem.wf = true ∧
    (updateSlot evsigState g 0x10000 1 false).2 = 0 ∧ (updateSlot (at0 evsigRow) g 0x1000000000 1 false).2 ≠ 0 ∧
    slotHeld (at0 evsigRow) g 0x1000000000 false = false ∧ watchdogDue evsigRow = none := by
  refine ⟨rfl, rfl, rfl, rfl, by decide, by decide +kernel, by decide +kernel, by decide +kernel, wf_at x0, by decide +kernel, by decide +kernel,
    by decide +kernel, rfl⟩

/-! The monitor. -/

/-- The machine whose core 0 has a monitor, which executes, and a trapped row. -/
def atMon (y : Row) (m : Monitor) : State :=
  { at0 y with
    cores := s0.cores.set 0 { Core.reset with
      mon := m
      trapQ := [placedRowId] }
    active := .monitor 0 }

/-- A monitor of a mode with s2. -/
def mon0 (mode : MonMode) (v : Dword) : Monitor :=
  ⟨mode, 0, (Vector.replicate 32 0).set 2 v, none, none, 0, if mode = .handler then some placedRowId else none⟩

/-- A trapped row. -/
def trapRow (cause detail : Byte) : Row := { x0 with ctl := { x0.ctl with trap := some ⟨cause, detail, 0, 0, 0, 0⟩ } }

theorem monitor_at (y : Row) (m : Monitor) (h1 : m.imx1 = none) (h2 : m.imx2 = none) : MonitorRuns (atMon y m) 0 m :=
  ⟨rfl, rfl, h1, h2⟩

theorem witness_MonitorScalar : MonitorRuns (atMon x0 (mon0 .privileged 0)) 0 (mon0 .privileged 0) ∧
    ((mon0 .privileged 0).sget 2).toNat % 4 = 0 ∧ (mon0 .privileged 0).row = none := ⟨monitor_at _ _ rfl rfl, rfl, rfl⟩

/-- An IMX pending; a handler whose s2 is no multiple of 4; a privileged monitor that has taken a row. -/
theorem witness_MonitorScalar_more :
    let f : Monitor := { mon0 .privileged 0 with imx1 := some 5 }
    let h := mon0 .handler 3
    let v : Monitor := { mon0 .privileged 0 with row := some placedRowId }
    ((atMon x0 f).active = .monitor 0 ∧ ((atMon x0 f).core 0).mon = f ∧ f.imx1 = some 5 ∧ f.imx2 = none) ∧
    (MonitorRuns (atMon x0 h) 0 h ∧ h.mode = .handler ∧ (h.sget 2).toNat % 4 ≠ 0) ∧
    MonitorRuns (atMon x0 v) 0 v ∧ v.row = some placedRowId ∧ (atMon x0 v).row? placedRowId = some x0 ∧
    (atMon x0 v).band? x0.band = some w0 :=
  ⟨⟨rfl, rfl, rfl, rfl⟩, ⟨monitor_at _ _ rfl rfl, rfl, by decide⟩, monitor_at _ _ rfl rfl, rfl, rfl, rfl⟩

/-- Selectors: the last scalar register, the PC, and one with a reserved bit. -/
theorem witness_MonitorSystem_items : ∀ mode ∈ [MonMode.privileged, .handler], ∀ v ∈ [dw (2 ^ 48 + 31), dw (4 * 2 ^ 48), dw (2 ^ 52)],
    MonitorRuns (atMon x0 (mon0 mode v)) 0 (mon0 mode v) ∧ (atMon x0 (mon0 mode v)).row? placedRowId = some x0 ∧
    (atMon x0 (mon0 mode v)).band? x0.band = some w0 ∧
    ((mon0 mode v).mode = .privileged ∨ (mon0 mode v).mode = .handler ∧ (mon0 mode v).row = some placedRowId) := by
  intro mode hm v _
  simp only [List.mem_cons, List.not_mem_nil, or_false] at hm
  obtain rfl | rfl := hm
  · exact ⟨monitor_at _ _ rfl rfl, rfl, rfl, .inl rfl⟩
  · exact ⟨monitor_at _ _ rfl rfl, rfl, rfl, .inr ⟨rfl, rfl⟩⟩

theorem witness_MonitorSystem_selectors : selOf 0 ((mon0 .handler (dw (2 ^ 48 + 31))).sget 2) = ⟨1, placedRowId, 31, false⟩ ∧
    selOf 0 ((mon0 .handler (dw (4 * 2 ^ 48))).sget 2) = ⟨4, placedRowId, 0, false⟩ ∧
    selOf 0 ((mon0 .handler (dw (2 ^ 52))).sget 2) = ⟨0, placedRowId, 0, true⟩ ∧
    selOf 0 ((mon0 .handler 1).sget 2) = ⟨0, placedRowId, 1, false⟩ ∧
    selOf 0 ((mon0 .handler 0).sget 2) = ⟨0, placedRowId, 0, false⟩ := by decide

theorem witness_MonitorSystem_resume : ∀ y ∈ [trapRow 0x14 0, trapRow 0x0E 0, trapRow 0x0E 1, trapRow 0x16 0], ∀ v ∈ [(0 : Dword), 1],
    MonitorRuns (atMon y (mon0 .handler v)) 0 (mon0 .handler v) ∧ (mon0 .handler v).mode = .handler ∧
    (mon0 .handler v).row = some placedRowId ∧ placedRowId.core = 0 ∧ (atMon y (mon0 .handler v)).row? placedRowId = some y ∧
    y.ctl.trap.isSome = true := by
  intro y hy v _
  simp only [List.mem_cons, List.not_mem_nil, or_false] at hy
  refine ⟨monitor_at _ _ rfl rfl, rfl, rfl, rfl, rfl, ?_⟩
  obtain rfl | rfl | rfl | rfl := hy <;> rfl

theorem witness_MonitorSystem_privileged :
    MonitorRuns (atMon (trapRow 0x14 0) (mon0 .privileged 0)) 0 (mon0 .privileged 0) ∧ (mon0 .privileged 0).mode = .privileged ∧
    selOf 0 ((mon0 .privileged 0).sget 2) = ⟨0, placedRowId, 0, false⟩ ∧
    (atMon (trapRow 0x14 0) (mon0 .privileged 0)).row? placedRowId = some (trapRow 0x14 0) ∧
    (trapRow 0x14 0).ctl.trap = some ⟨0x14, 0, 0, 0, 0, 0⟩ ∧ x0.ctl.trap = none :=
  ⟨monitor_at _ _ rfl rfl, rfl, by decide, rfl, rfl, rfl⟩

/-- A launch with a handler at 0x8000. -/
def handledLaunch : Launch := { placedLaunch State.reset with block := [dw 1, 0, 0, 0, 0, 0x8000] ++ List.replicate 26 0 }

theorem witness_MonitorSystem_dispatch :
    let s := { atMon (trapRow 0x14 0) (mon0 .idle 0) with launches := [handledLaunch] }
    (s.core 0).mon.mode = .idle ∧ nextTrapped s 0 = some placedRowId ∧ s.row? placedRowId = some (trapRow 0x14 0) ∧
    s.band? (trapRow 0x14 0).band = some w0 ∧ s.launch? w0.launch = some handledLaunch ∧ handledLaunch.handler ≠ 0 ∧
    (trapRow 0x14 0).ctl.trap = some ⟨0x14, 0, 0, 0, 0, 0⟩ ∧ debugClaims s placedRowId w0 ⟨0x14, 0, 0, 0, 0, 0⟩ = false ∧
    (placedLaunch State.reset).handler = 0 := ⟨rfl, rfl, rfl, rfl, rfl, by decide, rfl, rfl, rfl⟩

theorem witness_MonitorSystem_limits : 2 ^ 20 ≤ ({ mon0 .handler 0 with count := 2 ^ 20 - 1 } : Monitor).count + 1 ∧
    MonitorRuns (atMon (trapRow 0x14 0) { mon0 .handler 0 with count := 2 ^ 20 - 1 }) 0 { mon0 .handler 0 with count := 2 ^ 20 - 1 } ∧
    (atMon (trapRow 0x14 0) { mon0 .handler 0 with count := 2 ^ 20 - 1 }).band? (trapRow 0x14 0).band = some w0 :=
  ⟨by decide, monitor_at _ _ rfl rfl, rfl⟩

/-- A band whose unit has stopped, its row too, and one that is saved; a pool from 1 MiB. -/
def stoppedBand : Band := { w0 with preempt := some .requested }
def savedBand : Band := { w0 with preempt := some .saved }
def ctxState (w : Band) (l : List (RowId × Row)) : State :=
  { atMon x0 (mon0 .privileged 0) with
    rows := l
    bands := [w]
    regs := { s0.regs with ctxpool := dw (64 * 2 ^ 40 + 2 ^ 20) } }

theorem save_ok : saveFails (ctxState stoppedBand [(placedRowId, x0)]) stoppedBand 0x100000
    (areaSize (ctxState stoppedBand [(placedRowId, x0)]) stoppedBand) = none := by
  unfold saveFails
  rw [if_neg (by decide), if_neg (by decide), if_neg (by simp [chan_at (s := ctxState stoppedBand [(placedRowId, x0)]) rfl]), if_neg]
  exact nofun

theorem bandParity_ctx : bandParity (ctxState stoppedBand [(placedRowId, x0)]) stoppedBand = none := by decide +kernel

/-- No channel is down or being retrained. -/
theorem held_ctx {s : State} (h : s.chans = Vector.replicate 384 { Channel.reset with trained := true }) (hf : s.freeze = .none)
    (pa n : Nat) : physHeld s pa n = false := by
  have : ∀ q, s.paHeld q = false := by
    intro q
    simp only [State.paHeld, State.chan, h, hf, Vector.getElem?_replicate]
    split <;> rfl
  simp [physHeld, this]

theorem witness_ContextResult :
    let s := ctxState stoppedBand [(placedRowId, x0)]
    MonitorRuns s 0 (mon0 .privileged 0) ∧ (mon0 .privileged 0).mode = .privileged ∧
    selBand s (selOf 0 ((mon0 .privileged 0).sget 2)) = some stoppedBand ∧ stoppedBand.preempt = some .requested ∧
    (unitOf s stoppedBand).all (bandStopped s) = true ∧ s = drainAimed s stoppedBand ∧ s.band? stoppedBand.id = some stoppedBand ∧
    bandParity s stoppedBand = none ∧ saveFails s stoppedBand 0x100000 (areaSize s stoppedBand) = none ∧
    (∀ p ∈ s.rows, p.2.aimsAt stoppedBand.id = false) ∧ stoppedBand.preempt ≠ some .saved ∧
    physHeld s 0x100000 (areaSize s stoppedBand) = false ∧ physHeld s 0x100000 (viewLen s stoppedBand 0x100000) = false := by
  refine ⟨⟨rfl, rfl, rfl, rfl⟩, rfl, rfl, rfl, rfl, rfl, rfl, bandParity_ctx, save_ok, ?_, nofun, held_ctx rfl rfl _ _, held_ctx rfl rfl _ _⟩
  intro p hp
  rw [List.mem_singleton.mp hp]
  rfl

/-- A band of one row of 16 lanes, with one entry of its mask stack and a trap. -/
def savedRow : Row := { trapRow 0x14 0 with stack := [loopEntry] }

theorem witness_ContextResult_area :
    let s := ctxState stoppedBand [(placedRowId, savedRow)]
    stoppedBand.height < 2 ^ 7 ∧ stoppedBand.laneW < 2 ^ 7 ∧ stoppedBand.wsize / 4096 - 1 < 2 ^ 8 ∧ stoppedBand.nb < 2 ^ 4 ∧
    stoppedBand.bandIx < 2 ^ 4 ∧ stoppedBand.row0 < 2 ^ 7 ∧ 0 < stoppedBand.height ∧ stoppedBand.lastRow s 0 = some savedRow ∧
    savedRow.status ≠ .exited ∧ savedRow.stack.length ≤ 16 ∧ savedRow.stack.reverse[0]? = some loopEntry ∧
    savedRow.ctl.trap = some ⟨0x14, 0, 0, 0, 0, 0⟩ := by
  refine ⟨by decide, by decide, by decide, by decide, by decide, by decide, by decide, rfl, nofun, by decide, rfl, rfl⟩

theorem witness_ContextResult_load :
    let s := ctxState savedBand []
    MonitorRuns s 0 (mon0 .privileged 0) ∧ selBand s (selOf 0 ((mon0 .privileged 0).sget 2)) = some savedBand ∧
    savedBand.preempt = some .saved ∧ leasable s savedBand = true ∧ (0x100000 : Nat) % 4096 = 0 ∧
    0x100000 + (areaView s savedBand 0x100000).map.stop ≤ hbmEnd ∧ s.crossFail = false ∧
    physHeld s 0x100000 (areaSize s savedBand) = false ∧ physHeld s 0x100000 (viewLen s savedBand 0x100000) = false ∧
    ∀ i, s.paFailed (0x100000 + 64 * i) = false ∧ s.paBad (0x100000 + 64 * i) = false :=
  ⟨⟨rfl, rfl, rfl, rfl⟩, rfl, rfl, rfl, rfl, by decide, rfl, held_ctx rfl rfl _ _, held_ctx rfl rfl _ _, fun _ => ⟨chan_at rfl _, rfl⟩⟩

/-! The walker. -/

/-- The command of the walk and a walker that runs it, with w1 to w4. -/
def walk0 : Cmd := placedCmd State.reset
def walker0 (a b c d : Dword) : Walker :=
  { Walker.reset with
    cmd := some 3
    w := ((((Walker.reset.w.set 1 a).set 2 b).set 3 c).set 4 d)
    prog := [0]
    tag := some (0, dw placedPc, 1) }
/-- The machine whose walker of cluster 0 executes. -/
def atWalk (v : Walker) : State :=
  { placeWalkerWord State.reset 0 with
    clusters := s0.clusters.set 0 { Cluster.reset with walker := v }
    active := .walker 0 }

theorem walk_at (v : Walker) (h : v.cmd = some 3) : WalkRuns (atWalk v) 0 walk0 v := ⟨rfl, h, rfl, rfl⟩

theorem witness_WalkerRegisters : WalkRuns (atWalk (walker0 0 0 0 0)) 0 walk0 (walker0 0 0 0 0) := walk_at _ rfl

/-- A branch to the last word, one past it, and one before word 0. -/
theorem witness_WalkerAccesses_branch : WalkRuns (atWalk (walker0 0 0 0 0)) 0 walk0 (walker0 0 0 0 0) ∧
    (((walker0 0 0 0 0).pc : Int) + (0 : BitVec 15).toInt = (0 : Nat) ∧ 0 < walk0.nwords) ∧
    (walk0.nwords : Int) ≤ ((walker0 0 0 0 0).pc : Int) + (1 : BitVec 15).toInt ∧
    ((walker0 0 0 0 0).pc : Int) + (-1 : BitVec 15).toInt < 0 := ⟨walk_at _ rfl, by decide, by decide, by decide⟩

/-- A walker that holds the line at 0. -/
def lineWalker : Walker := { walker0 0 0 0 0 with buf := [⟨0, List.replicate 64 1⟩] }

theorem witness_WalkerAccesses_load :
    (WalkRuns (atWalk lineWalker) 0 walk0 lineWalker ∧ lineWalker.buf.find? (fun l => l.addr == 0) = some ⟨0, List.replicate 64 1⟩) ∧
    (WalkRuns (atWalk (walker0 0 0 0 0)) 0 walk0 (walker0 0 0 0 0) ∧ ((walker0 0 0 0 0).get 1 + (56 : BitVec 16).signExtend 64).toNat % 2 ^ 3 = 0 ∧
      fld ((walker0 0 0 0 0).get 1 + (56 : BitVec 16).signExtend 64) 63 61 = 0 ∧
      (walker0 0 0 0 0).buf.find? (fun l => l.addr == 0) = none ∧ (walker0 0 0 0 0).fetches.length < 32) ∧
    ((walker0 0 0 0 0).get 1 + (57 : BitVec 16).signExtend 64).toNat % 2 ^ 3 ≠ 0 :=
  ⟨⟨walk_at _ rfl, rfl⟩, ⟨walk_at _ rfl, by decide, by decide, rfl, by decide⟩, by decide⟩

/-- A walker whose fetch of the line at 0 is outstanding, one with 32 fetches, and an address under tag 100. -/
def fetchWalker : Walker := { walker0 0 0 0 0 with fetches := [(0, none)] }
def busyWalker : Walker := { walker0 0 0 0 0 with fetches := List.replicate 32 (64, none) }

theorem witness_WalkerAccesses_fetches :
    (WalkRuns (atWalk fetchWalker) 0 walk0 fetchWalker ∧ fetchWalker.buf.find? (fun l => l.addr == 0) = none ∧
      fetchWalker.fetches.any (fun p => p.1 == 0) = true) ∧
    (WalkRuns (atWalk busyWalker) 0 walk0 busyWalker ∧ busyWalker.buf.find? (fun l => l.addr == 0) = none ∧
      busyWalker.fetches.any (fun p => p.1 == 0) = false ∧ 32 ≤ busyWalker.fetches.length) ∧
    fld ((walker0 (dw (4 * 2 ^ 61)) 0 0 0).get 1 + (0 : BitVec 16).signExtend 64) 63 61 = 4 ∧
    fld ((walker0 (dw (5 * 2 ^ 61)) 0 0 0).get 1 + (0 : BitVec 16).signExtend 64) 63 61 = 5 :=
  ⟨⟨walk_at _ rfl, rfl, rfl⟩, ⟨walk_at _ rfl, rfl, rfl, by decide⟩, by decide, by decide⟩

/-- The first bytes of the side memory of the walker's core. -/
def sideAt (off : Nat) : Dword := dw (7 * 2 ^ 61 + off)

theorem witness_WalkerAccesses_intersect :
    let v := walker0 3 2 (sideAt 0) 0
    WalkRuns (atWalk v) 0 walk0 v ∧ (v.get 3).toNat % 8 = 0 ∧ sideTarget 0 walk0 (v.get 3) = true ∧
    emissionMeets walk0 v.emis (v.get 3) 8 = false ∧ v.stop = none ∧
    savedHeld (atWalk v) (walkRequester (atWalk v) walk0.core walk0.launch) (v.get 3) 8 = false ∧
    sideTarget 0 walk0 (dw 0x10000) = false :=
  ⟨walk_at _ rfl, by decide, by decide, rfl, rfl, by decide, by decide⟩

/-- Two parts of two rows: the pointers stand in the window. -/
theorem witness_WalkerAccesses_part :
    let v := walker0 (sideAt 64) (dw (2 ^ 32 + 1)) (sideAt 0) 0
    let rd := readingFrom (unseenMem (atWalk v) walk0) (atWalk v) (fun t =>
      readPrefix t (walkRequester (atWalk v) walk0.core walk0.launch) (v.get 1) (pieces (v.get 1) 12))
    WalkRuns (atWalk v) 0 walk0 v ∧ fld (v.get 2) 63 44 = 0 ∧ fld (v.get 2) 31 24 = 0 ∧ fld (v.get 2) 43 32 + 1 = 2 ∧
    fld (v.get 2) 23 0 + 1 = 2 ∧ (v.get 3).toNat % 4 = 0 ∧ sideTarget 0 walk0 (v.get 3) = true ∧ (v.get 1).toNat % 4 = 0 ∧
    fld (v.get 1) 63 61 = 7 ∧ v.stop = none ∧ rd.2.2 = none ∧ ptrsOf rd.2.1 = [0, 0, 0] ∧
    emissionMeets walk0 v.emis (v.get 3) 12 = false ∧
    savedHeld (atWalk v) (walkRequester (atWalk v) walk0.core walk0.launch) (v.get 3) 12 = false ∧
    accessHeld (atWalk v) (walkRequester (atWalk v) walk0.core walk0.launch) .read (v.get 1) 12 = false :=
  ⟨walk_at _ rfl, by decide, by decide, by decide, by decide, by decide, by decide, by decide, by decide, rfl, by decide, by decide,
    rfl, by decide, by decide⟩

/-- The same with the array 2, 1, 0 in the window; with an array that no page maps; and an operand with a reserved bit. -/
theorem witness_WalkerAccesses_descend :
    let v := walker0 (sideAt 64) (dw (2 ^ 32 + 1)) (sideAt 0) 0
    let s := { atWalk v with mem := memWrite (atWalk v).mem (sideKey 0 64) [2, 0, 0, 0, 1, 0, 0, 0, 0, 0, 0, 0] }
    WalkRuns s 0 walk0 v ∧
    ptrsOf (readingFrom (unseenMem s walk0) s (fun t =>
      readPrefix t (walkRequester s walk0.core walk0.launch) (v.get 1) (pieces (v.get 1) 12))).2.1 = [2, 1, 0] ∧
    accessHeld s (walkRequester s walk0.core walk0.launch) .read (v.get 1) 12 = false ∧
    fld ((walker0 (sideAt 64) (dw (2 ^ 44)) 0 0).get 2) 63 44 ≠ 0 := ⟨⟨rfl, rfl, rfl, rfl⟩, by decide, by decide, by decide⟩

theorem witness_WalkerAccesses_unreadable :
    let v := walker0 (dw (2 ^ 40)) (dw (2 ^ 32 + 1)) (sideAt 0) 0
    let rd := readingFrom (unseenMem (atWalk v) walk0) (atWalk v) (fun t =>
      readPrefix t (walkRequester (atWalk v) walk0.core walk0.launch) (v.get 1) (pieces (v.get 1) 12))
    WalkRuns (atWalk v) 0 walk0 v ∧ rd.2.2.isSome = true ∧ ptrsOf rd.2.1 = [] ∧
    accessHeld (atWalk v) (walkRequester (atWalk v) walk0.core walk0.launch) .read (v.get 1) 12 = false :=
  ⟨walk_at _ rfl, by decide +kernel, by decide +kernel, by decide +kernel⟩

theorem witness_WalkerEmits :
    let v := walker0 (sideAt 0) 0x10000 3 0
    WalkRuns (atWalk v) 0 walk0 v ∧ fld (v.get 3) 63 44 = 0 ∧ fld (v.get 3) 31 20 = 0 ∧ (v.get 1).toNat % 4 = 0 ∧
    (fld (v.get 3) 19 0 + 1) % 4 = 0 ∧ fld (v.get 4) 63 32 % 4 = 0 ∧ (fld (v.get 3) 43 32 + 1) * (fld (v.get 3) 19 0 + 1) ≤ 2 ^ 20 ∧
    sideTarget 0 walk0 (v.get 1) = true ∧ (v.get 2).toNat % 4 = 0 ∧ fld (v.get 4) 31 0 % 4 = 0 ∧ fld (v.get 2) 63 61 = 0 ∧
    v.emis.length < 4 ∧ v.emis = [] ∧ v.stop = none ∧ fld ((walker0 0 0 3 1).get 4) 31 0 % 4 ≠ 0 :=
  ⟨walk_at _ rfl, by decide, by decide, by decide, by decide, by decide, by decide, by decide, by decide, by decide, by decide,
    by decide, rfl, rfl, by decide⟩

/-- Four emissions in flight. -/
def fullWalker : Walker :=
  { walker0 (sideAt 0) 0x10000 3 0 with emis := List.replicate 4 ⟨0, sideAt 0, none, 1, 4, 0, 0, 0, 0, 0⟩ }

theorem witness_WalkerEmits_full : WalkRuns (atWalk fullWalker) 0 walk0 fullWalker ∧ 4 ≤ fullWalker.emis.length ∧
    fullWalker.emis ≠ [] := ⟨walk_at _ rfl, by decide, by decide⟩

/-! Events of rows. -/

/-- A row with a producer of a kind. -/
def prodRow (p : Producer) : Row := { x0 with prods := [p] }

theorem witness_RowCompletion : ∀ p ∈ [({ dest := .vec 27 1 zeroLanes } : Producer), { dest := .sca 31 5 },
      { dest := .vec 1 1 zeroLanes, raises := true, fold := true }],
    (at0 (prodRow p)).row? placedRowId = some (prodRow p) ∧ (prodRow p).prods[0]? = some p ∧ (prodRow p).status = .running ∧
    p.parity = none ∧ (∀ q ∈ (prodRow p).prods, q.todo = []) := by
  intro p hp
  simp only [List.mem_cons, List.not_mem_nil, or_false] at hp
  obtain rfl | rfl | rfl := hp <;> exact ⟨rfl, rfl, rfl, rfl, by decide⟩

/-- An atomic with a step left, behind a producer without one. -/
def atomStep0 : AtomStep := ⟨0, 0, 2, ⟨64, 0, some .addI32, 5, 0⟩⟩
def atomProd : Producer := { dest := .vec 1 1 zeroLanes, todo := [atomStep0] }
def atomRow : Row := { x0 with prods := [{ dest := .sca 31 5 }, atomProd] }

theorem witness_AtomicResult_turn : (at0 atomRow).row? placedRowId = some atomRow ∧
    atomRow.prods = [{ dest := .sca 31 5 }] ++ atomProd :: [] ∧ atomProd.todo = atomStep0 :: [] ∧
    atomProd.dest = .vec 1 1 zeroLanes ∧ atomStep0.what.op = some .addI32 ∧
    (at0 atomRow).badWord (sideKey atomStep0.core.toNat atomStep0.what.off) = false ∧ wordHold (at0 atomRow) atomStep0.word = none ∧
    wordsHold (at0 atomRow) atomRow.stepWords = none ∧ atomRow.status = .running ∧
    ({ at0 atomRow with badWords := [sideKey 0 64 / 8] } : State).badWord (sideKey atomStep0.core.toNat atomStep0.what.off) = true ∧
    wordHold { at0 atomRow with badWords := [sideKey 0 64 / 8] } atomStep0.word = none :=
  ⟨rfl, rfl, rfl, rfl, rfl, rfl, by decide, by decide, rfl, by decide, by decide⟩

/-- A posted write that a command's range holds back. -/
def rangeCmd : Cmd := { cmdOf 0 0 0 0 .sh (.shcp 1 8 0 false false) with sb := [⟨0, true, 0, 64⟩] }

theorem witness_RemoteResult_held :
    let s := { at0 postRow with cmds := [rangeCmd] }
    s.row? placedRowId = some postRow ∧ ∃ j ∈ post0.lanes, ∃ k, sbBlocker s post0.core j.off (j.off + 4) true = some k :=
  ⟨rfl, ⟨0, 0, none, 5, 5⟩, List.mem_singleton.mpr rfl, _, rfl⟩

/-- The same range holds back the step of an atomic. -/
theorem witness_AtomicResult_held :
    wordHold { at0 atomRow with cmds := [{ rangeCmd with sb := [⟨0, true, 64, 128⟩] }] } atomStep0.word ≠ none ∧
    wordsHold { at0 atomRow with cmds := [{ rangeCmd with sb := [⟨0, true, 64, 128⟩] }] } atomRow.stepWords ≠ none := by
  constructor <;> simp [wordsHold, wordHold, sbBlocker, Row.stepWords, atomRow, atomProd, atomStep0, AtomStep.word, SbRange.hits]

/-- A row with an MSCA in progress in lane 0, and with what is to arrive. -/
def arriveRow : Row :=
  { x0 with
    north := ⟨List.replicate 7 zeroEntry, [zeroEntry], false, false, []⟩
    mx := { Matrix.start with
      msca := some ⟨1, 0x3F800000, zeroLanes⟩
      fly := [List.replicate 8 1]
      mwl := [(1, zeroEntry)] } }

theorem witness_RowCompletion_arrivals : (at0 arriveRow).row? placedRowId = some arriveRow ∧
    arriveRow.mx.msca = some ⟨1, 0x3F800000, zeroLanes⟩ ∧ arriveRow.north.transit = zeroEntry :: [] ∧
    arriveRow.north.fifo.length < 8 ∧ arriveRow.mx.fly = List.replicate 8 1 :: [] ∧ arriveRow.mx.mwl = (1, zeroEntry) :: [] :=
  ⟨rfl, rfl, rfl, by decide, rfl, rfl⟩

/-- A stream of mode 0 over signed bytes, one step, from the north port or from zeros; and a row that runs it. -/
def stream0 (src step : Nat) : Stream :=
  { kind := .mma
    word := 0
    modp := 0
    zp := false
    grant := dw (src * 2 ^ 60 + 2 ^ 59 + 2 ^ 58 + 2 ^ 57 + 4 * 2 ^ 52 + 4 * 2 ^ 48)
    base := 0
    stride := 0
    lanes := 1
    card := 0
    masks := []
    cardBytes := []
    step := step
    remaining := 2
    part := []
    starved := false }
def streamRow (t : Stream) (l : List Entry) (bs : List Byte) (closed : Bool) : Row :=
  { x0 with
    north := ⟨l, [], false, closed, []⟩
    mx := { Matrix.start with
      running := some t
      latch := bs } }

/-- A stream of another kind and grant, TERMINAL or not, which a row with a consumer below runs. -/
def kindStream (k : StreamKind) (ty : Nat) (term : Nat) : Stream :=
  { stream0 1 0 with
    kind := k
    grant := dw (2 ^ 60 + term * 2 ^ 59 + 2 ^ 58 + 2 ^ 57 + ty * 2 ^ 52 + ty * 2 ^ 48)
    masks := [3, 5]
    cardBytes := cardBytes }
def kindRow (t : Stream) : Row :=
  { streamRow t [zeroEntry] (List.replicate 8 1) false with south := ⟨some otherRow, 8, false, false⟩ }
def kindState (t : Stream) : State := { at0 (kindRow t) with rows := [(placedRowId, kindRow t), (otherRow, x0)] }

theorem witness_StreamEvents_steps : ∀ k ∈ [StreamKind.mma, .mmas, .mwf, .mwb], ∀ ty ∈ [4, 10], ∀ term ∈ [0, 1],
    let t := kindStream k ty term
    let s := kindState t
    s.row? placedRowId = some (kindRow t) ∧ s.band? (kindRow t).band = some w0 ∧ (kindRow t).mx.running = some t ∧
    stepParity s (kindRow t) w0 t = none ∧ t.kind = k ∧ t.terminal = (term == 1) ∧ (kindRow t).south.orphan = false ∧
    (kindRow t).south.dest = some otherRow ∧ otherRow ≠ placedRowId ∧ s.row? otherRow = some x0 := by
  intro k hk ty hty term hterm
  simp only [List.mem_cons, List.not_mem_nil, or_false] at hk hty hterm
  obtain rfl | rfl | rfl | rfl := hk <;> obtain rfl | rfl := hty <;> obtain rfl | rfl := hterm <;>
    exact ⟨rfl, rfl, rfl, by decide, rfl, by decide, rfl, rfl, by decide, rfl⟩

/-- The band of 16 lanes and the entries of the MWB values. -/
theorem witness_StreamEvents_tree :
    let t := { kindStream .mwb 10 1 with lanes := 3 }
    let w := { w0 with laneW := 16 }
    let e : Entry := (zeroEntry.set 0 0x3F80).set 1 0x4000
    grantAf t.grant = .bf16 ∧ grantBf t.grant = .bf16 ∧ w.laneW = 16 ∧ t.lanes = 3 ∧ entryAt e 0 = 0x3F80 ∧ entryAt e 1 = 0x4000 := by
  decide

/-- A stream with its entry, its latch bytes and its lane, from the north port; one from zeros; one whose port has closed; one
that has made its step. -/
theorem witness_StreamEvents :
    let x := streamRow (stream0 1 0) [zeroEntry] (List.replicate 8 1) false
    (at0 x).row? placedRowId = some x ∧ (at0 x).band? x.band = some w0 ∧ x.mx.running = some (stream0 1 0) ∧
    stepReady (at0 x) x w0 (stream0 1 0) = true ∧ (stream0 1 0).terminal = true ∧ (stream0 1 0).north = true ∧
    x.north.fifo = zeroEntry :: [] ∧ (stream0 1 0).kind = .mma ∧ (stream0 1 0).zp = false ∧
    grantAf (stream0 1 0).grant = .i8 ∧ grantBf (stream0 1 0).grant = .i8 ∧ (stream0 1 0).lanes.getLsbD 0 = true :=
  ⟨rfl, rfl, rfl, by decide, rfl, by decide, rfl, rfl, rfl, by decide, by decide, rfl⟩

theorem witness_StreamEvents_local :
    let x := streamRow (stream0 3 0) [] (List.replicate 8 1) false
    (at0 x).row? placedRowId = some x ∧ x.mx.running = some (stream0 3 0) ∧ stepReady (at0 x) x w0 (stream0 3 0) = true ∧
    (stream0 3 0).terminal = true ∧ (stream0 3 0).north = false := ⟨rfl, rfl, by decide, rfl, by decide⟩

theorem witness_StreamEvents_closed :
    let x := streamRow (stream0 1 0) [] (List.replicate 8 1) true
    (at0 x).row? placedRowId = some x ∧ stepReady (at0 x) x w0 (stream0 1 0) = true ∧ (stream0 1 0).north = true ∧
    x.north.fifo = [] ∧ x.north.closed = true ∧ x.north.transit = [] ∧ (stream0 1 0).step < grantK (stream0 1 0).grant ∧
    (stream0 1 0).starved = false ∧ x.mx.msca = none := ⟨rfl, by decide, by decide, rfl, rfl, rfl, by decide, rfl, rfl⟩

/-- A stream without its latch bytes. -/
theorem witness_StreamEvents_unready :
    let x := streamRow (stream0 1 0) [zeroEntry] [] false
    (at0 x).row? placedRowId = some x ∧ stepReady (at0 x) x w0 (stream0 1 0) = false ∧ x.north.closed = false :=
  ⟨rfl, by decide, rfl⟩

theorem witness_StreamEvents_complete :
    let x := streamRow (stream0 1 1) [] [] false
    (at0 x).row? placedRowId = some x ∧ grantK (stream0 1 1).grant ≤ (stream0 1 1).step ∧ x.status = .running ∧
    w0.preempt = none ∧ (stream0 1 1).part = [] := ⟨rfl, by decide, rfl, rfl, rfl⟩

theorem witness_StreamEvents_starved :
    let x := streamRow (stream0 1 0) [] [] false
    let s := atBand x stoppedBand (placedLaunch State.reset)
    s.row? placedRowId = some x ∧ s.band? x.band = some stoppedBand ∧ stoppedBand.preempt = some .requested ∧
    streamCanStep s x stoppedBand (stream0 1 0) = false := ⟨rfl, rfl, rfl, by decide⟩

/-- The word at the PC, and a PC that no page maps. -/
theorem witness_RowTimers_fetch : (at0 x0).row? placedRowId = some x0 ∧ (at0 x0).band? x0.band = some w0 ∧
    rowHeld (at0 x0) placedRowId x0 = false ∧ x0.ibuf = none ∧ fetchHeld (at0 x0) 0 ((at0 x0).bandAsid w0) x0.pc = false ∧
    fetchHeld { at0 x0 with freeze := .gated } 0 ((at0 x0).bandAsid w0) x0.pc = true ∧
    rowHeld { at0 x0 with freeze := .draining } placedRowId x0 = false ∧
    fetchHeld { at0 x0 with freeze := .draining } 0 ((at0 x0).bandAsid w0) x0.pc = true ∧
    (∃ t, fetchWord (at0 x0) 0 ((at0 x0).bandAsid w0) x0.pc = (t, .ok 0)) ∧
    (∃ t, fetchWord (at0 x0) 0 ((at0 x0).bandAsid w0) (dw (2 ^ 52)) = (t, .error 0x44)) := by
  refine ⟨rfl, rfl, rfl, rfl, by decide +kernel, by decide +kernel, by decide, by decide +kernel, ⟨(fetchWord (at0 x0) 0 ((at0 x0).bandAsid w0) x0.pc).1, ?_⟩, ⟨at0 x0, ?_⟩⟩
  · refine Prod.ext rfl ?_
    have h : (match (fetchWord (at0 x0) 0 ((at0 x0).bandAsid w0) x0.pc).2 with
      | .ok v => v == 0
      | .error _ => false) = true := by decide
    revert h
    cases (fetchWord (at0 x0) 0 ((at0 x0).bandAsid w0) x0.pc).2 <;> simp
  · rfl

/-- A row that has waited 1,024 V-cycles with the least limit, and whose interval is at its end. -/
def waitRow : Row :=
  { x0 with
    csr := { x0.csr with wdlim := 10 }
    ctl := { x0.ctl with
      wait := some ⟨1, .v, 1024⟩
      yieldLeft := 1 } }

theorem witness_RowTimers_watchdog : (at0 waitRow).row? placedRowId = some waitRow ∧ (at0 waitRow).band? waitRow.band = some w0 ∧
    rowHeld (at0 waitRow) placedRowId waitRow = false ∧ waitRow.ctl.wait = some ⟨1, .v, 1024⟩ ∧
    fld waitRow.csr.wdlim 4 0 ≠ 0 ∧ 2 ^ max (fld waitRow.csr.wdlim 4 0) 10 ≤ 1024 ∧ waitRow.ctl.yieldLeft = 1 ∧
    waitRow.isLead w0 = true := ⟨rfl, rfl, rfl, rfl, by decide, by decide, rfl, rfl⟩

/-- A row with the result of its wait; a pending change, or not. -/
def changeState (y : Row) (p : Option (Nat × Nat)) : State :=
  { at0 y with clusters := s0.clusters.set 0 { Cluster.reset with pace := { Pace.reset with pending := p } } }

theorem witness_RowTimers_release :
    let x := resultRow []
    let s := changeState x none
    s.row? placedRowId = some x ∧ s.band? x.band = some w0 ∧ x.ctl.barrier = some ⟨0, [], false, some 5⟩ ∧ x.ctl.trap = none ∧
    paceHeld s placedRowId x = false ∧ preempting s x = false ∧ s.launch? 1 = some (placedLaunch State.reset) ∧
    (placedLaunch State.reset).gbarOut.Nodup := ⟨rfl, rfl, rfl, rfl, rfl, rfl, rfl, .nil⟩

/-- A row at BARV, which is a boundary, under a pending change. -/
def barvRow : Row := { resultRow [] with ibuf := some 0xE1088000, ctl := { (resultRow []).ctl with wait := some ⟨9, .v, 0⟩ } }

theorem witness_RowTimers_held : (changeState barvRow (some (13, 16))).row? placedRowId = some barvRow ∧
    barvRow.ctl.barrier = some ⟨0, [], false, some 5⟩ ∧
    paceHeld (changeState barvRow (some (13, 16))) placedRowId barvRow = true := ⟨rfl, rfl, by decide⟩

/-- The machine with sampling on in die 0, and a record in its ring. -/
def traceState : State := { at0 x0 with dies := s0.dies.set 0 { Die.reset with
  trSmp := true
  trWr := 1 } }

theorem witness_RowTimers_trace : traceState.row? placedRowId = some x0 ∧ traceState.band? x0.band = some w0 ∧
    (traceState.die 0).trSmp = true ∧ nextSampled traceState 0 0 ((traceState.core 0).sampler[0]?.getD 0) = some placedRowId ∧
    (traceState.die 0).trRd ≠ (traceState.die 0).trWr ∧ (0 - traceState.tracePort).toNat = 0 := ⟨rfl, rfl, rfl, by decide, by decide, rfl⟩

/-! Events of commands. -/

/-- A command of the row, with its group, its indices and its instruction. -/
def cmd0 (cls : BClass) (i : Instr) (ops : List Dword) (idx : List Nat) : Cmd :=
  { placedCmd State.reset with
    instr := i
    cls := cls
    ops := ops
    idx := idx }
/-- The machine with a command in flight. -/
def atCmd (k : Cmd) : State := { at0 x0 with cmds := [k] }

/-- A copy of one line of 64 bytes from 0x5000 to 0x6000. -/
def copy0 : Cmd := cmd0 .sh (.shcp 1 8 0 false false) [0x6000, 0x5000, 63, 0] []
/-- A copy of two lines. -/
def copy2 : Cmd := cmd0 .sh (.shcp 1 8 0 false false) [0x6000, 0x5000, 127, 0] []

theorem witness_ShuttleLine : (atCmd copy0).cmd? copy0.id = some copy0 ∧ copy0.cls = .sh ∧ cmdStopped (atCmd copy0) copy0 = false ∧
    (0, 0) ∈ copy0.linesLeft ∧ copy0.sparse = false ∧ heldByEarlier (atCmd copy0) copy0 0 0 = false ∧
    ({ copy0 with done := [lineOrder 0 0] } : Cmd).linesLeft = [] ∧ copy0.src = .row placedRowId ∧
    (0, 0) ∈ copy2.linesLeft ∧ ({ copy2 with done := [lineOrder 0 0] } : Cmd).linesLeft ≠ [] ∧
    lineHeld (atCmd copy0) (coreRequester (atCmd copy0) 0 1 false) (copy0.line 0 0) = false ∧
    lineHeld { atCmd copy0 with freeze := .gated } (coreRequester (atCmd copy0) 0 1 false) (copy0.line 0 0) = true ∧
    (atCmd copy0).notes = [] := by
  refine ⟨rfl, rfl, rfl, by decide, rfl, rfl, by decide, rfl, by decide, by decide, by decide +kernel, by decide +kernel, rfl⟩

theorem witness_ShuttleLine_copied :
    let s := atCmd copy0
    let c := coreRequester s 0 1 false
    let v := readAddr { s with mem := unseenMem s copy0 } c 0x5000 64
    let u : State := { v.1 with mem := s.mem }
    copy0.line 0 0 = [⟨0x6000, .addr 0x5000, 64⟩] ∧ (match v.2 with
      | .ok bs => bs.length == 64
      | .error _ => false) = true ∧
    resolve u c .write 0x6000 64 = .ok (.hbm 0x6000) ∧ writeFails u (.hbm 0x6000) 64 = false ∧
    resolve (walked u c .write 0x6000 64) c .write 0x6000 64 = .ok (.hbm 0x6000) ∧
    writeFails (walked u c .write 0x6000 64) (.hbm 0x6000) 64 = false ∧ s.mem.wf = true ∧ c.link = false :=
  ⟨by decide, by decide +kernel, by decide +kernel, by decide +kernel, by decide +kernel, by decide +kernel, wf_at x0, rfl⟩

/-- A copy of 64 bytes with BAR and its slot 0 of the launch, of its generation and of another. -/
def copyBar : Cmd := cmd0 .sh (.shcp 1 8 0 true false) [0x6000, 0x5000, 63, 0] []
def barState (g : BitVec 16) : State := { atSlot x0 { slot1 with gen := g } with cmds := [copyBar] }

theorem witness_ShuttleLine_credit : copyBar.bar = true ∧ copyBar.credit = 64 ∧ copyBar.src = .row placedRowId ∧
    (barState 0).row? placedRowId = some x0 ∧ x0.band = copyBar.band ∧
    (slotOf (barState 0) placedRowId copyBar.slot).gen = copyBar.gen ∧
    (slotOf (barState 0) placedRowId copyBar.slot).owner = some copyBar.launch ∧
    (slotOf (barState 1) placedRowId copyBar.slot).gen ≠ copyBar.gen := ⟨rfl, by decide, rfl, rfl, rfl, rfl, rfl, by decide⟩

theorem witness_ShuttleLine_retires : copy0.src = .row placedRowId ∧ (atCmd copy0).row? placedRowId = some x0 ∧ x0.band = copy0.band ∧
    copy0.bar = false := ⟨rfl, rfl, rfl, rfl⟩

/-- A gather of two words by indices 0 and 1 of a table at 0x5000, and a reduction. -/
def gath0 : Cmd := cmd0 .gs (.gath 1 8 0 false false) [0x5000, 64, dw (128 * 2 ^ 32 + 1), 0] [0, 1]
def sred0 : Cmd := cmd0 .gs (.sred 1 8 0 .addI32 true false false) [0x5000, 64, dw (128 * 2 ^ 32 + 1), 0] [1, 1]

theorem witness_ElementEvents : (atCmd gath0).cmd? gath0.id = some gath0 ∧ gath0.cls = .gs ∧ gath0.sredForm = none ∧
    cmdStopped (atCmd gath0) gath0 = false ∧ 0 ∈ gath0.positionsLeft ∧
    gsHeld (atCmd gath0) gath0 (elementKeys (atCmd gath0) gath0 0) = false ∧
    scatHeld (atCmd gath0) gath0 0 (elementKeys (atCmd gath0) gath0 0) = false ∧
    ({ gath0 with done := [0] } : Cmd).positionsLeft ≠ [] ∧ ({ gath0 with done := [1, 0] } : Cmd).positionsLeft = [] ∧
    elementHeld (atCmd gath0) gath0 0 false = false ∧ elementHeld { atCmd gath0 with freeze := .gated } gath0 0 false = true ∧
    gath0.isGath = true ∧ gath0.badIx 0 = false :=
  ⟨rfl, rfl, rfl, rfl, by decide, by decide, by decide, by decide, by decide, by decide +kernel, by decide +kernel, rfl, by decide⟩

/-- A scatter, and a gather whose first address is out of range. -/
def scat0 : Cmd := cmd0 .gs (.scat 1 8 0 false false) [0x5000, 64, dw (128 * 2 ^ 32 + 1), 0] [0, 1]
def farGath : Cmd := cmd0 .gs (.gath 1 8 0 false false) [0x5000, 64, dw (128 * 2 ^ 32 + 1), dw (2 ^ 62)] [2 ^ 60, 1]

theorem witness_ElementEvents_more : (atCmd scat0).cmd? scat0.id = some scat0 ∧ scat0.isGath = false ∧ 0 ∈ scat0.positionsLeft ∧
    gsHeld (atCmd scat0) scat0 (elementKeys (atCmd scat0) scat0 0) = false ∧
    scatHeld (atCmd scat0) scat0 0 (elementKeys (atCmd scat0) scat0 0) = false ∧ elementHeld (atCmd scat0) scat0 0 false = false ∧
    (atCmd farGath).cmd? farGath.id = some farGath ∧ farGath.isGath = true ∧ farGath.badIx 0 = false ∧
    2 ^ 52 < farGath.base + farGath.idx.getD 0 0 * farGath.stride + farGath.esz ∧ elementHeld (atCmd farGath) farGath 0 false = false :=
  ⟨rfl, rfl, by decide, by decide, by decide, by decide +kernel, rfl, rfl, by decide, by decide, by decide +kernel⟩

theorem witness_ElementEvents_combine : (atCmd sred0).cmd? sred0.id = some sred0 ∧ sred0.sredForm = some (.addI32, true) ∧
    sred0.combined = false ∧ ((atCmd sred0).cmds.takeWhile (fun e => e.id != sred0.id)).any
      (fun e => e.core == sred0.core && e.sredForm.isSome && !e.combined) = false ∧
    sredHeld (atCmd sred0) sred0 = false := ⟨rfl, rfl, rfl, by decide, by decide +kernel⟩

theorem witness_ElementEvents_update :
    let k := { sred0 with
      combined := true
      groups := [⟨0x5004, 0, [0]⟩] }
    (atCmd k).cmd? k.id = some k ∧ k.groups.find? (fun v => v.p == 0) = some ⟨0x5004, 0, [0]⟩ ∧
    gsHeld (atCmd k) k (elementKeys (atCmd k) k 0) = false ∧ elementHeld (atCmd k) k 0 false = false :=
  ⟨rfl, rfl, by decide, by decide +kernel⟩

/-- Network commands with a line sent, and one whose time is up. -/
def put0 : Cmd := { cmd0 .nw (.nput 1 8) [0x5000, 0x6000, dw (2 ^ 48 + 3), 0] [] with sent := [0] }
def get0 : Cmd := { cmd0 .nw (.nget 1 8 false) [0x5000, 0x6000, dw (2 ^ 48 + 3), 0] [] with sent := [0] }

theorem witness_NetworkEvents : (atCmd put0).cmd? put0.id = some put0 ∧ put0.cls = .nw ∧ 0 ∈ put0.sent ∧ 0 ∉ put0.done ∧
    (∀ d a b, put0.instr ≠ .nget d a b) ∧ (atCmd get0).cmd? get0.id = some get0 ∧ get0.instr = .nget 1 8 false ∧ 0 ∈ get0.sent ∧
    0 ∉ get0.done ∧ [(0 : Byte), 0, 0, 0].length = blockLen get0.lineBase get0.bytes 0 ∧
    netLimit (atCmd put0) ≤ ({ put0 with timer := 2 ^ 30 } : Cmd).timer ∧ netHeld (atCmd put0) put0 0 = false ∧
    netHeld (atCmd get0) get0 0 = false ∧ netHeld { atCmd get0 with freeze := .gated } get0 0 = true :=
  ⟨rfl, rfl, by decide, by decide, nofun, rfl, rfl, by decide, by decide, by decide, by decide, by decide +kernel, by decide +kernel,
    by decide +kernel⟩

/-- A network with EN, a route to device 1 by port 0, and port 1 one failure from its end. -/
def peerState : State := { at0 x0 with net := { Network.reset with
  peerEn := true
  route := [(1, 0)]
  ports := Network.reset.ports.set 1 ⟨false, 15⟩ } }

theorem witness_NetworkEvents_peers : (at0 x0).net.peerEn = false ∧ peerState.net.peerEn = true ∧
    routePort peerState 1 = some 0 ∧ (1 : BitVec 12) ≠ peerState.net.devid ∧ portUp peerState 1 = true ∧
    peerState.net.ports[0].down = false ∧ peerState.net.ports[0].fails < 15 ∧ peerState.net.ports[1].down = false ∧
    15 ≤ peerState.net.ports[1].fails ∧ peerState.treadle.down = false ∧ peerState.peersUp = true ∧ (at0 x0).peersUp = true ∧
    State.reset.peersUp = false ∧ portUp peerState 2 = false ∧ portUp (at0 x0) 1 = false ∧
    peerHeld peerState (.write 0x5000 [1]) = false ∧ peerHeld peerState (.read 0x5000 4) = false ∧
    peerHeld peerState (.signal 0x5000 1 false) = false ∧
    (match (readAddr peerState (peerRequester peerState) 0x5000 4).2 with
      | .ok d => d.length == 4
      | .error _ => false) = true ∧
    (match (readAddr peerState (peerRequester peerState) (dw (2 ^ 51)) 4).2 with
      | .ok _ => false
      | .error _ => true) = true :=
  ⟨rfl, rfl, by decide, by decide, by decide, rfl, by decide, rfl, by decide, rfl, by decide, by decide, by decide, by decide, by decide,
    by decide +kernel, by decide +kernel, by decide +kernel, by decide +kernel, by decide +kernel⟩

/-- A reduction that has heard nothing, and one that has sent its result up. -/
def nred0 : Cmd := cmd0 .nw (.nred 1 8 .addI32) [0x5000, 0x6000, 3, 0] []
def nredState (up : Bool) : State := { atCmd nred0 with net := { Network.reset with nred := [⟨3, none, none, up⟩] } }

theorem witness_NetworkEvents_reduction : (nredState false).cmd? nred0.id = some nred0 ∧ nred0.nredOp = some .addI32 ∧
    (nredState false).net.nred.find? (fun n => n.cmd == nred0.id) = some ⟨3, none, none, false⟩ ∧
    (nredState true).net.nred.find? (fun n => n.cmd == nred0.id) = some ⟨3, none, none, true⟩ ∧ nredHeld (nredState true) nred0 = false :=
  ⟨rfl, rfl, rfl, rfl, by decide +kernel⟩

/-- A walker whose queue holds the command, its program resident. -/
def idleWalker : Walker :=
  { walker0 0 0 0 0 with
    cmd := none
    queue := [3] }

theorem witness_WalkerEvents_start : (atWalk idleWalker).walker 0 = idleWalker ∧ idleWalker.cmd = none ∧
    walkHead (atWalk idleWalker) idleWalker = some walk0 ∧ idleWalker.resume.find? (fun r => r.cmd == walk0.id) = none ∧
    walk0.reload = false ∧
    idleWalker.tag = some ((walkRequester (atWalk idleWalker) walk0.core walk0.launch).asid, walk0.op 0, walk0.nwords) ∧
    readFails (atWalk idleWalker) (cmdPlace (atWalk idleWalker) walk0 walk0.argsOff) 64 = false :=
  ⟨rfl, rfl, rfl, rfl, rfl, rfl, rfl⟩

/-- The same with no program resident: its load succeeds, waits for a frozen memory, or fails where no page is mapped; and an argument
block with an uncorrectable word. -/
def emptyWalker : Walker := { idleWalker with
  tag := none
  prog := [] }
def farWalk : Cmd := { walk0 with ops := [dw (2 ^ 40), 0, 0, 0] }

theorem witness_WalkerEvents_program :
    let s := atWalk emptyWalker
    let q := walkRequester s walk0.core walk0.launch
    s.walker 0 = emptyWalker ∧ emptyWalker.cmd = none ∧ walkHead s emptyWalker = some walk0 ∧
    emptyWalker.resume.find? (fun r => r.cmd == walk0.id) = none ∧ emptyWalker.tag ≠ some (q.asid, walk0.op 0, walk0.nwords) ∧
    accessHeld s q .read (walk0.op 0) (4 * walk0.nwords) = false ∧
    accessHeld { s with freeze := .draining } q .read (walk0.op 0) (4 * walk0.nwords) = true ∧
    walkHead { s with cmds := [farWalk] } emptyWalker = some farWalk ∧
    accessHeld s q .read (farWalk.op 0) (4 * farWalk.nwords) = false ∧
    readFails { atWalk idleWalker with badWords := [sideKey 0 0 / 8] } (cmdPlace (atWalk idleWalker) walk0 walk0.argsOff) 64 = true ∧
    (match (readingFrom (unseenMem s walk0) s (fun t => readLines t q (walk0.op 0) (pieces (walk0.op 0) (4 * walk0.nwords)))).2 with
      | .ok _ => true
      | .error _ => false) = true ∧
    (match (readingFrom (unseenMem s farWalk) s (fun t => readLines t q (farWalk.op 0) (pieces (farWalk.op 0) (4 * farWalk.nwords)))).2 with
      | .ok _ => false
      | .error _ => true) = true := by
  refine ⟨rfl, rfl, rfl, rfl, nofun, by decide +kernel, by decide +kernel, rfl, by decide +kernel, by decide +kernel, by decide +kernel,
    by decide +kernel⟩

/-- A walker that awaits lines at 0x5000 and, for an LD, at the top of the addresses; with an emission to the window; at a word
that is no instruction; and at its limit. -/
def lateWalker : Walker :=
  { walker0 0 0 0 0 with
    fetches := [(0x5000, none), (dw (2 ^ 52), some (dw (2 ^ 52))), (dw (2 ^ 53), none)]
    emis := [⟨0, sideAt 0, none, 1, 4, 0, 0, 4, 0, 0⟩]
    count := 2 ^ 32 }

theorem witness_WalkerEvents : (atWalk lateWalker).walker 0 = lateWalker ∧ lateWalker.cmd = some walk0.id ∧
    (atWalk lateWalker).cmd? walk0.id = some walk0 ∧ lateWalker.fetches.find? (fun p => p.1 == 0x5000) = some (0x5000, none) ∧
    lateWalker.fetches.find? (fun p => p.1 == dw (2 ^ 52)) = some (dw (2 ^ 52), some (dw (2 ^ 52))) ∧
    lateWalker.emis.find? (fun e => e.id == 0) = some ⟨0, sideAt 0, none, 1, 4, 0, 0, 4, 0, 0⟩ ∧ lateWalker.stop = none ∧
    emissionMeets walk0 (lateWalker.emis.takeWhile (fun e => e.id != 0)) (sideAt 0) ((1 - 1) * 0 + 4) = false ∧
    lateWalker.prog[lateWalker.pc]? = some 0 ∧ decodeWalker 0 = none ∧ 2 ^ 32 ≤ lateWalker.count :=
  ⟨rfl, rfl, rfl, rfl, by decide, rfl, rfl, rfl, rfl, by decide, by decide⟩

theorem witness_WalkerEvents_data :
    let s := atWalk lateWalker
    let q := walkRequester s walk0.core walk0.launch
    (match (readingFrom (unseenMem s walk0) s (fun t => readAddr t q 0x5000 64)).2 with
      | .ok bs => bs.length == 64
      | .error _ => false) = true ∧
    (match (readingFrom (unseenMem s walk0) s (fun t => readAddr t q (dw (2 ^ 52)) 64)).2 with
      | .ok _ => false
      | .error _ => true) = true ∧
    (emitLines walk0 q (Emission.lines ⟨0, sideAt 0, none, 1, 4, 0, 0, 4, 0, 0⟩) (s, none)).2 = none ∧
    lineHeld s q (Emission.lines ⟨0, sideAt 0, none, 1, 4, 0, 0, 4, 0, 0⟩) = false ∧
    accessHeld s q .read 0x5000 64 = false ∧ accessHeld s q .read (dw (2 ^ 52)) 64 = false := by decide +kernel

/-! The host and the management processor. -/

theorem witness_HostRegisters : (at0 x0).mgmt.bootState ≠ 2 ∧ ({ (at0 x0).net with lock := true } : Network).lock = true ∧
    (5 : Dword).getLsbD 0 = true ∧ fld (5 : Dword) 5 4 ≠ 3 ∧ (at0 x0).regs.invalidating = none := by decide

/-- An invalidation in progress; a page that the tables map, and one that they do not. -/
theorem witness_HostRegisters_translation :
    ({ (at0 x0).regs with invalidating := some (0, 1) } : MgmtRegs).invalidating = some (0, 1) ∧
    (match walkRoot (at0 x0) (cacheWalker .network) false 0 0x4000 with
      | .ok (e, _) => leafAllows e .read
      | .error _ => false) = true ∧
    (match walkRoot (at0 x0) (cacheWalker .network) false 0 (2 ^ 51) with
      | .ok _ => false
      | .error _ => true) = true ∧ (at0 x0).regs.invalidating = none ∧ (at0 x0).crossFail = false ∧
    walkHeld (at0 x0) (cacheWalker .network) false 0 0x4000 = false ∧
    walkHeld (at0 x0) (cacheWalker .network) false 0 (2 ^ 51) = false ∧
    walkHeld { at0 x0 with freeze := .gated } (cacheWalker .network) false 0 0x4000 = true := by decide +kernel

/-- A page that may be fetched only. -/
theorem witness_HostRegisters_executeOnly :
    (match walkRoot { at0 x0 with mem := memWrite s0.mem (hbmKey 0x2000) [0x13] } (cacheWalker .network) false 0 0x4000 with
      | .ok (e, _) => !leafAllows e .read && !leafAllows e .write
      | .error _ => false) = true ∧
    walkHeld { at0 x0 with mem := memWrite s0.mem (hbmKey 0x2000) [0x13] } (cacheWalker .network) false 0 0x4000 = false := by
  decide +kernel

theorem witness_HostRegisters_access : (at0 x0).treadle.down = false ∧ (at0 x0).freeze = .none ∧ (at0 x0).mgmt.bootState = 1 ∧
    (2 ^ 36 - 4 < 2 ^ 36) ∧ (at0 x0).regs.winbase.toNat ≤ 8 ∧ (∀ a : Nat, (at0 x0).paFailed a = false ∧ (at0 x0).paBad a = false) ∧
    (at0 x0).regs.winbase.toNat * 2 ^ 36 + (2 ^ 36 - 4) + 4 ≤ hbmEnd ∧ (at0 x0).mem.wf = true ∧
    ({ at0 x0 with freeze := .gated } : State).freeze = .gated ∧
    dropRead [.write (.bar2 0) [] 0, .read (.bar2 0) 4 0] = some [.write (.bar2 0) [] 0] ∧ (at0 x0).crossFail = false ∧
    physHeld (at0 x0) ((at0 x0).regs.winbase.toNat * 2 ^ 36 + (2 ^ 36 - 4)) 4 = false ∧
    ({ at0 x0 with treadle := ⟨true, 16⟩ } : State).treadle.down = true :=
  ⟨rfl, rfl, rfl, by decide, by decide, fun _ => ⟨chan_at rfl _, rfl⟩, by decide, wf_at x0, rfl, rfl, rfl, held_ctx rfl rfl _ _, rfl⟩

/-! The mailbox, debug, bring-up. -/

/-- The machine whose mailbox command runs: its OP, the length and the first bytes of its argument, the launches of the device. -/
def mbState (op len arg : Nat) (boot : BitVec 4) (ls : List Launch) (bs : List Band) : State :=
  { at0 x0 with
    launches := ls
    bands := bs
    mem := memWrite s0.mem (mailboxKey 0) (leBytes 8 arg)
    regs := { s0.regs with ctxpool := dw (2 ^ 60) }
    mgmt := { s0.mgmt with
      bootState := boot
      mbBusy := true
      mbcmd := dw (op + len * 2 ^ 32) } }
/-- A launch that may be pre-empted. -/
def preLaunch : Launch := { placedLaunch State.reset with
  block := dw (1 + 2 ^ 10 + 2 ^ 12 + 3 * 2 ^ 16) :: List.replicate 31 0 }
/-- The band, saved and held by the host. -/
def savedBand0 : Band := { w0 with
  preempt := some .saved
  hostHeld := true }

theorem witness_MailboxResult : ∀ p ∈ [((1 : Nat), (4 : Nat), (63 : Nat), (1 : BitVec 4)), (2, 32, 0, 1), (3, 4, 1200, 1), (3, 4, 3200, 1),
      (3, 4, 1199, 1), (3, 4, 3201, 1), (4, 4, 0, 1), (11, 4, 0, 1), (1, 4, 0, 0), (7, 0, 0, 1), (8, 0, 0, 2)],
    (mbState p.1 p.2.1 p.2.2.1 p.2.2.2 [preLaunch] [w0]).mgmt.mbBusy = true ∧
    (mbState p.1 p.2.1 p.2.2.1 p.2.2.2 [preLaunch] [w0]).mgmt.mbDone = false ∧
    fld (mbState p.1 p.2.1 p.2.2.1 p.2.2.2 [preLaunch] [w0]).mgmt.mbcmd 15 0 = p.1 ∧
    fld (mbState p.1 p.2.1 p.2.2.1 p.2.2.2 [preLaunch] [w0]).mgmt.mbcmd 63 32 = p.2.1 ∧
    leNat (memRead (mbState p.1 p.2.1 p.2.2.1 p.2.2.2 [preLaunch] [w0]).mem (mailboxKey 0) 4) = p.2.2.1 := by decide

theorem witness_MailboxResult_parts : (nextIndex { s0.mgmt with
      sigFresh := false
      sigIndex := 5 }).2.isSome = true ∧
    mbLaunch (mbState 11 4 0 1 [preLaunch] [w0]) = some preLaunch ∧
    leNat (memRead (mbState 5 8192 (1 + (2 ^ 22 - 8184) * 2 ^ 32) 2 [] []).mem (mailboxKey 0) 8) % 2 ^ 8 ≤ 1 ∧
    leNat (memRead (mbState 5 8192 (1 + (2 ^ 22 - 8184) * 2 ^ 32) 2 [] []).mem (mailboxKey 0) 8) / 2 ^ 32 + (8192 - 8) = 2 ^ 22 ∧
    leNat (memRead (mbState 6 4 1 2 [] []).mem (mailboxKey 0) 4) ≤ 1 := by decide

theorem witness_MailboxResult_preempt :
    let s := mbState 9 4 0 1 [preLaunch] [w0]
    s.mgmt.mbBusy = true ∧ s.mgmt.mbWork = none ∧ mbLaunch s = some preLaunch ∧ preemptRefused s preLaunch = false ∧
    preemptRefused { s with regs := s0.regs } preLaunch = true := by decide

theorem witness_MailboxResult_resume :
    let s := mbState 10 4 0 1 [preLaunch] [savedBand0]
    mbLaunch s = some preLaunch ∧ s.mgmt.mbWork = none ∧
    launchUnits s preLaunch.id (fun b => b.hostHeld && b.preempt == some .saved) ≠ [] ∧
    launchUnits (mbState 10 4 0 1 [preLaunch] [w0]) preLaunch.id (fun b => b.hostHeld && b.preempt == some .saved) = [] := by decide

/-- A command that has its answer. -/
theorem witness_MailboxResult_reply :
    ({ mbState 8 0 0 1 [] [] with mgmt := { (mbState 8 0 0 1 [] []).mgmt with mbDone := true } } : State).mgmt.mbBusy = true := rfl

theorem witness_MailboxResult_settled :
    let s := mbState 9 4 0 1 [preLaunch] [savedBand0]
    let t := mbState 10 4 0 1 [preLaunch] [w0]
    unitsSettled s [[2]] = true ∧ [[2]].all (unitBack t) = true ∧ fld s.mgmt.mbcmd 15 0 = 9 ∧ fld t.mgmt.mbcmd 15 0 = 10 := by decide

/-- A core whose debug command is pending, of a row or of a register of it, the row trapped or not. -/
def debugState (c : BitVec 2) (sel : Dword) (y : Row) : State :=
  { at0 y with cores := s0.cores.set 0 { Core.reset with dbg := { Core.reset.dbg with
    dsel := sel
    dcmd := some c } } }
def trapped0 : Row := { x0 with ctl := { x0.ctl with trap := some ⟨0x0E, 0, 0, 0, 0, 0⟩ } }

theorem witness_DebugCommands : ∀ c : BitVec 2,
    ((debugState c 0 x0).core 0).dbg.dsel = 0 ∧ (debugState c 0 x0).row? placedRowId = some x0 ∧
    (debugState c 0 x0).band? x0.band = some w0 ∧ ((debugState c 0 x0).core 0).dbg.dcmd = some c ∧
    selOf 0 0 = ⟨0, placedRowId, 0, false⟩ ∧ selOf 0 (dw (2 ^ 48 + 31)) = ⟨1, placedRowId, 31, false⟩ ∧
    (selOf 0 (dw (2 ^ 20))).reserved = true ∧ x0.ctl.trap = none := fun _ => ⟨rfl, rfl, rfl, rfl, rfl, rfl, rfl, rfl⟩

theorem witness_DebugCommands_resume : (debugState 2 0 trapped0).row? placedRowId = some trapped0 ∧
    trapped0.ctl.trap = some ⟨0x0E, 0, 0, 0, 0, 0⟩ ∧ (0x0E : Byte) ≠ 0x16 := ⟨rfl, rfl, by decide⟩

theorem witness_DeviceStart : (at0 x0).mem.wf = true ∧ State.reset.mgmt.bootState = 0 ∧ State.reset.mgmt.step = 1 ∧
    ∀ n ∈ [1, 2, 3, 4, 5, 6, 7, 8], ({ State.reset with mgmt := { State.reset.mgmt with step := n } } : State).mgmt.bootState = 0 :=
  ⟨wf_at x0, rfl, rfl, by decide⟩

/-! Channels, the freeze, pace. -/

theorem chan_trained (c : Fin 384) : ((at0 x0).chans[c.val]).trained = true ∧ ((at0 x0).chans[c.val]).failed = false := by
  have h : (at0 x0).chans = Vector.replicate 384 { Channel.reset with trained := true } := rfl
  simp only [h, Vector.getElem_replicate]
  exact ⟨trivial, rfl⟩

theorem paHeld_at (pa : Nat) : (at0 x0).paHeld pa = false := by
  have h : (at0 x0).chans = Vector.replicate 384 { Channel.reset with trained := true } := rfl
  have hf : (at0 x0).freeze = .none := rfl
  simp only [State.paHeld, State.chan, h, hf, Vector.getElem?_replicate]
  split <;> rfl

theorem witness_ChannelFreeze (c : Fin 384) : ((at0 x0).chans[c.val]).trained = true ∧ ((at0 x0).chans[c.val]).failed = false ∧
    stackRetraining (at0 x0) 0 = false ∧ (∀ pc : Fin 768, (at0 x0).paFailed (pseudoAddress pc.val (64 * (at0 x0).scrub[pc.val])) = false ∧
      (at0 x0).paBad (pseudoAddress pc.val (64 * (at0 x0).scrub[pc.val])) = false) ∧
    (at0 x0).mgmt.bootState = 1 ∧ (at0 x0).freeze = .none ∧ (∀ pa, (at0 x0).paHeld pa = false) ∧ 5 ≤ (at0 x0).mgmt.step ∧
    channelOf 0 = 0 ∧ (0 : Nat) < hbmEnd ∧ State.reset.mgmt.step < 5 :=
  ⟨(chan_trained c).1, (chan_trained c).2, by decide, fun _ => ⟨chan_at rfl _, rfl⟩, rfl, rfl, paHeld_at, by decide, by decide, by decide,
    by decide⟩

/-- A channel that retrains; a line that is uncorrectable; the states of the freeze. -/
theorem witness_ChannelFreeze_states :
    ({ Channel.reset with retraining := true } : Channel).retraining = true ∧
    ({ at0 x0 with badLines := [0] } : State).paBad (pseudoAddress 0 (64 * (at0 x0).scrub[0])) = true ∧
    ({ at0 x0 with freeze := .draining } : State).freeze = .draining ∧ (∀ c ∈ (at0 x0).chans.toList, c.retraining = false) ∧
    (∀ c ∈ (at0 x0).clusters.toList, c.pace.switching = false) ∧ ({ at0 x0 with freeze := .released } : State).heldHost = [] := by
  refine ⟨rfl, by decide, rfl, ?_, ?_, rfl⟩
  · intro c hc
    have h : (at0 x0).chans = Vector.replicate 384 { Channel.reset with trained := true } := rfl
    rw [h, Vector.toList_replicate] at hc
    rw [List.eq_of_mem_replicate hc]
    rfl
  · decide

/-- A cluster with a pending change, from a while ago or not, in a switch or not, and with a share. -/
def paceState (sw : Bool) (n : Nat) : State :=
  { at0 x0 with clusters := s0.clusters.set 0 { Cluster.reset with pace := { Cluster.reset.pace with
    pending := some (20, 31)
    pendCount := n
    switching := sw
    shareNum := 100
    shareDen := 1 } } }

theorem witness_PaceEvents : ((paceState false 0).cluster 0).pace.pending.isSome = true ∧ (paceState false 0).mgmt.bootState = 1 ∧
    ((paceState false 0).cluster 0).pace.switching = false ∧
    (∀ b ∈ residents ({ paceState false 0 with bands := [], rows := [] } : State) 0,
      bandStands ({ paceState false 0 with bands := [], rows := [] } : State) b = true) ∧
    ((paceState true 0).cluster 0).pace.pending = some (20, 31) ∧ ((paceState true 0).cluster 0).pace.switching = true ∧
    (paceState true 0).row? placedRowId = some x0 ∧ clusterOf placedRowId.core = 0 ∧ (paceState true 0).n < 256 ∧
    ((paceState true 0).die (dieOf placedRowId.core)).h < 256 ∧ 2 ^ 16 ≤ ((paceState false (2 ^ 16)).cluster 0).pace.pendCount ∧
    ((paceState false 0).cluster 0).pace.shareDen ≠ 0 ∧ ((paceState false 0).cluster 0).pace.shareNum < 101 * 1 ∧
    10 * (89 * 1) < 9 * ((paceState false 0).cluster 0).pace.shareNum := by
  refine ⟨rfl, rfl, rfl, ?_, rfl, rfl, rfl, rfl, by decide, by decide, by decide, by decide, by decide, by decide⟩
  decide

/-- A band that stands at a boundary. -/
theorem witness_PaceEvents_stands :
    let s : State := { paceState false 0 with bands := [{ w0 with preempt := some .requested }] }
    (residents s 0).length = 1 ∧ ∀ b ∈ residents s 0, bandStands s b = true := by decide

/-- A switch in progress with a later decision; a pending H of 14 on a die whose stack is High, or not; a pending N. -/
def nextState : State :=
  { at0 x0 with
    clusters := s0.clusters.set 0 { Cluster.reset with pace := { Cluster.reset.pace with
      pending := some (20, 31)
      switching := true
      next := some (13, 16) } }
    dies := s0.dies.set 0 { Die.reset with pendingH := some 14 }
    pendingN := some 10 }
def highState : State := { nextState with hbmStacks := nextState.hbmStacks.set 0 { nextState.hbmStacks[0] with high := true } }

theorem witness_PaceEvents_next : (nextState.cluster 0).pace.pending = some (20, 31) ∧ (nextState.cluster 0).pace.switching = true ∧
    (nextState.cluster 0).pace.next = some (13, 16) ∧ 13 ≠ 20 ∧ (nextState.die 0).pendingH = some 14 ∧ dieHigh nextState 0 = false ∧
    nextState.pendingN.isSome = true ∧ (highState.die 0).pendingH = some 14 ∧ dieHigh highState 0 = true ∧
    nextState.row? placedRowId = some x0 := by
  refine ⟨rfl, rfl, rfl, by decide, rfl, by decide, rfl, rfl, by decide, rfl⟩

theorem witness_PaceEvents_round : 8 ≤ (at0 x0).n ∧ (at0 x0).n ≤ 16 ∧
    ∀ d : DieId, ((at0 x0).die d).h = 10 ∨ ((at0 x0).die d).h = 12 ∨ ((at0 x0).die d).h = 14 := by decide

/-! The distributor. -/

/-- A block that is accepted: one row of one skein. -/
def goodBlock : List Dword := [dw (1 + 2 ^ 12 + 3 * 2 ^ 16), 0, dw placedPc] ++ List.replicate 29 0
/-- The machine with a block at the head of queue 0, ready or not. -/
def queueState (b : List Dword) (rdy : Bool) : State :=
  let s := lnchState (offer 0) 4 1
  { s with
    launches := []
    bands := []
    rows := []
    mem := memWrite s.mem ((s.queue 0).entryPa 0) (b.flatMap (fun v => leBytes 8 v.toNat))
    dist := { s.dist with queues := s.dist.queues.set 0 { s.queue 0 with ready := rdy } } }

theorem witness_LaunchPlacement : ∀ p ∈ [false, true],
    ((queueState goodBlock p).queue 0).en = true ∧ ((queueState goodBlock p).queue 0).ring ≠ 0 ∧
    ((queueState goodBlock p).queue 0).count ≠ 0 ∧ (queueState goodBlock p).launches.length < 64 ∧
    (queueState goodBlock p).mgmt.bootState = 1 ∧ slotAddrOk 0x6000 = true := by decide

theorem witness_LaunchPlacement_head : nextHead (queueState goodBlock true) = some (0, 0) := by decide

set_option maxRecDepth 100000 in
theorem witness_LaunchPlacement_held : pollHeld (queueState goodBlock false) 0 = false ∧
    headHeld (queueState goodBlock true) 0 = false := by decide +kernel

theorem witness_LaunchPlacement_frozen : pollHeld { queueState goodBlock false with freeze := .draining } 0 = true ∧
    headHeld { queueState goodBlock true with freeze := .draining } 0 = true ∧
    nextHead { queueState goodBlock true with freeze := .draining } = some (0, 0) := by decide +kernel

set_option maxRecDepth 100000 in
theorem witness_LaunchPlacement_block :
    (match readPhys (queueState goodBlock true) (((queueState goodBlock true).queue 0).entryPa 0) 256 with
      | (t, .ok bs) => (launchOf t 0 bs).block == goodBlock && (blockCheck t (launchOf t 0 bs)).isNone &&
          (match readTables t (launchOf t 0 bs) with
            | (_, .ok l) => l.block == goodBlock
            | (_, .error _) => false) &&
          (match waitMet t 0 0 0 with
            | (_, .ok true) => true
            | _ => false)
      | (_, .error _) => false) = true := by decide

theorem witness_LaunchPlacement_accepted : launchCheck (launchOf State.reset 0 (goodBlock.flatMap (fun v => leBytes 8 v.toNat))) = none := by
  decide

theorem witness_LaunchPlacement_rejected :
    blockCheck State.reset (launchOf State.reset 0 ((2 :: goodBlock.tail).flatMap (fun v => leBytes 8 v.toNat))) = some stRange := by
  decide

/-! Placement, and the life of a launch. -/

/-- A launch whose one skein, a GANG or not, waits to be placed. -/
def waitingLaunch (gang : Bool) : Launch := { placedLaunch State.reset with
  block := dw (1 + 2 ^ 12 + b2n gang * 2 ^ 14 + 3 * 2 ^ 16) :: goodBlock.tail
  nextSkein := 0
  waited := 2 ^ 16 }
/-- The machine with that launch and no band. -/
def placeState (l : Launch) : State := { at0 x0 with
  launches := [l]
  bands := []
  rows := [] }
/-- The run that it takes. -/
def firstRun : Run := ⟨0, 0, 0, 1, 0, 4096⟩

set_option maxRecDepth 100000 in
theorem witness_LaunchPlacement_place : (placeState (waitingLaunch false)).launch? (waitingLaunch false).id = some (waitingLaunch false) ∧
    placeRuns (placeState (waitingLaunch false)) (waitingLaunch false) = some [firstRun] ∧
    (∀ c ∈ (placeState (waitingLaunch false)).conts, contPlace (placeState (waitingLaunch false)) c = none) ∧
    (∀ a ∈ launchesAhead (placeState (waitingLaunch false)) (waitingLaunch false), placeRuns (placeState (waitingLaunch false)) a = none) ∧
    (waitingLaunch false).nreg = 0 ∧ (waitingLaunch false).isChain = false ∧ firstRun.row0 + firstRun.height ≤ 96 ∧
    firstRun.wbase + firstRun.wsize ≤ 2 ^ 20 ∧ (∀ r, (placeState (waitingLaunch false)).row? r = none) :=
  ⟨rfl, by decide, by decide, by decide, rfl, rfl, by decide, by decide, fun _ => rfl⟩

theorem witness_LaunchPlacement_due : reserveDue (placeState (waitingLaunch false)) (waitingLaunch false) = true ∧
    reserveDue (placeState (waitingLaunch true)) (waitingLaunch true) = true ∧ (waitingLaunch true).gang = true ∧
    (waitingLaunch false).gang = false := by decide

theorem witness_LaunchPlacement_reserve :
    reserveNext (placeState (waitingLaunch false)) (waitingLaunch false) [] false = some [firstRun] ∧
    (∀ r ∈ [firstRun], reservedByOther (placeState (waitingLaunch false)) (waitingLaunch false) (clusterOf r.core) = false) ∧
    (∀ j ∈ (placeState (waitingLaunch false)).launches, j.id = (waitingLaunch false).id) ∧
    (∀ b ∈ (placeState (waitingLaunch false)).bands, b.launch ≠ 1) := by decide +kernel

theorem witness_LaunchPlacement_gang :
    (match reserveAll (placeState (waitingLaunch true)) (waitingLaunch true) ((waitingLaunch true).skeins / (waitingLaunch true).group) [] with
      | .ok r => r == [firstRun]
      | .error _ => false) = true := by decide +kernel

/-- An earlier launch that is due for the same cluster. -/
def rivalState (gang : Bool) : State := { placeState (waitingLaunch gang) with
  launches := [{ waitingLaunch false with id := 0 }, waitingLaunch gang] }

theorem witness_LaunchPlacement_rival : ∀ gang : Bool,
    (rivalState gang).launch? 1 = some (waitingLaunch gang) ∧
    reserveDue (rivalState gang) { waitingLaunch false with id := 0 } = true ∧
    firstRun ∈ (reserveWish (rivalState gang) { waitingLaunch false with id := 0 }).1 ∧
    reserveDue (rivalState gang) (waitingLaunch gang) = true := by decide +kernel

/-- A reservation that a pre-emptible band of a lower PRIO blocks. -/
def urgentLaunch : Launch := { waitingLaunch false with
  id := 9
  block := dw (1 + 2 ^ 12 + 3 * 2 ^ 16 + 7 * 2 ^ 48) :: goodBlock.tail
  reserved := [firstRun] }
def blockedState (reduces : Bool) : State := { at0 x0 with
  launches := [preLaunch, urgentLaunch]
  cmds := if reduces then [{ nred0 with band := 2 }] else []
  regs := { s0.regs with ctxpool := dw (2 ^ 60) } }

theorem witness_LaunchPlacement_blockers : (blockedState false).launch? 9 = some urgentLaunch ∧
    blocks (blockedState false) urgentLaunch w0 = true ∧ canPreempt (blockedState false) w0 = true ∧
    unitReduces (blockedState false) w0 = false ∧ unitReduces (blockedState true) w0 = true ∧
    blocks (blockedState true) urgentLaunch w0 = true ∧
    (∀ b ∈ (placeState urgentLaunch).bands, blocks (placeState urgentLaunch) urgentLaunch b = false) := by decide +kernel

/-- The command of a staging region, its one line done without fault or with one, and a launch of one region or two. -/
def stageDone (fail : List (Nat × Byte × Dword)) : Cmd := { copy0 with
  src := .staging 0
  done := [lineOrder 0 0]
  fails := fail }
def regionLaunch (n : Nat) : Launch := { placedLaunch State.reset with
  block := [dw (1 + 2 ^ 12 + 3 * 2 ^ 16), dw (n * 2 ^ 8)] ++ List.replicate 30 0 }
def stageState (k : Cmd) (n : Nat) : State := { at0 x0 with
  cmds := [k]
  launches := [regionLaunch n] }

theorem witness_LaunchLife_staging : ∀ f ∈ [([] : List (Nat × Byte × Dword)), [(0, 3, 0x5000)]], ∀ n ∈ [1, 2],
    stagingOf (stageState (stageDone f) n) 2 = some (stageDone f, 0) ∧ (stageState (stageDone f) n).band? 2 = some w0 ∧ w0.id = 2 ∧
    (stageDone f).stagedOut = true ∧ (stageState (stageDone f) n).launch? w0.launch = some (regionLaunch n) ∧
    (regionLaunch n).ended = false ∧ w0.killed = false ∧ ((stageDone []).outcome.1 = 0 ∧ (stageDone [(0, 3, 0x5000)]).outcome.1 ≠ 0) ∧
    (0 + 1 < (regionLaunch 2).nreg ∧ (regionLaunch 1).nreg ≤ 0 + 1) := by decide

theorem witness_LaunchLife_complete :
    let s : State := placeState (placedLaunch State.reset)
    s.launch? (placedLaunch State.reset).id = some (placedLaunch State.reset) ∧ s.bands = [] ∧ s.cmds = [] ∧ s.conts = [] ∧
    (placedLaunch State.reset).skeins ≤ (placedLaunch State.reset).nextSkein ∧ (placedLaunch State.reset).dw 18 = 0 :=
  ⟨rfl, rfl, rfl, rfl, by decide, rfl⟩

/-- A parked continuation whose phase has completed. -/
def readyCont : Continuation := ⟨7, 1, 2, 0, 64, 0x4000, Vector.replicate 32 0, 0, false, 0, 0, 0, some 0⟩

set_option maxRecDepth 100000 in
theorem witness_LaunchLife_continuation :
    let s : State := { at0 x0 with
      rows := []
      conts := [readyCont] }
    s.conts.find? (fun e => e.id == readyCont.id) = some readyCont ∧ (contPlace s readyCont).isSome = true ∧
    s.launch? readyCont.launch = some (placedLaunch State.reset) ∧ s.band? readyCont.band = some w0 ∧
    paceBusy s (clusterOf readyCont.core) = false ∧ ∀ r, s.row? r = none :=
  ⟨rfl, by decide, rfl, rfl, rfl, fun _ => rfl⟩

theorem witness_LaunchLife_preempt :
    let s : State := { at0 x0 with
      launches := [preLaunch]
      regs := { s0.regs with ctxpool := dw (2 ^ 60) } }
    let u : State := { s with rows := [(placedRowId, { x0 with ctl := { x0.ctl with trap := some ⟨0x16, 0, 0, 0, 0, 0⟩ } })] }
    s.band? 2 = some w0 ∧ canPreempt s w0 = true ∧ parityRow s (unitOf s w0) = none ∧ w0.chain = none ∧ canPreempt u w0 = true ∧
    parityRow u (unitOf u w0) = some placedRowId := by decide

/-! Frames, encodings, the step. -/

/-- An outcome is a next state. -/
def isNext (o : Out) : Bool :=
  match o with
  | .next _ => true
  | _ => false
theorem isNext_elim {o : Out} (h : isNext o = true) : ∃ t, o = .next t := by
  cases o with
  | next t => exact ⟨t, rfl⟩
  | fault => cases h
  | refused => cases h

theorem witness_ScalarFrame : Executes (at0 x0) placedRowId x0 w0 ∧ (at0 x0).mem.wf = true ∧ scalarField (.sadd 1 2 3 false false) = some 1 ∧
    isNext (exec (.sadd 1 2 3 false false) (at0 x0)) = true := ⟨executes_at _ rfl, wf_at x0, rfl, by decide⟩
theorem witness_LaneFrame : Executes (at0 x0) placedRowId x0 w0 ∧ (at0 x0).mem.wf = true ∧ laneField (.vadd 1 2 3 0 false false false) = some 1 ∧
    modBit x0.hints 18 = false ∧ isNext (exec (.vadd 1 2 3 0 false false false) (at0 x0)) = true := ⟨executes_at _ rfl, wf_at x0, rfl, rfl, by decide⟩
theorem witness_MemoryFrame : Executes (at0 x0) placedRowId x0 w0 ∧ (at0 x0).mem.wf = true ∧
    isNext (exec (.sts 1 2 0) (at0 x0)) = true ∧ isNext (exec (.lds 1 2 0) (at0 x0)) = true :=
  ⟨executes_at _ rfl, wf_at x0, by decide, by decide⟩

/-- What a matrix, a card and an engine instruction do on small states, and an atomic and a remote store. -/
theorem witness_MatrixFrame : Executes (at0 (shapeRow 0 1)) placedRowId (shapeRow 0 1) w0 ∧ isMatrixInstr (.mclr 0 1) = true ∧
    isNext (exec (.mclr 0 1) (at0 (shapeRow 0 1))) = true ∧ isNext (exec (.mmovpGP 5 0) (at0 (shapeRow 0 1))) = true :=
  ⟨executes_at _ rfl, rfl, by decide, by decide⟩
theorem witness_CardFrame : Executes (at0 (cardRow 0 0)) placedRowId (cardRow 0 0) w0 ∧ (at0 (cardRow 0 0)).mem.wf = true ∧
    isNext (exec (.cardck 1 2 false) (at0 (cardRow 0 0))) = true ∧
    isNext (exec (.qpack 1 2 3 false false) (at0 (cardRow 0 (dw (256 * 2 ^ 32 + 264))))) = true :=
  ⟨executes_at _ rfl, wf_at _, by decide +kernel, by decide +kernel⟩
theorem witness_EngineFrame : Executes (at0 (opsRow 0x10000 0x20000 63 0)) placedRowId (opsRow 0x10000 0x20000 63 0) w0 ∧
    engineClass (.shcp 1 8 0 false false) = some .sh ∧ engineClass (.gath 1 8 26 false true) = some .gs ∧
    (at0 (opsRow 0x10000 0x20000 63 0)).mem.wf = true ∧
    isNext (exec (.shcp 1 8 0 false false) (at0 (opsRow 0x10000 0x20000 63 0))) = true ∧
    isNext (exec (.gath 1 8 26 false true) (at0 (opsRow 0 (dw (4088 * 2 ^ 32 + 2)) 0 0))) = true :=
  ⟨executes_at _ rfl, rfl, rfl, wf_at _, by decide +kernel, by decide +kernel⟩
theorem witness_MemoryFrame_atomic : isNext (exec (.atom 1 2 3 0 0 false .addI32) (at0 (accRow 0))) = true ∧
    isNext (exec (.rstv 1 2 0 0) (at0 (accRow 0))) = true := by decide +kernel

theorem witness_EncodedDecodes : (Instr.sli 5 0x389A).wf = true ∧ encode (.sli 5 0x389A) = some (0x1628389A : Word) ∧
    isWalkerInstr (.sli 5 0x389A) = false ∧ (Instr.wj (-10)).wf = true ∧ encode (.wj (-10)) = some (0x64007FF6 : Word) := by decide

theorem witness_DecodedEncodes : decodeRow 0x1628389A = .ok (.sli 5 0x389A) ∧ decodeWalker 0x64007FF6 = some (.wj (-10)) := by decide

/-- A word of the row, held in its buffer or to be fetched, and the agenda of its slot. -/
def slotState (v : Word) (held : Bool) : State := { placeRowWord State.reset v with
  rows := [(placedRowId, { x0 with ibuf := if held then some v else none })] }

theorem witness_AgentSteps :
    let s := slotState 0x28000000 true
    let u : State := { s with agenda := [] }
    let x : Row := { x0 with ibuf := some 0x28000000 }
    s.agenda = [.slot 0 0 0] ∧ turnBlocked u (.slot 0 0 0) = false ∧ issueOrder u 0 0 0 = [placedRowId] ∧ u.row? placedRowId = some x ∧
    u.band? x.band = some w0 ∧ rowDue u placedRowId x w0 = none ∧ rowHeld u placedRowId x = false ∧
    decodeRow 0x28000000 = .ok .nop ∧ (0x28000000 : Word).extractLsb' 24 8 ≠ 0xEF ∧ (u.slotUse 0 0 0).slots < 2 := by
  refine ⟨rfl, by decide, by decide, rfl, rfl, rfl, by decide, by decide, by decide, by decide⟩

/-- Rationing of level 3, with slots and reads of this V-cycle used: a NOP lacks no read; a VADD has its two where none has been used,
and lacks one where another row has used one; both slots may have been used. -/
def rationState (slots reads : Nat) : State :=
  let s := (at0 x0).modCluster 0 (fun k => { k with pace := { k.pace with ration := 3 } })
  s.modCore 0 (fun k => { k with slotUse := k.slotUse.set 0 ⟨s.stampAt placedRowId, slots, reads⟩ })

theorem witness_AgentSteps_ration :
    readsLeft (rationState 1 2) placedRowId x0 .nop = (0, 0) ∧
    readsLeft (rationState 0 0) placedRowId x0 (.vadd 1 2 3 0 false false false) = (2, 2) ∧
    readsLeft (rationState 1 1) placedRowId x0 (.vadd 1 2 3 0 false false false) = (2, 1) ∧
    ((rationState 1 1).slotUse 0 0 0).slots < 2 ∧ 2 ≤ ((rationState 2 4).slotUse 0 0 0).slots := by decide

theorem witness_AgentSteps_fetch :
    let s := slotState 0x28000000 false
    let u : State := { s with agenda := [] }
    u.row? placedRowId = some { x0 with ibuf := none } ∧ rowHeld u placedRowId { x0 with ibuf := none } = false ∧
    rowFetchHeld u placedRowId { x0 with ibuf := none } = false ∧
    (match fetchWord u 0 (u.bandAsid w0) x0.pc with
      | (_, .ok v) => v == 0x28000000
      | (_, .error _) => false) = true ∧ isNext (step s) = true := by
  refine ⟨rfl, by decide, by decide +kernel, by decide, by decide⟩

theorem witness_AgentSteps_walker :
    let s := placeWalkerWord State.reset 0x64000000
    let u : State := { s with agenda := [] }
    s.agenda = [.walker 0] ∧ turnBlocked u (.walker 0) = false ∧ walkCmd u 0 = some walk0 ∧ (u.walker 0).stop = none ∧
    cmdStopped u walk0 = false ∧ (u.walker 0).count < 2 ^ 32 ∧ (u.walker 0).pc < walk0.nwords ∧
    (u.walker 0).prog[(u.walker 0).pc]? = some 0x64000000 ∧ decodeWalker 0x64000000 = some (.wj 0) := by
  refine ⟨rfl, by decide, rfl, rfl, rfl, by decide, by decide, rfl, by decide⟩

theorem witness_AgentSteps_monitor :
    let s := placeMonitorWord State.reset 0xEF05B001
    let u : State := { s with agenda := [] }
    s.agenda = [.monitor 0] ∧ turnBlocked u (.monitor 0) = false ∧ (u.core 0).mon.mode = .privileged ∧
    (u.core 0).mon.pc.toNat + 4 ≤ 2 ^ 16 ∧ (u.core 0).mon.pc.toNat % 4 = 0 ∧
    memWord u.mem (monitorKey (0 : CoreId).toNat (u.core 0).mon.pc.toNat) = 0xEF05B001 ∧
    decodeRow 0xEF05B001 = .ok (.kwrr 22 24) ∧ monAllowed false (.kwrr 22 24) = true := by
  refine ⟨rfl, by decide, rfl, by decide, by decide, by decide, by decide, rfl⟩

theorem witness_AgentSteps_event :
    let s : State := { at0 x0 with agenda := [.event .arbiterRound] }
    s.agenda = [.event .arbiterRound] ∧ isEvent .arbiterRound = true ∧
    turnBlocked ({ s with agenda := [] } : State) (.event .arbiterRound) = false := ⟨rfl, rfl, by decide⟩

theorem witness_MemoryWfStep : (slotState 0x28000000 true).mem.wf = true ∧ isNext (step (slotState 0x28000000 true)) = true :=
  ⟨by decide, by decide⟩

theorem witness_ResetValues : State.reset.mem.wf = true := rfl

/-! Parity errors, waits at their limit, windows that are away, and the checks of commands. -/

/-- A row with a CSR access that waits, and one that a monitor has taken. -/
theorem witness_MonitorScalar_waits :
    let v : Monitor := { mon0 .privileged 0 with row := some placedRowId }
    MonitorRuns (atMon raisingRow v) 0 v ∧ v.row = some placedRowId ∧ raisingRow.flagWait ≠ none ∧ x0.flagWait = none :=
  ⟨monitor_at _ _ rfl rfl, rfl, by decide, rfl⟩

/-- The second record of an area: that of a band of two rows of 16 lanes, whose first record has its length. -/
theorem witness_ContextResult_second :
    let b : Band := { stoppedBand with height := 2, laneW := 16 }
    let s := ctxState b [(placedRowId, savedRow)]
    1 < b.height ∧ ∀ j, j < 1 → (rowRecord s b j (0x100000 + (256 + j * (1024 + 232 * b.laneW))) (maskOffset s b j)).length =
      1024 + 232 * b.laneW := by
  refine ⟨by decide, ?_⟩
  intro j hj
  obtain rfl : j = 0 := by omega
  decide +kernel

/-- A fence of a row with the step of an atomic to make, and of one with nothing to perform. -/
theorem witness_FencePark_steps :
    Issues (at0 atomRow) placedRowId atomRow w0 accSchd false fNone fNone fNone 0 0 0 ∧ Undisturbed atomRow ∧
    wordsHold (at0 atomRow) atomRow.stepWords = none ∧
    (match (settleAtoms (at0 atomRow) placedRowId).row? placedRowId with
      | some z => z.ctl.parityDue.isNone && (z.prods.flatMap (fun p => p.todo)).isEmpty
      | none => false) = true := by
  refine ⟨issues_at _ _ _ _ _ _ rfl rfl rfl, ⟨rfl, rfl⟩, by decide, by decide +kernel⟩

/-- A posted write whose window is away, and one whose window is not. -/
theorem witness_RemoteResult_away :
    let s : State := { at0 postRow with bands := [savedBand] }
    s.row? placedRowId = some postRow ∧ s.band? post0.band = some savedBand ∧ savedBand.gone s = true ∧
    (at0 postRow).band? post0.band = some w0 ∧ w0.gone (at0 postRow) = false := by
  refine ⟨rfl, rfl, by decide, rfl, by decide⟩

/-- Posted writes of a row that releases leave no parity error, and its compare-and-swap reads D too. -/
theorem witness_AtomicResult_release : (flushPosted (at0 (accRow 0)) placedRowId).row? placedRowId = some (accRow 0) ∧
    (accRow 0).ctl.parityDue = none ∧ (2 : BitVec 2).getLsbD 1 = true ∧
    SourcesReady (accRow 0) ([2, 3] ++ if AtomOp.cas = .cas then [1] else []) none :=
  ⟨rfl, rfl, rfl, sources_lane _ _ (by decide) (by decide)⟩

/-- A stream of a band that is being pre-empted, whose next latch byte has a parity error. -/
def sickRow : Row :=
  let x := streamRow (stream0 3 0) [] (List.replicate 8 1) false
  { x with mx := { x.mx with latchBad := [7] } }

theorem witness_StreamEvents_parity :
    let s := atBand sickRow stoppedBand (placedLaunch State.reset)
    s.row? placedRowId = some sickRow ∧ s.band? sickRow.band = some stoppedBand ∧ sickRow.mx.running = some (stream0 3 0) ∧
    stepReady s sickRow stoppedBand (stream0 3 0) = true ∧ stoppedBand.preempt ≠ none ∧ sickRow.status ≠ .exited ∧
    stepParity s sickRow stoppedBand (stream0 3 0) = some (3, 0) ∧ (stream0 3 0).terminal = true ∧ (stream0 3 0).north = false := by
  refine ⟨rfl, rfl, rfl, by decide, nofun, nofun, by decide, rfl, by decide⟩

/-- A consumer whose running stream takes entries from the north: the entry of a source row's step pays for it; the step of a row
below is none of a source row. -/
def payRow : Row := streamRow (stream0 1 0) [] [] false

theorem witness_StreamEvents_pays :
    let t := kindStream .mma 4 0
    let s : State := { kindState t with rows := [(placedRowId, kindRow t), (otherRow, payRow)] }
    s.row? otherRow = some payRow ∧ sourceRow s placedRowId t = true ∧ (payRow.mx.payEntry 0).2 = false ∧
    payRow.mx.running = some (stream0 1 0) ∧ (stream0 1 0).north = true ∧ (stream0 1 0).step + 0 < grantK (stream0 1 0).grant ∧
    sourceRow s otherRow (stream0 1 0) = false := by
  refine ⟨rfl, by decide, by decide, rfl, by decide, by decide, by decide⟩

/-- A parity error that is due in a row whose fetch fails, and in one whose wait has reached its limit. -/
def dueRow (y : Row) : Row := { y with ctl := { y.ctl with parityDue := some (6, 8) } }

theorem witness_RowTimers_due : (at0 (dueRow waitRow)).row? placedRowId = some (dueRow waitRow) ∧
    rowHeld (at0 (dueRow waitRow)) placedRowId (dueRow waitRow) = false ∧ (dueRow waitRow).ctl.wait = some ⟨1, .v, 1024⟩ ∧
    (dueRow waitRow).ctl.parityDue = some (6, 8) ∧ (dueRow x0).ibuf = none ∧ (dueRow x0).ctl.parityDue = some (6, 8) ∧
    x0.ctl.parityDue = none ∧ waitRow.ctl.parityDue = none := ⟨rfl, rfl, rfl, rfl, rfl, rfl, rfl, rfl⟩

/-- A row with the result of its wait whose count has reached its limit, and one whose has not. -/
def lateRow : Row := { waitRow with ctl := { waitRow.ctl with barrier := some ⟨0, [], false, some 5⟩ } }

theorem witness_RowTimers_late : (at0 lateRow).row? placedRowId = some lateRow ∧ (at0 lateRow).band? lateRow.band = some w0 ∧
    lateRow.ctl.barrier = some ⟨0, [], false, some 5⟩ ∧ lateRow.ctl.trap = none ∧ watchdogDue lateRow ≠ none ∧
    watchdogDue (resultRow []) = none := ⟨rfl, rfl, rfl, rfl, by decide, by decide⟩

/-- A card whose summary, masks and codes are pinned. -/
theorem witness_CardResult_summary : (cardOf cardBytes).m = 4 ∧ 1 ≤ (cardOf cardBytes).n ∧ (cardOf cardBytes).n ≤ (cardOf cardBytes).m ∧
    (cardOf cardBytes).vfmt < 16 ∧ (cardOf cardBytes).extent < 2 ^ 32 ∧ (∀ q ∈ [3, 12], q < 16) := by decide

/-- Shuttle commands that pass, that fail with RANGE, and that fail with PERMISSION: side memory beyond the window, which ends at
4096. -/
theorem witness_ShuttleIssue_checks :
    let s := at0 x0
    copyCheck s (cmd0 .sh (.shcp 1 8 0 false false) [sideAt 4032, 0x5000, 63, 0] []) = none ∧
    copyCheck s (cmd0 .sh (.shcp 1 8 0 false false) [sideAt 4036, 0x5000, 63, 0] []) = some 0x42 ∧
    copyCheck s (cmd0 .sh (.shcp 1 8 0 false false) [0x5020, 0x5000, 63, 0] []) = some 0x44 ∧
    copyCheck s (cmd0 .sh (.shset 1 8 0 2 false false) [sideAt 4032, 0, 63, 0] []) = none ∧
    copyCheck s (cmd0 .sh (.shset 1 8 0 2 false false) [sideAt 4036, 0, 63, 0] []) = some 0x42 ∧
    copyCheck s (cmd0 .sh (.shset 1 8 0 3 false false) [sideAt 0, 0, 59, 0] []) = some 0x44 ∧
    trCheck s (cmd0 .sh (.shtr 1 8 false false false) [sideAt 4095, 0x5000, 0, 0] []) = none ∧
    trCheck s (cmd0 .sh (.shtr 1 8 false false false) [sideAt 4096, 0x5000, 0, 0] []) = some 0x42 ∧
    trCheck s (cmd0 .sh (.shtr 1 8 false false false) [0x5000, 0x5000, 0, 0] []) = some 0x44 ∧
    spCheck s (cmd0 .sh (.shtr 1 8 false false true) [sideAt 4032, 0x5000, 0, 0] []) = none ∧
    spCheck s (cmd0 .sh (.shtr 1 8 false false true) [sideAt 4096, 0x5000, 0, 0] []) = some 0x42 ∧
    spCheck s (cmd0 .sh (.shtr 1 8 false false true) [sideAt 32, 0x5000, 0, 0] []) = some 0x44 ∧
    (∃ q, (cmd0 .sh (.shtr 1 8 false false false) [] []).src = .row q) := by
  refine ⟨by decide +kernel, by decide +kernel, by decide +kernel, by decide +kernel, by decide +kernel, by decide +kernel,
    by decide +kernel, by decide +kernel, by decide +kernel, by decide +kernel, by decide +kernel, by decide +kernel, placedRowId, rfl⟩

/-- Network commands that pass, and that fail: RANGE, PERMISSION, and LINK where no route leads to device 1. -/
theorem witness_WalkNetworkIssue_checks :
    let s := netState x0
    let far : Dword := dw (2 ^ 48 + 3)
    netCheck s (cmd0 .nw (.nput 1 8) [sideAt 4092, 0x6000, 3, 0] []) w0.wsize = none ∧
    netCheck s (cmd0 .nw (.nput 1 8) [sideAt 4094, 0x6000, 3, 0] []) w0.wsize = some 0x44 ∧
    netCheck s (cmd0 .nw (.nput 1 8) [sideAt 4096, 0x6000, far, 0] []) w0.wsize = some 0x42 ∧
    netCheck s (cmd0 .nw (.nput 1 8) [sideAt 4092, 0x6000, far, 0] []) w0.wsize = some 0x46 ∧
    netCheck s (cmd0 .nw (.nget 1 8 false) [sideAt 4092, 0x6000, 3, 0] []) w0.wsize = none ∧
    netCheck s (cmd0 .nw (.nget 1 8 false) [dw (4 * 2 ^ 61), 0x6000, 3, 0] []) w0.wsize = some 0x44 ∧
    netCheck s (cmd0 .nw (.nget 1 8 false) [sideAt 4096, 0x6000, 3, 0] []) w0.wsize = some 0x42 ∧
    netCheck s (cmd0 .nw (.nget 1 8 false) [sideAt 0, 0x6000, far, 0] []) w0.wsize = some 0x46 ∧
    netCheck s (cmd0 .nw (.nsig 1 8 true) [0x10000, 0, 0, 0] []) w0.wsize = none ∧
    netCheck s (cmd0 .nw (.nsig 1 8 true) [0x10004, 0, 0, 0] []) w0.wsize = some 0x44 ∧
    netCheck s (cmd0 .nw (.nsig 1 8 true) [0x10000, 0, dw (2 ^ 48), 0] []) w0.wsize = some 0x46 ∧
    netCheck s (cmd0 .nw (.nred 1 8 .addI32) [0x5000, 0x6000, 3, 4088] []) w0.wsize = none ∧
    netCheck s (cmd0 .nw (.nred 1 8 .addI32) [0x5000, 0x6000, 3, 4096] []) w0.wsize = some 0x44 ∧
    netCheck s (cmd0 .nw (.nred 1 8 .addI32) [0x5000, sideAt 4096, 3, 0] []) w0.wsize = some 0x42 ∧
    netCheck s (cmd0 .nw (.nred 1 8 .addI32) [0x5000, 0x6000, dw (2 ^ 60 + 3), 0] []) w0.wsize = some 0x44 := by
  refine ⟨by decide +kernel, by decide +kernel, by decide +kernel, by decide +kernel, by decide +kernel, by decide +kernel,
    by decide +kernel, by decide +kernel, by decide +kernel, by decide +kernel, by decide +kernel, by decide +kernel, by decide +kernel,
    by decide +kernel, by decide +kernel⟩

/-- The writes of another command in flight are not seen; once it has retired they are. -/
theorem test_unseen_write :
    let s : State := { atCmd copy0 with notes := [⟨9, hbmKey 0x5000, 7, 1⟩], mem := memWrite (at0 x0).mem (hbmKey 0x5000) [1] }
    let k : Cmd := { copy0 with id := 9 }
    memGet (unseenMem { s with cmds := [copy0, k] } copy0) (hbmKey 0x5000) = 7 ∧ memGet (unseenMem s copy0) (hbmKey 0x5000) = 1 ∧
    settledNotes 9 [] s.notes = [] := by decide +kernel

/-! ### Words of the manual's own listings -/

theorem test_words_hints : decodeRow 0xF10D4000 = .ok (.rep 3 1 1 0) ∧ decodeRow 0xF048D159 = .ok (.imx 0x48D159) ∧
    decodeRow 0xF2100000 = .ok (.mod 0 true false false) := by decide
theorem test_words_scalar : decodeRow 0x1628389A = .ok (.sli 5 0x389A) ∧ decodeRow 0xA6A54001 = .ok (.lds 20 21 1) ∧
    decodeRow 0x9A148001 = .ok (.mmovsSM 2 18 false) := by decide
theorem test_words_lanes : decodeRow 0x38A7AC00 = .ok (.vand 20 30 22 0 false false) ∧
    decodeRow 0x420D0001 = .ok (.vcmpi 1 20 0 0 false false .ne) ∧ decodeRow 0x4369C201 = .ok (.vsel 13 7 1 0 false false 1) ∧
    decodeRow 0x46E90040 = .ok (.vmov 29 4 1 false) ∧ decodeRow 0x4A098E84 = .ok (.vdot4 1 6 7 2 false false false) := by decide
theorem test_words_float : decodeRow 0x60402808 = .ok (.vfadd 8 0 20 0 false false) ∧
    decodeRow 0x6A291808 = .ok (.vfdiv 5 4 12 0 false false) ∧ decodeRow 0x63110C08 = .ok (.vfma 2 4 6 0 false false) ∧
    decodeRow 0x68108008 = .ok (.vfrsq 2 2 0 false) ∧ decodeRow 0x7127064E = .ok (.vhadd 4 28 3 1 false false false) ∧
    decodeRow 0x75104C0B = .ok (.vcvts 2 1 6 0 false false .e4m3) := by decide
theorem test_words_cross : decodeRow 0x90386C01 = .ok (.vshfl 7 1 22 0 false false 1) ∧
    decodeRow 0x90286AC2 = .ok (.vshfl 5 1 21 3 false false 2) ∧ decodeRow 0x9118BC00 = .ok (.vbcst 3 2 30 0 false false) ∧
    decodeRow 0x92A04000 = .ok (.vred 20 1 0 false .add .i32) ∧ decodeRow 0x94104040 = .ok (.vcprs 2 1 1 false) ∧
    decodeRow 0x96184000 = .ok (.mpopc 3 1 0 .count) := by decide
theorem test_words_memory : decodeRow 0xA0194040 = .ok (.ldv 3 5 1 0) ∧ decodeRow 0xA1174010 = .ok (.stv 2 29 0 16) ∧
    decodeRow 0xA21E3281 = .ok (.ldvs 3 24 25 2 1) ∧ decodeRow 0xA43688A0 = .ok (.ldvx 6 26 4 2 2 0) ∧
    decodeRow 0xAA310A80 = .ok (.atom 6 4 5 2 0 false .addI32) ∧ decodeRow 0xAA298E60 = .ok (.atom 5 6 7 1 2 false .addI32) := by decide
theorem test_words_matrix : decodeRow 0xB2050080 = .ok (.mlat 20 2 0) ∧ decodeRow 0xB052C000 = .ok (.shape 10 11 false) ∧
    decodeRow 0xB3060001 = .ok (.mma 24 0 0 false false true) ∧ decodeRow 0xB4D1C001 = .ok (.mmas 26 7 0 0 false false true) ∧
    decodeRow 0xB9054C00 = .ok (.msca 21 6 0 false false) ∧ decodeRow 0xB8000002 = .ok (.mclr 0 2) ∧
    decodeRow 0xBA2D6C0B = .ok (.mdrn 5 21 22 0 false false .e4m3) := by decide
theorem test_words_engines : decodeRow 0xD0A10040 = .ok (.shcp 20 4 0 false false) ∧ decodeRow 0xD16D0041 = .ok (.shtr 13 20 false false true) ∧
    decodeRow 0xD3A20881 = .ok (.gath 20 8 4 false true) ∧ decodeRow 0xD5AB0881 = .ok (.sred 21 12 4 .addF32 false false true) ∧
    decodeRow 0xD6A200C0 = .ok (.wkst 20 8 false false) ∧ decodeRow 0xDBA80040 = .ok (.seal 21 .sh) ∧
    decodeRow 0xDCB00080 = .ok (.wait 22 .gs 0) ∧ decodeRow 0xDC680000 = .ok (.wait 13 .mx 0) := by decide
theorem test_words_system : decodeRow 0xE0056C00 = .ok (.binit 21 22 false false) ∧ decodeRow 0xE1F54000 = .ok (.barv 30 21 false) ∧
    decodeRow 0xE7700008 = .ok (.gbar 14) ∧ decodeRow 0xE8700020 = .ok (.csrr 14 0x020) := by decide
theorem test_words_monitor : decodeRow 0xEF72C000 = .ok (.krdr 14 11) ∧ decodeRow 0xEF031C01 = .ok (.kwrr 12 14) ∧
    decodeRow 0xEF03C002 = .ok (.krsm 15) ∧ decodeRow 0xEF000006 = .ok .kret := by decide
theorem test_words_walker : decodeWalker 0x63CE800B = some (.wbcc 15 3 .geu 11) ∧ decodeWalker 0x8A5E1000 = some (.isect 9 7 8 4) ∧
    decodeWalker 0x64007FF6 = some (.wj 0x7FF6) := by decide

/-! ### Words put together field by field from the formats of R31 to R36, R44 and R196 -/

theorem test_bits_scalar : decodeRow ((0x01#8 ++ 5#5 ++ 6#5 ++ 7#5 ++ 0#3 ++ 1#1 ++ 0#1 ++ 0#4 : BitVec 32)) = .ok (.sadd 5 6 7 true false) ∧
    decodeRow ((0x0E#8 ++ 5#5 ++ 6#5 ++ 7#5 ++ 0#3 ++ 0#1 ++ 1#1 ++ 1#1 ++ 2#3 : BitVec 32)) = .ok (.scmp 5 6 7 false true true .lt) := by
  decide
theorem test_bits_control : decodeRow ((0x21#8 ++ 9#5 ++ 0x7FFFF#19 : BitVec 32)) = .ok (.bz 9 0x7FFFF) ∧
    decodeRow ((0x29#8 ++ 0#2 ++ 3#3 ++ 12#19 : BitVec 32)) = .ok (.ifm 3 12) ∧
    decodeRow ((0x29#8 ++ 1#2 ++ 3#3 ++ 12#19 : BitVec 32)) = .error 5 ∧ decodeRow 0x26000000 = .ok .exit := by decide
theorem test_bits_ports : decodeRow ((0xAC#8 ++ 27#5 ++ 28#5 ++ 0#5 ++ 2#3 ++ 1#1 ++ 0#5 : BitVec 32)) = .ok (.tak2 27 2 true false) ∧
    decodeRow ((0xAD#8 ++ 29#5 ++ 4#5 ++ 5#5 ++ 1#3 ++ 0#1 ++ 1#1 ++ 0#4 : BitVec 32)) = .ok (.put2 4 5 1 false true) := by decide
theorem test_bits_remote : decodeRow ((0xA8#8 ++ 4#5 ++ 5#5 ++ 0#5 ++ 1#3 ++ 3#6 : BitVec 32)) = .ok (.rldv 4 5 1 3) ∧
    decodeRow ((0xAB#8 ++ 4#5 ++ 5#5 ++ 6#5 ++ 1#3 ++ 0#2 ++ 1#1 ++ 5#3 : BitVec 32)) = .ok (.ratom 4 5 6 1 0 true .or) := by decide
theorem test_bits_card : decodeRow ((0xC2#8 ++ 8#5 ++ 9#5 ++ 0#5 ++ 0#9 : BitVec 32)) = .ok (.cardck 8 9 false) := by decide
theorem test_bits_network : decodeRow ((0xD9#8 ++ 8#5 ++ 12#5 ++ 0#5 ++ 4#3 ++ 2#6 : BitVec 32)) = .ok (.nred 8 12 .addI32) ∧
    decodeRow ((0xDA#8 ++ 8#5 ++ 12#5 ++ 0#5 ++ 4#3 ++ 1#6 : BitVec 32)) = .ok (.nsig 8 12 true) := by decide
theorem test_bits_system : decodeRow ((0xE7#8 ++ 0#21 ++ 3#3 : BitVec 32)) = .ok (.fence .skein) ∧
    decodeRow ((0xEA#8 ++ 0#5 ++ 4#5 ++ 77#14 : BitVec 32)) = .ok (.trap 4 77) ∧
    decodeRow ((0xE9#8 ++ 0#5 ++ 4#5 ++ 0#2 ++ 0x010#12 : BitVec 32)) = .ok (.csrw 4 0x010) := by decide
theorem test_bits_walker : decodeWalker ((9#6 ++ 3#4 ++ 4#4 ++ 0x3FFFF#18 : BitVec 32)) = some (.waddi 3 4 0x3FFFF) ∧
    decodeWalker ((16#6 ++ 3#4 ++ 4#4 ++ 3#2 ++ 8#16 : BitVec 32)) = some (.wld 3 4 3 8) ∧
    decodeWalker ((40#6 ++ 3#4 ++ 4#4 ++ 5#4 ++ 6#4 ++ 1#1 ++ 0#9 : BitVec 32)) = some (.emit 3 4 5 6 true) := by decide

/-! ### The decode order of R58, and the checks that a word fails -/

theorem test_decode_unassigned : decodeRow 0x00000000 = .error 2 ∧ decodeRow 0xFF000000 = .error 1 := by decide
theorem test_decode_reserved : decodeRow 0x28000001 = .error 5 ∧ decodeRow 0x26800000 = .error 5 := by decide
theorem test_decode_csr : decodeRow 0xE8700FFF = .error 4 := by decide

/-! ### Terms that the check of well-formedness refuses, one for each of its conditions -/

theorem test_wf_mod : (Instr.mod 5 false false false).wf = false := by decide
theorem test_wf_vector_destination : (Instr.vadd 28 1 2 0 false false false).wf = false ∧
    (Instr.vadd 30 1 2 0 false false false).wf = false ∧ (Instr.vli 31 0).wf = false := by decide
theorem test_wf_vector_source : (Instr.vadd 1 29 2 0 false false false).wf = false ∧
    (Instr.vadd 1 2 29 0 false false false).wf = false := by decide
theorem test_wf_read_destination : (Instr.vfma 29 1 2 0 false false).wf = false ∧ (Instr.vdot4 29 1 2 0 false false false).wf = false := by
  decide
theorem test_wf_mask_destination : (Instr.vcmp 0 1 2 0 false false false .lt).wf = false ∧ (Instr.mmovsSM 0 1 false).wf = false := by decide
theorem test_wf_types : (Instr.vsatn 1 2 0 false .i32).wf = false ∧ (Instr.vcvt 1 2 false .i64 0 false .f32).wf = false ∧
    (Instr.vcvt 1 2 false .f32 0 false .q16).wf = false ∧ (Instr.vcvt 1 2 false .f16x2 0 false .bf16x2).wf = false ∧
    (Instr.vcvt 1 2 true .f32 0 false .f16).wf = false ∧ (Instr.vcvts 1 2 3 0 false false .i64).wf = false := by decide
theorem test_wf_reductions : (Instr.vred 1 2 0 false .min .bf16x2).wf = false ∧ (Instr.vscan 29 2 0 false .add .i32).wf = false := by decide
theorem test_wf_mlog : (Instr.mlog 1 2 3 .not).wf = false ∧ (Instr.mlog 1 2 0 .set).wf = false ∧ (Instr.mlog 0 1 2 .and).wf = false := by
  decide
theorem test_wf_memory : (Instr.ldv 29 1 0 0).wf = false ∧ (Instr.stv 29 1 0 0).wf = false ∧ (Instr.ldvx 1 2 29 0 0 0).wf = false ∧
    (Instr.atom 29 1 2 0 0 false .addI32).wf = false := by decide
theorem test_wf_ratom : (Instr.ratom 1 2 3 0 1 false .addI32).wf = false ∧ (Instr.ratom 1 2 3 0 0 false .addI32).wf = false ∧
    (Instr.ratom 28 2 3 0 0 true .addI32).wf = false := by decide
theorem test_wf_pairs : (Instr.tak2 28 0 false false).wf = false ∧ (Instr.tak2 27 0 false true).wf = false ∧
    (Instr.put2 29 1 0 false false).wf = false := by decide
theorem test_wf_matrix : (Instr.mgat 29 1 0 0).wf = false ∧ (Instr.mclr 0 0).wf = false ∧
    (Instr.mdrn 28 1 2 0 false false .f32).wf = false ∧ (Instr.mmovpGP 30 0).wf = false ∧ (Instr.mmovpSP 29 0 false).wf = false := by decide
theorem test_wf_groups : (Instr.shcp 1 29 0 false false).wf = false ∧ (Instr.shcp 1 4 3 false false).wf = false ∧
    (Instr.shtr 1 4 true false false).wf = false ∧ (Instr.gath 1 4 3 false false).wf = false ∧ (Instr.gath 1 4 27 false true).wf = false ∧
    (Instr.nred 1 4 .minI32).wf = false := by decide
theorem test_wf_wait : (Instr.wait 1 .sh 9).wf = false ∧ (Instr.csrr 1 0x006).wf = false := by decide

/-! ### One step of small states -/

/-- The row after an outcome. -/
def rowOf (o : Out) : Option Row :=
  match o with
  | .next t => t.row? placedRowId
  | _ => none
/-- What a row after an outcome holds. -/
def seen {α : Type} (o : Out) (f : Row → α) : Option α := (rowOf o).map f
/-- The row with s1 to s3. -/
def with3 (a b c : Dword) : Row := ((x0.sset 1 a).sset 2 b).sset 3 c
/-- The cause, the DETAIL and the TARG of the trap of a row. -/
def trapOf (x : Row) : Option (Byte × Byte × Dword) := x.ctl.trap.map (fun t => (t.cause, t.detail, t.targ))

/-- R253: a sum wraps. -/
theorem test_sadd_wraps : seen (exec (.sadd 1 2 3 false false) (at0 (with3 0 (BitVec.allOnes 64) 2))) (fun x => x.sget 1) = some 1 := by
  decide
/-- R39: s0 discards a write. -/
theorem test_sadd_zero_register : seen (exec (.sadd 0 2 3 false false) (at0 (with3 0 1 2))) (fun x => (x.sget 0, x.pc)) = some (0, 0x4004) := by
  decide
/-- The listing after R50: an IMX of 0x48D159 and SLI s5, 0x389A. -/
theorem test_sli_widened : seen (exec (.sli 5 0x389A) (at0 { x0 with hints := { x0.hints with imx1 := some 0x48D159 } }))
    (fun x => x.sget 5) = some 0x123456789A := by decide
/-- R267: a jump to an address that is no multiple of 4 traps with MISALIGN at the jump. -/
theorem test_jmpr_misaligned : seen (exec (.jmpr 2 false) (at0 (with3 0 0x4002 0))) (fun x => (x.pc, trapOf x)) =
    some (0x4000, some (0x03, 0, 0x4002)) := by decide
/-- R40: a source that is empty, with TA, traps with EMPTY_READ. -/
theorem test_sadd_empty_trap : seen (exec (.sadd 1 2 3 true false) (at0 { x0 with regs := { x0.regs with sfull := 0xFFFFFFFB } }))
    trapOf = some (some (0x05, 1, 0)) := by decide
/-- R269: EXIT gives up the lease of the row. -/
theorem test_exit_ends_row : rowOf (exec .exit (at0 x0)) = none := by decide
/-- R272: IF narrows m0. -/
theorem test_if_narrows : seen (exec (.ifm 1 4) (at0 (x0.mset 1 0xF))) (fun x => (x.mget 0, x.stack.length)) = some (0xF, 1) := by decide
/-- R232: a lane store writes four bytes, least significant first, at its offset of the window. -/
theorem test_sts_bytes : (match exec (.sts 1 2 0) (at0 (with3 0x0807060504030201 8 0)) with
    | .next t => memRead t.mem (sideKey 0 8) 8
    | _ => []) = [1, 2, 3, 4, 5, 6, 7, 8] := by decide
/-- R236: a scalar load at an offset that is no multiple of 8. -/
theorem test_lds_misaligned : seen (exec (.lds 1 2 0) (at0 (with3 0 4 0))) trapOf = some (some (0x03, 0, 4)) := by decide
/-- R58: a word of a row with opcode 0xEF is PRIVILEGE, at step 3; a word of zeros is ILLEGAL. -/
theorem test_step_privilege : (match step (slotState 0xEF000006 false) with
    | .next t => (t.row? placedRowId).bind (fun x => x.ctl.trap.map (fun r => r.cause))
    | _ => none) = some 0x0D := by decide
theorem test_step_runs : (match step (State.reset.withFetchWord 32 0x28000000) with
    | .next t => (t.row? placedRowId).map (fun x => x.pc)
    | _ => none) = some 0x4004 := by decide
/-- R199: ADDI of a walker adds a signed immediate. -/
theorem test_walker_addi : (match exec (.waddi 1 2 0x3FFFF) (atWalk (walker0 0 5 0 0)) with
    | .next t => some ((t.walker 0).get 1, (t.walker 0).pc)
    | _ => none) = some (4, 1) := by decide
/-- R218: LANEW reads the lane width. -/
theorem test_csrr_lanew : seen (exec (.csrr 1 0x003) (at0 x0)) (fun x => x.sget 1) = some 64 := by decide

end Sys2Proof.Tests
end

section
/-! SUPPORT. What a register of a row reads after a write of the same register and of another, and what the raising and the
folding of flags leave as it was. -/
namespace Sys2Proof.Machine

variable {x y : Row} {d e : Reg} {L : Mask} {u : Lanes} {v : Dword}

/-! ### Lane-wise choice -/

theorem mergeLanes_getElem (mk : Mask) (new old : Lanes) (i : Fin 64) :
    (mergeLanes mk new old)[i] = if mk.getLsbD i then new[i] else old[i] := by simp [mergeLanes]

theorem laneAt_fin (u : Lanes) (i : Fin 64) : laneAt u i = u[i] := by simp [laneAt]

theorem zeroLanes_getElem (i : Fin 64) : zeroLanes[i] = 0 := by simp [zeroLanes]

/-! ### Vector registers (R19, R40) -/

@[simp] theorem Row.vset_regs_s : (x.vset d L u).regs.s = x.regs.s := by unfold Row.vset; split <;> rfl
@[simp] theorem Row.vset_regs_m : (x.vset d L u).regs.m = x.regs.m := by unfold Row.vset; split <;> rfl

theorem Row.vget_vset_self (h : d.toNat < 28) : (x.vset d L u).vget d = mergeLanes L u (x.vget d) := by
  simp [Row.vset, Row.vget, h]

theorem Row.vget_vset_other (h : e ≠ d) : (x.vset d L u).vget e = x.vget e := by
  have hne : d.toNat ≠ e.toNat := fun hd => h (BitVec.eq_of_toNat_eq hd.symm)
  unfold Row.vset
  split
  · simp [Row.vget, hne]
  · rfl

@[simp] theorem Row.vget_markV (b : Bool) : (x.markV d b).vget e = x.vget e := rfl
@[simp] theorem Row.markV_regs_s (b : Bool) : (x.markV d b).regs.s = x.regs.s := rfl
@[simp] theorem Row.markV_regs_m (b : Bool) : (x.markV d b).regs.m = x.regs.m := rfl

@[simp] theorem Row.vFull_markV_self : (x.markV d true).vFull d = true := by
  simp [Row.vFull, Row.markV, BitVec.isLt d]

/-! ### Scalar registers (R19, R37, R40) -/

@[simp] theorem Row.sset_regs_v : (x.sset d v).regs.v = x.regs.v := by unfold Row.sset; split <;> rfl
@[simp] theorem Row.sset_regs_m : (x.sset d v).regs.m = x.regs.m := by unfold Row.sset; split <;> rfl

theorem Row.sget_sset_self (h : d ≠ 0) : (x.sset d v).sget d = v := by
  simp only [Row.sset, Row.sget, if_neg h, Vector.getElem_set_self]

theorem Row.sget_sset_other (h : e ≠ d) : (x.sset d v).sget e = x.sget e := by
  have hne : d.toNat ≠ e.toNat := fun hd => h (BitVec.eq_of_toNat_eq hd.symm)
  unfold Row.sset
  split
  · rfl
  · simp [Row.sget, hne]

@[simp] theorem Row.sget_markS (b : Bool) : (x.markS d b).sget e = x.sget e := by
  unfold Row.markS
  split <;> rfl
@[simp] theorem Row.markS_regs_v (b : Bool) : (x.markS d b).regs.v = x.regs.v := by unfold Row.markS; split <;> rfl
@[simp] theorem Row.markS_regs_m (b : Bool) : (x.markS d b).regs.m = x.regs.m := by unfold Row.markS; split <;> rfl

@[simp] theorem Row.sFull_markS_self : (x.markS d true).sFull d = true := by
  by_cases h : d = 0
  · simp [Row.sFull, h]
  · rw [Row.sFull, Row.markS, if_neg h]
    simp [BitVec.isLt d]

/-! ### Registers read through the register file -/

theorem Row.vget_congr (h : y.regs = x.regs) : y.vget e = x.vget e := by simp only [Row.vget, h]
theorem Row.vFull_congr (h : y.regs = x.regs) : y.vFull e = x.vFull e := by simp only [Row.vFull, h]
theorem Row.sget_congr (h : y.regs = x.regs) : y.sget e = x.sget e := by simp only [Row.sget, h]
theorem Row.sFull_congr (h : y.regs = x.regs) : y.sFull e = x.sFull e := by simp only [Row.sFull, h]

/-! ### Flags and the matrix exception record (R87, R100) -/

@[simp] theorem Row.raise_flags (f : Flags) : (x.raise f).fp.flags = x.fp.flags ||| f := rfl
@[simp] theorem Row.raise_mi (f : Flags) : (x.raise f).fp.mi = x.fp.mi := rfl
@[simp] theorem Row.raise_mo (f : Flags) : (x.raise f).fp.mo = x.fp.mo := rfl

@[simp] theorem Row.fold_flags (f : Flags) : (x.fold f).fp.flags = x.fp.flags ||| (f ||| recFlags x.fp.mi x.fp.mo) := rfl
@[simp] theorem Row.fold_mi (f : Flags) : (x.fold f).fp.mi = false := rfl
@[simp] theorem Row.fold_mo (f : Flags) : (x.fold f).fp.mo = false := rfl
@[simp] theorem Row.fold_regs (f : Flags) : (x.fold f).regs = x.regs := rfl
@[simp] theorem Row.fold_pc (f : Flags) : (x.fold f).pc = x.pc := rfl
@[simp] theorem Row.fold_hints (f : Flags) : (x.fold f).hints = x.hints := rfl
@[simp] theorem Row.fold_north (f : Flags) : (x.fold f).north = x.north := rfl
@[simp] theorem Row.fold_mx (f : Flags) : (x.fold f).mx = x.mx := rfl
@[simp] theorem Row.fold_prods (f : Flags) : (x.fold f).prods = x.prods := rfl
@[simp] theorem Row.fold_ctl (f : Flags) : (x.fold f).ctl = x.ctl := rfl

/-- Two records of INVALID and OVERFLOW raise together what their union raises. -/
theorem recFlags_or (mi mo mi' mo' : Bool) : recFlags mi mo ||| recFlags mi' mo' = recFlags (mi' || mi) (mo' || mo) := by
  revert mi mo mi' mo'
  decide

end Sys2Proof.Machine
end

section
/-! SUPPORT. The completion of a producer (R221, R222) and of an MSCA (R307), and the arrivals at a port, the latch and W, each as
one update of the row. -/
namespace Sys2Proof.Machine

variable {s : State} {r : RowId} {x : Row}

/-! ### The destination and the flags of a producer (R40, R100) -/

/-- The row with a producer's destination written and full. -/
def Row.writeDest (x : Row) : ProdDest → Row
  | .vec d L u => (x.vset d L u).markV d true
  | .sca d v => (x.sset d v).markS d true

theorem Row.finish_eq (p : Producer) :
    x.finish p = if p.fold then (x.writeDest p.dest).fold p.fl else (x.writeDest p.dest).raise p.fl := by
  unfold Row.finish
  cases p.dest <;> rfl

@[simp] theorem Row.writeDest_fp (t : ProdDest) : (x.writeDest t).fp = x.fp := by cases t <;> simp [Row.writeDest]
@[simp] theorem Row.writeDest_pc (t : ProdDest) : (x.writeDest t).pc = x.pc := by cases t <;> simp [Row.writeDest]
@[simp] theorem Row.writeDest_hints (t : ProdDest) : (x.writeDest t).hints = x.hints := by cases t <;> simp [Row.writeDest]
@[simp] theorem Row.writeDest_north (t : ProdDest) : (x.writeDest t).north = x.north := by cases t <;> simp [Row.writeDest]
@[simp] theorem Row.writeDest_mx (t : ProdDest) : (x.writeDest t).mx = x.mx := by cases t <;> simp [Row.writeDest]
@[simp] theorem Row.writeDest_prods (t : ProdDest) : (x.writeDest t).prods = x.prods := by cases t <;> simp [Row.writeDest]

/-- The flags of a producer change no register. -/
theorem Row.finish_regs (p : Producer) : (x.finish p).regs = (x.writeDest p.dest).regs := by
  rw [Row.finish_eq]; split <;> rfl

/-- A producer changes neither the program counter, hints, ports and matrix unit of its row nor its other producers. -/
theorem Row.finish_frame (p : Producer) : (x.finish p).prods = x.prods ∧ (x.finish p).pc = x.pc ∧
    (x.finish p).hints = x.hints ∧ (x.finish p).north = x.north ∧ (x.finish p).mx = x.mx := by
  rw [Row.finish_eq]; split <;> simp

/-- A vector destination is full, holds the producer's values in its lanes, and is all that is written. -/
theorem Row.finish_vec {p : Producer} {d : Reg} {L : Mask} {u : Lanes} (h : p.dest = .vec d L u) (hd : d.toNat < 28) :
    (x.finish p).vFull d = true ∧ (x.finish p).regs.s = x.regs.s ∧ (x.finish p).regs.m = x.regs.m ∧
      (∀ i : Fin 64, ((x.finish p).vget d)[i] = if L.getLsbD i then u[i] else (x.vget d)[i]) ∧
      ∀ e : Reg, e ≠ d → (x.finish p).vget e = x.vget e := by
  have hr : (x.finish p).regs = ((x.vset d L u).markV d true).regs := by rw [Row.finish_regs, h, Row.writeDest]
  refine ⟨?_, ?_, ?_, fun i => ?_, fun e he => ?_⟩
  · rw [Row.vFull_congr hr, Row.vFull_markV_self]
  · rw [hr, Row.markV_regs_s, Row.vset_regs_s]
  · rw [hr, Row.markV_regs_m, Row.vset_regs_m]
  · rw [Row.vget_congr hr, Row.vget_markV, Row.vget_vset_self hd, mergeLanes_getElem]
  · rw [Row.vget_congr hr, Row.vget_markV, Row.vget_vset_other he]

/-- A scalar destination is full, holds the producer's value, and is all that is written. -/
theorem Row.finish_sca {p : Producer} {d : Reg} {v : Dword} (h : p.dest = .sca d v) (hd : d ≠ 0) :
    (x.finish p).sFull d = true ∧ (x.finish p).sget d = v ∧ (x.finish p).regs.v = x.regs.v ∧
      (x.finish p).regs.m = x.regs.m ∧ ∀ e : Reg, e ≠ d → (x.finish p).sget e = x.sget e := by
  have hr : (x.finish p).regs = ((x.sset d v).markS d true).regs := by rw [Row.finish_regs, h, Row.writeDest]
  refine ⟨?_, ?_, ?_, ?_, fun e he => ?_⟩
  · rw [Row.sFull_congr hr, Row.sFull_markS_self]
  · rw [Row.sget_congr hr, Row.sget_markS, Row.sget_sset_self hd]
  · rw [hr, Row.markS_regs_v, Row.sset_regs_v]
  · rw [hr, Row.markS_regs_m, Row.sset_regs_m]
  · rw [Row.sget_congr hr, Row.sget_markS, Row.sget_sset_other he]

/-- A producer that folds nothing raises its flags. -/
theorem Row.finish_raises {p : Producer} (h : p.fold = false) : (x.finish p).fp.flags = x.fp.flags ||| p.fl ∧
    (x.finish p).fp.mi = x.fp.mi ∧ (x.finish p).fp.mo = x.fp.mo := by
  simp [Row.finish_eq, h]

/-- A producer that folds raises the flags of the matrix exception record with its own, and clears the record. -/
theorem Row.finish_folds {p : Producer} (h : p.fold = true) : (x.finish p).fp.mi = false ∧ (x.finish p).fp.mo = false ∧
    (x.finish p).fp.flags = x.fp.flags ||| p.fl ||| (if x.fp.mi then flInvalid else 0) |||
      (if x.fp.mo then flOverflow else 0) := by
  simp [Row.finish_eq, h, recFlags, BitVec.or_assoc]

/-! ### A row whose atomics have no step left (R240) -/

theorem stepsHeld_noSteps (hx : s.row? r = some x) (h : ∀ q ∈ x.prods, q.todo = []) : stepsHeld s r = false := by
  have hw : x.stepWords = [] := List.flatMap_eq_nil_iff.2 (fun q hq => by rw [h q hq]; rfl)
  simp [stepsHeld, hx, hw, wordsHold]

theorem finishAtoms_noSteps {l : List Producer} (h : ∀ q ∈ l, q.todo = []) : finishAtoms s l = (s, l, none) := by
  induction l with
  | nil => rfl
  | cons q l ih =>
    have hq : q.todo = [] := h q List.mem_cons_self
    have hs : stepAtoms s q q.todo = (s, q, none) := by cases q; subst hq; rfl
    simp only [finishAtoms, hs, ih (fun p hp => h p (List.mem_cons_of_mem _ hp)), firstOf]

theorem endSteps_noSteps (hx : s.row? r = some x) (h : ∀ q ∈ x.prods, q.todo = []) : endSteps s r = s := by
  simp only [endSteps, hx, finishAtoms_noSteps h, reportParity, setRow_same hx]

/-- A producer of a running row completes: it leaves the row's list, and its destination and flags are written. -/
theorem exec_producerComplete_running {n : Nat} {p : Producer} (hx : s.row? r = some x) (hp : x.prods[n]? = some p)
    (hrun : x.status = .running) (hpar : p.parity = none) (h : ∀ q ∈ x.prods, q.todo = []) :
    exec (.producerComplete r n) s = .next (s.setRow r ({ x with prods := x.prods.eraseIdx n }.finish p)) := by
  simp [execProducerComplete, stepsHeld_noSteps hx h, endSteps_noSteps hx h, hx, hp, hrun, hpar, reportParity]

/-! ### The cells of a mask (R85, R87) -/

theorem cellsOf_getElem (mk : Mask) (f : Nat → Word × Bool × Bool) (old : Lanes) (i : Fin 64) :
    (cellsOf mk f old).1[i] = if mk.getLsbD i then (f i).1 else old[i] := by
  simp only [cellsOf, Fin.getElem_fin, Vector.getElem_map, Vector.getElem_ofFn]
  split <;> rfl

/-- A lane outside the mask records nothing: a condition that some lane records is recorded by a lane of the mask. -/
theorem cells_any (mk : Mask) (f : Nat → Word × Bool × Bool) (old : Lanes) (b : Bool × Bool → Bool)
    (hb : b (false, false) = false) :
    (Vector.ofFn (fun i : Fin 64 => if mk.getLsbD i.val then f i.val else (old[i.val], false, false))).toList.any
        (fun p => b p.2) = true ↔ ∃ i : Fin 64, mk.getLsbD i = true ∧ b (f i).2 = true := by
  simp only [Vector.toList_ofFn, List.any_eq_true, List.mem_ofFn, exists_exists_eq_and]
  refine exists_congr (fun i => ?_)
  cases hi : mk.getLsbD i.val
  · simp only [Bool.false_eq_true, if_false, hb, false_and]
  · simp only [if_true, true_and]

theorem cellsOf_invalid (mk : Mask) (f : Nat → Word × Bool × Bool) (old : Lanes) :
    (cellsOf mk f old).2.1 = true ↔ ∃ i : Fin 64, mk.getLsbD i = true ∧ (f i).2.1 = true := by
  simp only [cellsOf]
  exact cells_any mk f old Prod.fst rfl

theorem cellsOf_overflow (mk : Mask) (f : Nat → Word × Bool × Bool) (old : Lanes) :
    (cellsOf mk f old).2.2 = true ↔ ∃ i : Fin 64, mk.getLsbD i = true ∧ (f i).2.2 = true := by
  simp only [cellsOf]
  exact cells_any mk f old Prod.snd rfl

/-! ### MSCA (R88, R307) -/

/-- The sums of an MSCA of a row, and the exceptions they record. -/
def mscaCells (x : Row) (o : MscaOp) : Lanes × Bool × Bool :=
  cellsOf o.lanes (fun n => mscaLane (laneAt x.mx.a n) (laneAt x.mx.p n) o.rs (laneAt o.ls n)) x.mx.a

/-- The row whose MSCA has completed: A, P and their parity marks are written, a parity error is due, and the flags of the
sums and of the matrix exception record are raised. -/
def Row.mscaDone (x : Row) (o : MscaOp) : Row :=
  { x with
    mx := { x.mx with
      a := (mscaCells x o).1
      p := mergeLanes o.lanes zeroLanes x.mx.p
      msca := none
      pbad := x.mx.pbad &&& ~~~o.lanes
      abad := x.mx.abad &&& ~~~o.lanes }
    ctl := { x.ctl with parityDue :=
      if (x.mx.pbad ||| x.mx.abad) &&& o.lanes != 0 && x.ctl.parityDue.isNone then some (4, 0) else x.ctl.parityDue }
    }.fold (recFlags (mscaCells x o).2.1 (mscaCells x o).2.2)

/-- An MSCA completes in its row, unless it meets a parity error while the band is being pre-empted (R404, R419). -/
theorem exec_mscaComplete_row {o : MscaOp} (hx : s.row? r = some x) (ho : x.mx.msca = some o)
    (h : (x.mx.pbad ||| x.mx.abad) &&& o.lanes = 0 ∨ ∀ b, s.band? x.band = some b → b.preempt = none) :
    exec (.mscaComplete r) s = .next (s.setRow r (x.mscaDone o)) := by
  have hend : ((x.mx.pbad ||| x.mx.abad) &&& o.lanes != 0 && (s.band? x.band).any Band.preempting) = false := by
    rcases h with hclean | hstay
    · simp [hclean]
    · cases hb : s.band? x.band with
      | none => simp
      | some b => simp [Band.preempting, hstay b hb]
  simp only [exec_mscaComplete, execMscaComplete, hx, ho, hend]
  rfl

theorem Row.mscaDone_a (o : MscaOp) (i : Fin 64) : (x.mscaDone o).mx.a[i] =
    if o.lanes.getLsbD i then (mscaLane x.mx.a[i] x.mx.p[i] o.rs o.ls[i]).1 else x.mx.a[i] := by
  have ha : (x.mscaDone o).mx.a = (mscaCells x o).1 := rfl
  rw [ha, mscaCells, cellsOf_getElem, laneAt_fin, laneAt_fin, laneAt_fin]

theorem Row.mscaDone_p (o : MscaOp) (i : Fin 64) :
    (x.mscaDone o).mx.p[i] = if o.lanes.getLsbD i then 0 else x.mx.p[i] := by
  have hp : (x.mscaDone o).mx.p = mergeLanes o.lanes zeroLanes x.mx.p := rfl
  rw [hp, mergeLanes_getElem, zeroLanes_getElem]

theorem Row.mscaDone_parityDue (o : MscaOp) : (x.mscaDone o).ctl.parityDue =
    if (x.mx.pbad ||| x.mx.abad) &&& o.lanes ≠ 0 ∧ x.ctl.parityDue = none then some (4, 0) else x.ctl.parityDue := by
  simp [Row.mscaDone]

/-- INVALID and OVERFLOW come from the lanes of the MSCA and from the matrix exception record. -/
theorem Row.mscaDone_flags (o : MscaOp) : (x.mscaDone o).fp.flags = x.fp.flags |||
    (if x.fp.mi = true ∨ ∃ i : Fin 64, o.lanes.getLsbD i = true ∧
      (mscaLane x.mx.a[i] x.mx.p[i] o.rs o.ls[i]).2.1 = true then flInvalid else 0) |||
    (if x.fp.mo = true ∨ ∃ i : Fin 64, o.lanes.getLsbD i = true ∧
      (mscaLane x.mx.a[i] x.mx.p[i] o.rs o.ls[i]).2.2 = true then flOverflow else 0) := by
  have hf : (x.mscaDone o).fp.flags =
      x.fp.flags ||| (recFlags (mscaCells x o).2.1 (mscaCells x o).2.2 ||| recFlags x.fp.mi x.fp.mo) := rfl
  rw [hf, recFlags_or, recFlags, ← BitVec.or_assoc]
  simp only [Bool.or_eq_true, mscaCells, cellsOf_invalid, cellsOf_overflow, laneAt_fin]

/-! ### Arrivals at the north port, the latch and W (R290, R295, R302) -/

/-- R302: an entry in transit enters a port with room. -/
theorem exec_portEntryArrive_room {e : Entry} {l : List Entry} (hx : s.row? r = some x)
    (ht : x.north.transit = e :: l) (hroom : x.north.fifo.length < 8) : exec (.portEntryArrive r) s =
      .next (s.setRow r { x with north := { x.north with fifo := x.north.fifo ++ [e], transit := l } }) := by
  simp [execPortEntryArrive, eventNext, modRow_eq hx, ht, hroom]

/-- R290: the oldest bytes in flight enter the latch. -/
theorem exec_latchFill_flying {bs : List Byte} {l : List (List Byte)} (hx : s.row? r = some x) (hf : x.mx.fly = bs :: l) :
    exec (.latchFill r) s =
      .next (s.setRow r { x with mx := { x.mx with latch := x.mx.latch ++ bs, fly := l } }) := by
  simp [execLatchFill, eventNext, modRow_eq hx, hf]

/-- R295, R404: the oldest MWL's words reach its lanes of W, which hold no parity error then. -/
theorem exec_mwlArrive_flying {L : Mask} {v : Entry} {l : List (Mask × Entry)} (hx : s.row? r = some x)
    (hm : x.mx.mwl = (L, v) :: l) : exec (.mwlArrive r) s = .next (s.setRow r { x with mx := { x.mx with
      w := Vector.ofFn (fun i : Fin 64 => if L.getLsbD i.val then v[i.val] else x.mx.w[i.val])
      mwl := l
      wbad := x.mx.wbad &&& ~~~L } }) := by
  simp [execMwlArrive, eventNext, modRow_eq hx, hm]

end Sys2Proof.Machine
end

section
/-! PROOF. The statement about completions in a row. -/
open Sys2Proof Sys2Proof.Machine
namespace Sys2Proof.Proofs

/-- Settles O37: each completion and arrival is one update of its row, whose parts are read off. -/
theorem rowCompletion : Obligations.RowCompletion := by
  refine ⟨?producers, ?msca, ?arrivals⟩
  case producers =>
    intro s r x n p hx hp hrun hpar hsteps
    obtain ⟨hprods, hrest⟩ := Row.finish_frame (x := { x with prods := x.prods.eraseIdx n }) p
    exact ⟨_, exec_producerComplete_running hx hp hrun hpar hsteps, hprods, fun _ _ _ => Row.finish_vec,
      fun _ _ => Row.finish_sca, Row.finish_raises, Row.finish_folds, hrest⟩
  case msca =>
    intro s r x o hx ho lane hpar
    refine ⟨_, exec_mscaComplete_row hx ho hpar, rfl, rfl, rfl, rfl, rfl, rfl, Row.mscaDone_parityDue o,
      Row.mscaDone_flags o, fun i => ⟨fun hi => ?_, fun hi => ?_⟩⟩
    · simp only [Row.mscaDone_p, Row.mscaDone_a, hi, lane, if_true, and_self]
    · simp only [Row.mscaDone_p, Row.mscaDone_a, hi, Bool.false_eq_true, if_false, and_self]
  case arrivals =>
    exact fun s r x hx => ⟨fun _ _ => exec_portEntryArrive_room hx, fun _ _ => exec_latchFill_flying hx,
      fun _ _ _ => exec_mwlArrive_flying hx⟩

end Sys2Proof.Proofs
end

section
/-! SUPPORT. Memory with only some of its cells kept. -/
namespace Sys2Proof.Machine

/-- A key of no cell reads as the default. -/
theorem memGet_unlisted {m : Memory} {k : Nat} (h : ∀ c ∈ m, c.1 ≠ k) : memGet m k = memDefault := by
  induction m with
  | nil => rfl
  | cons p m ih =>
    rw [List.forall_mem_cons] at h
    rw [memGet, if_neg (Ne.symm h.1), ih h.2, ite_self]

/-- Dropping the cells of some keys changes no other key. -/
theorem memGet_filter {m : Memory} {k : Nat} (p : Nat → Bool) (h : m.wf = true) (hk : p k = true) :
    memGet (m.filter (fun c => p c.1)) k = memGet m k := by
  unfold Memory.wf at h
  induction m with
  | nil => rfl
  | cons c m ih =>
    have hm : memWfFrom (some c.1) m = true := by
      simp only [memWfFrom, Bool.and_eq_true] at h
      exact h.2
    specialize ih (memWfFrom_none hm)
    cases hc : p c.1
    · have hne : k ≠ c.1 := fun e => by simp [← e, hk] at hc
      rw [List.filter_cons_of_neg (by simp [hc]), ih, memGet, if_neg hne]
      split
      · exact memGet_of_lt hm (Nat.le_of_lt ‹_›)
      · rfl
    · rw [List.filter_cons_of_pos (p := fun c : Host.Cell => p c.1) hc, memGet, memGet, ih]

theorem memGet_filter_dropped {m : Memory} {k : Nat} (p : Nat → Bool) (hk : p k = false) :
    memGet (m.filter (fun c => p c.1)) k = 0 :=
  memGet_unlisted (fun c hc e => by simp [← e, (List.mem_filter.1 hc).2] at hk)

end Sys2Proof.Machine
end

section
/-! SUPPORT. What a device reset keeps (R473), and the steps of bring-up (R474). -/
namespace Sys2Proof.Machine

variable {s : State} {ok : Bool} {bad : List Nat}

/-! ### Device reset -/

theorem deviceReset_survives {k : Nat} (hk : 2 ^ 50 ≤ k) (h : s.mem.wf = true) :
    memGet (deviceReset s).mem k = memGet s.mem k :=
  memGet_filter survives h (decide_eq_true hk)

theorem deviceReset_cleared {k : Nat} (hk : k < 2 ^ 50) : memGet (deviceReset s).mem k = 0 :=
  memGet_filter_dropped survives (decide_eq_false (Nat.not_le.2 hk))

/-! ### Bring-up -/

@[simp] theorem State.bootAt_step (n : Nat) (st : BitVec 4) : (s.bootAt n st).mgmt.step = n := rfl
@[simp] theorem State.bootAt_bootState (n : Nat) (st : BitVec 4) : (s.bootAt n st).mgmt.bootState = st := rfl
@[simp] theorem State.bootAt_measures (n : Nat) (st : BitVec 4) : (s.bootAt n st).mgmt.measures = s.mgmt.measures := rfl
@[simp] theorem State.bootAt_chans (n : Nat) (st : BitVec 4) : (s.bootAt n st).chans = s.chans := rfl
@[simp] theorem State.bootAt_net (n : Nat) (st : BitVec 4) : (s.bootAt n st).net = s.net := rfl
@[simp] theorem State.bootAt_treadle (n : Nat) (st : BitVec 4) : (s.bootAt n st).treadle = s.treadle := rfl

theorem trainChannels_trained (i : Fin 384) : ((trainChannels s bad).chans[i.val]).trained = true ↔
    (i.val ∉ bad ∨ (s.chans[i.val]).trained = true) := by
  by_cases hi : i.val ∈ bad <;> simp [trainChannels, Channel.train, hi]

theorem trainChannels_failed {i : Fin 384} (hi : i.val ∈ bad) : ((trainChannels s bad).chans[i.val]).failed = true := by
  simp [trainChannels, Channel.train, hi]

theorem trainLinks_ports (i : Fin 12) : ((trainLinks s bad).net.ports[i.val]).down = decide (i.val ∈ bad) := by
  simp [trainLinks]

theorem trainLinks_treadle : (trainLinks s bad).treadle.down = decide (12 ∈ bad) := by
  simp [trainLinks]

theorem clearScratch_cleared {k : Nat} (hlo : 2 ^ 44 ≤ k) (hhi : k < 2 ^ 47) : memGet (clearScratch s).mem k = 0 :=
  memGet_filter_dropped (fun a => decide (a < 2 ^ 44) || decide (2 ^ 47 ≤ a)) (by simp; omega)

theorem startPace_h (d : DieId) : ((startPace s).die d).h = 10 := by
  simp [startPace, State.die]

end Sys2Proof.Machine
end

section
/-! PROOF. The statement about device reset and bring-up. -/
open Sys2Proof Sys2Proof.Machine
namespace Sys2Proof.Proofs

/-- Settles O47: a reset keeps the cells of flash and host memory, and each step of bring-up is one update of the state. -/
theorem deviceStart : Obligations.DeviceStart := by
  refine ⟨?reset, ?bringUp⟩
  case reset =>
    intro s b
    refine ⟨_, _, rfl, rfl, rfl, rfl, rfl, rfl, rfl, rfl, rfl, rfl, rfl, rfl, rfl, rfl, rfl, fun _ => deviceReset_survives,
      fun _ => deviceReset_cleared, ?_, rfl, rfl⟩
    exact List.length_append
  case bringUp =>
    intro s ok bad hboot
    have hex : exec (.bringUpStep ok bad) s = execBringUpStep ok bad s := rfl
    rw [hex, execBringUpStep, if_neg (not_not.2 hboot)]
    split
    case h_1 h => exact ⟨_, rfl, by cases ok <;> simp [h]⟩
    case h_2 h => exact ⟨_, rfl, by simp [h]⟩
    case h_3 h =>
      refine ⟨_, rfl, ?_⟩
      simp only [h, flashImage, measured]
      split <;> simp [*]
    case h_4 h =>
      refine ⟨_, rfl, ?_⟩
      simp only [h, flashImage, measured]
      split <;> simp [*]
    case h_5 h => exact ⟨_, rfl, by simpa [h] using fun i => ⟨trainChannels_trained i, trainChannels_failed⟩⟩
    case h_6 h => exact ⟨_, rfl, by simpa [h] using ⟨rfl, fun _ => clearScratch_cleared⟩⟩
    case h_7 h => exact ⟨_, rfl, by simpa [h] using ⟨trainLinks_ports, trainLinks_treadle⟩⟩
    case h_8 h => exact ⟨_, rfl, by simpa [h] using ⟨rfl, startPace_h⟩⟩
    case h_9 h1 h2 h3 h4 h5 h6 h7 h8 =>
      exact ⟨_, rfl, (absurd · h1), (absurd · h2), (absurd · h3), (absurd · h4), (absurd · h5), (absurd · h6), (absurd · h7),
        (absurd · h8)⟩

end Sys2Proof.Proofs
end

section
/-! SUPPORT. Channels and stacks by their numbers (R107, R117), what a line read at a controller counts (R111, R112), and what a
round of the arbiter leaves as it was (R383). -/
namespace Sys2Proof.Machine

variable {s t u : State}

/-! ### Channels and stacks -/

theorem chan_fin (ch : Fin 384) : s.chan ch.val = s.chans[ch.val] := by simp [State.chan]

theorem modChan_fin (ch : Fin 384) (f : Channel → Channel) :
    s.modChan ch.val f = { s with chans := s.chans.set ch.val (f s.chans[ch.val]) ch.isLt } := dif_pos ch.isLt

theorem modStack_fin (k : Fin 12) (f : Stack → Stack) :
    s.modStack k.val f = { s with hbmStacks := s.hbmStacks.set k.val (f s.hbmStacks[k.val]) k.isLt } := dif_pos k.isLt

/-- A reissued command is counted; a third failure in a row marks the channel failed (R108). -/
theorem Channel.alert_kept (c : Channel) (ok : Bool) (hf : c.failed = false) :
    (c.alert ok true).rpcnt.toNat = min 255 (c.rpcnt.toNat + 1) ∧
      (c.alert ok true).failed = (!ok && decide (2 ≤ c.replays)) ∧
      (c.alert ok true).cecnt = c.cecnt ∧ (c.alert ok true).uecnt = c.uecnt := by
  have hcnt : (if c.rpcnt = 0xFF then 0xFF else c.rpcnt + 1).toNat = min 255 (c.rpcnt.toNat + 1) := by
    split <;> bv_omega
  cases ok
  · by_cases h2 : 2 ≤ c.replays <;> simpa [Channel.alert, h2, hf] using hcnt
  · simpa [Channel.alert, hf] using hcnt

/-! ### Line reads (R111, R112) -/

/-- A line read at a controller changes the counters of a channel and the lines with correctable errors. -/
theorem noteLineRead_frame (pa : Nat) : ∃ c l, noteLineRead s pa = { s with chans := c, weakLines := l } := by
  unfold noteLineRead State.modChan
  simp only []
  split
  · exact ⟨_, _, rfl⟩
  · split
    · split <;> exact ⟨_, _, rfl⟩
    · split
      · split <;> exact ⟨_, _, rfl⟩
      · exact ⟨_, _, rfl⟩

/-- A good line is corrected by a read (R111). -/
theorem noteLineRead_corrects {pa : Nat} (hf : s.paFailed pa = false) (hb : s.paBad pa = false) :
    pa / 64 ∉ (noteLineRead s pa).weakLines := by
  unfold noteLineRead
  simp only [hf, hb, Bool.false_eq_true, if_false]
  split <;> simp_all

/-! ### A round of the arbiter (R381 to R383) -/

/-- Two states that differ at most in rows, clusters, dies and the pending N. -/
def PaceFrame (s t : State) : Prop :=
  ∃ rows clusters dies n, t = { s with rows := rows, clusters := clusters, dies := dies, pendingN := n }

theorem PaceFrame.refl : PaceFrame s s := ⟨_, _, _, _, rfl⟩

theorem PaceFrame.trans (h : PaceFrame s t) (g : PaceFrame t u) : PaceFrame s u := by
  obtain ⟨_, _, _, _, rfl⟩ := h
  obtain ⟨_, _, _, _, rfl⟩ := g
  exact ⟨_, _, _, _, rfl⟩

theorem PaceFrame.ite (b : Bool) (h : PaceFrame s t) (g : PaceFrame s u) : PaceFrame s (if b then t else u) := by
  split
  · exact h
  · exact g

theorem PaceFrame.foldl {α : Type} {f : State → α → State} (hf : ∀ t a, PaceFrame t (f t a)) (l : List α) :
    PaceFrame s (l.foldl f s) := List.foldlRecOn l f .refl (fun t h a _ => h.trans (hf t a))

theorem decideCluster_frame (c : ClusterId) (f : FusedPoint) : PaceFrame s (decideCluster s c f) := by
  unfold decideCluster
  simp only []
  split
  · exact ⟨_, _, _, _, rfl⟩
  · split
    · split <;> exact ⟨_, _, _, _, rfl⟩
    · exact ⟨_, _, _, _, rfl⟩

theorem arbiterRound_frame : PaceFrame s (arbiterRound s) := by
  unfold arbiterRound
  refine .trans (.trans (t := { s with pendingN := _ }) ⟨_, _, _, _, rfl⟩ (.foldl (fun _ _ => ⟨_, _, _, _, rfl⟩) _))
    (.foldl (fun t c => ?_) _)
  split <;> exact .trans ⟨_, _, _, _, rfl⟩ (decideCluster_frame _ _)

/-- Without a freeze, the round that a change of temperature starts leaves all but the pace as it was. -/
theorem startRound_frame (h : s.freeze = .none) : PaceFrame s (startRound s) := by
  rw [startRound, if_pos h]
  split
  · exact .refl
  · exact arbiterRound_frame

end Sys2Proof.Machine
end

section
/-! SUPPORT. The events of the channels (R107, R108, R114) and of the freeze (R117 to R120), each as one update of the state. -/
namespace Sys2Proof.Machine

variable {s : State}

/-! ### Channels -/

theorem exec_channelRetrain_starts {ch : Fin 384} (ht : (s.chans[ch.val]).trained = true)
    (hf : (s.chans[ch.val]).failed = false) (hr : stackRetraining s ch.val = false) (hz : s.freeze = .none) :
    exec (.channelRetrain ch.val) s = .next { s with
      chans := s.chans.set ch.val { s.chans[ch.val] with retraining := true } ch.isLt } := by
  simp [execChannelRetrain, chan_fin, modChan_fin, Channel.works, ht, hf, hr, hz]

theorem exec_channelRetrain_frozen (ch : Nat) (hz : s.freeze ≠ .none) : exec (.channelRetrain ch) s = .next s := by
  simp [execChannelRetrain, eventNext, hz]

theorem exec_retrainComplete_retrained {ch : Fin 384} (ok : Bool) (hr : (s.chans[ch.val]).retraining = true) :
    exec (.retrainComplete ch.val ok) s = .next { s with
      chans := s.chans.set ch.val ((s.chans[ch.val]).retrained ok) ch.isLt } := by
  simp [execRetrainComplete, chan_fin, modChan_fin, hr]

theorem exec_commandParityAlert_works {ch : Fin 384} (ok hist : Bool) (ht : (s.chans[ch.val]).trained = true)
    (hf : (s.chans[ch.val]).failed = false) :
    exec (.commandParityAlert ch.val ok hist) s = .next { s with
      chans := s.chans.set ch.val ((s.chans[ch.val]).alert ok hist) ch.isLt } := by
  simp [execCommandParityAlert, chan_fin, modChan_fin, Channel.works, ht, hf]

/-- An access waits in a channel that retrains, and everywhere once a freeze has begun (R107, R118). -/
theorem paHeld_of_busy {pa : Nat} {ch : Fin 384} (hc : channelOf pa = ch.val)
    (h : (s.chans[ch.val]).retraining = true ∨ s.freeze = .draining) : s.paHeld pa = true := by
  rcases h with h | h <;> simp [State.paHeld, hc, chan_fin, h]

/-! ### Patrol scrub -/

/-- The line that the patrol scrub of a pseudo-channel reads next. -/
def scrubAddress (s : State) (pc : Fin 768) : Nat := pseudoAddress pc.val (64 * s.scrub[pc.val])

/-- The state once the patrol scrub has read its next line. -/
def scrubbed (s : State) (pc : Fin 768) : State :=
  noteLineRead { s with scrub := s.scrub.set pc.val ((s.scrub[pc.val] + 1) % scrubLines) pc.isLt } (scrubAddress s pc)

theorem exec_patrolScrub_fin (pc : Fin 768) : exec (.patrolScrub pc.val) s =
    if s.paHeld (scrubAddress s pc) then .next s
    else if !s.paFailed (scrubAddress s pc) && s.paBad (scrubAddress s pc)
      then .next (logRecord (scrubbed s pc) 0x84 0 0 0 0 (dw (scrubAddress s pc)) 0) else .next (scrubbed s pc) :=
  dif_pos pc.isLt

theorem exec_patrolScrub_held {pc : Fin 768} (h : s.paHeld (scrubAddress s pc) = true) :
    exec (.patrolScrub pc.val) s = .next s := by rw [exec_patrolScrub_fin, if_pos h]

theorem scrubbed_frame (pc : Fin 768) : ∃ c l, scrubbed s pc = { s with
    scrub := s.scrub.set pc.val ((s.scrub[pc.val] + 1) % scrubLines) pc.isLt
    chans := c
    weakLines := l } := noteLineRead_frame _

/-- The scrub moves on; it leaves a good line corrected, and logs one that is not. -/
theorem exec_patrolScrub_reads {pc : Fin 768} (hheld : s.paHeld (scrubAddress s pc) = false)
    (hfail : s.paFailed (scrubAddress s pc) = false) : ∃ t : State, exec (.patrolScrub pc.val) s = .next t ∧
      t.scrub[pc.val] = (s.scrub[pc.val] + 1) % scrubLines ∧ t.mem = s.mem ∧
      (s.paBad (scrubAddress s pc) = false → t.mgmt = s.mgmt ∧ scrubAddress s pc / 64 ∉ t.weakLines) ∧
      (s.paBad (scrubAddress s pc) = true → t.mgmt.log.length = s.mgmt.log.length + 1 ∧ t.badLines = s.badLines) := by
  obtain ⟨_, _, hframe⟩ := scrubbed_frame (s := s) pc
  have hgood := noteLineRead_corrects (s := { s with
    scrub := s.scrub.set pc.val ((s.scrub[pc.val] + 1) % scrubLines) pc.isLt }) hfail
  rw [exec_patrolScrub_fin, if_neg (by simp [hheld])]
  cases hbad : s.paBad (scrubAddress s pc)
  · refine ⟨scrubbed s pc, by simp, ?_, ?_, fun _ => ⟨?_, hgood hbad⟩, nofun⟩ <;> simp [hframe]
  · refine ⟨_, by simp only [hfail]; rfl, ?_, ?_, nofun, fun _ => ⟨?_, ?_⟩⟩ <;> simp [logRecord, hframe]

/-! ### Temperature and the freeze -/

theorem exec_stackHighEnter_fin (k : Fin 12) : exec (.stackHighEnter k.val) s = .next (startRound { s with
    hbmStacks := s.hbmStacks.set k.val { s.hbmStacks[k.val] with high := true } k.isLt }) := by
  rw [exec_stackHighEnter, execStackHighEnter, modStack_fin]

theorem exec_stackHighLeave_fin (k : Fin 12) : exec (.stackHighLeave k.val) s = .next (startRound { s with
    hbmStacks := s.hbmStacks.set k.val { s.hbmStacks[k.val] with high := false } k.isLt }) := by
  rw [exec_stackHighLeave, execStackHighLeave, modStack_fin]

theorem exec_packageFreeze_down (k : Fin 12) (h : s.mgmt.step < 5 ∨ s.mgmt.bootState = 2) :
    exec (.packageFreeze k.val) s = .next s := by
  have hdown : s.stacksUp = false := by
    rcases h with h | h <;> simp [State.stacksUp, h]
  simp [execPackageFreeze, eventNext, hdown]

/-- A stack that becomes Critical is High with it, and starts the freeze (R118). -/
theorem exec_packageFreeze_starts (k : Fin 12) (hstep : 5 ≤ s.mgmt.step) (hboot : s.mgmt.bootState ≠ 2)
    (hz : s.freeze = .none) : ∃ t : State, exec (.packageFreeze k.val) s = .next t ∧ t.freeze = .draining ∧
      (t.hbmStacks[k.val]).critical = true ∧ (t.hbmStacks[k.val]).high = true := by
  have hup : s.stacksUp = true := by simpa [State.stacksUp, hstep] using hboot
  have hraised : (s.modStack k.val (fun k => { k with high := true, critical := true })).freeze = .none := by
    rw [modStack_fin, hz]
  have hframe : ∀ t, PaceFrame (s.modStack k.val (fun k => { k with high := true, critical := true })) t →
      t.freeze = .none ∧ (t.hbmStacks[k.val]).critical = true ∧ (t.hbmStacks[k.val]).high = true := by
    rintro _ ⟨_, _, _, _, rfl⟩
    simp [modStack_fin, hz]
  obtain ⟨hfreeze, hstack⟩ := hframe _ (.ite (s.hbmStacks[k.val]?.getD ⟨false, false⟩).high .refl
    (startRound_frame hraised))
  exact ⟨_, (if_pos ⟨k.isLt, hup⟩).trans (congrArg _ (if_pos hfreeze)), rfl, hstack⟩

/-- Every clock stops once nothing is in progress (R118). -/
theorem exec_freezeGate_gates (hz : s.freeze = .draining) (hc : ∀ c ∈ s.chans.toList, c.retraining = false)
    (hk : ∀ c ∈ s.clusters.toList, c.pace.switching = false) : exec .freezeGate s = .next (raiseMsix { s with
      freeze := .gated
      mgmt := { s.mgmt with freezeAt := s.mgmt.refclk } } 17) :=
  if_pos ⟨hz, List.all_eq_true.2 (fun c h => by rw [hc c h]; rfl), List.all_eq_true.2 (fun c h => by rw [hk c h]; rfl)⟩

/-- The state whose clocks go on after a freeze of a duration, before the round that the freeze has put off (R119, R120). -/
def thawed (s : State) (dur : Nat) : State :=
  raiseMsix (logRecord { s with
    freeze := .none
    heldHost := []
    chans := s.chans.map (fun c => if c.retraining then c.retrained true else c)
    mgmt := { s.mgmt with
      freezes := s.mgmt.freezes + 1
      roundDue := false } } 0x82 0 0 0 0 (dw dur) 0) 18

theorem exec_freezeResume_thaws (hz : s.freeze = .released) (hh : s.heldHost = []) :
    exec (.freezeResume (s.mgmt.refclk - s.mgmt.freezeAt)) s = .next
      (if s.mgmt.roundDue then startRound (thawed s (s.mgmt.refclk - s.mgmt.freezeAt))
        else thawed s (s.mgmt.refclk - s.mgmt.freezeAt)) := by
  simp [execFreezeResume, hz, hh, thawed]

/-- The freeze is counted and logged with its duration. -/
theorem exec_freezeResume_resumes (hz : s.freeze = .released) (hh : s.heldHost = []) :
    ∃ t : State, exec (.freezeResume (s.mgmt.refclk - s.mgmt.freezeAt)) s = .next t ∧ t.freeze = .none ∧
      t.mgmt = (thawed s (s.mgmt.refclk - s.mgmt.freezeAt)).mgmt := by
  obtain ⟨_, _, _, _, hframe⟩ := PaceFrame.ite s.mgmt.roundDue
    (startRound_frame (s := thawed s (s.mgmt.refclk - s.mgmt.freezeAt)) rfl) .refl
  exact ⟨_, exec_freezeResume_thaws hz hh, by rw [hframe]; rfl, by rw [hframe]⟩

end Sys2Proof.Machine
end

section
/-! PROOF. The statement about channels, stack temperature and the package freeze. -/
open Sys2Proof Sys2Proof.Machine
namespace Sys2Proof.Proofs

/-- Settles O48: an event of a channel updates that channel, and a round of the arbiter leaves the freeze, the stacks and the
management processor as they are. -/
theorem channelFreeze : Obligations.ChannelFreeze := by
  refine ⟨?channels, ?freeze⟩
  case channels =>
    intro s ch pc ok
    refine ⟨exec_channelRetrain_starts, exec_channelRetrain_frozen _, fun _ _ => paHeld_of_busy,
      fun hr => ⟨exec_retrainComplete_retrained true hr, exec_retrainComplete_retrained false hr⟩,
      fun ht hf => ⟨_, exec_commandParityAlert_works ok true ht hf, Channel.alert_kept _ ok hf⟩,
      exec_patrolScrub_held, exec_patrolScrub_reads⟩
  case freeze =>
    intro s k
    refine ⟨exec_stackHighEnter_fin k, exec_stackHighLeave_fin k, exec_packageFreeze_starts k, exec_packageFreeze_down k,
      fun hz hc hk => ⟨_, exec_freezeGate_gates hz hc hk, rfl, rfl, rfl, rfl⟩,
      fun hz => ⟨_, if_pos hz, rfl, fun i ht hf => ?_⟩, fun hz hh => ?_⟩
    · simp [Channel.works, ht, hf]
    · obtain ⟨t, ht, hfr, hm⟩ := exec_freezeResume_resumes hz hh
      refine ⟨t, ht, hfr, ?_⟩
      simp [hm, thawed, raiseMsix, logRecord, dw]

end Sys2Proof.Proofs
end

section
/-! SUPPORT. What an access to memory leaves as it was: its walks and the counters of the lines it reads change no byte
(R111, R116, R128), and one write to a good place of main memory writes its bytes. -/
namespace Sys2Proof.Machine

variable {s : State} {q : Requester}

theorem foldl_mem {α : Type} {f : State → α → State} (hf : ∀ t a, (f t a).mem = t.mem) (l : List α) :
    (l.foldl f s).mem = s.mem := 
  List.foldlRecOn l f (motive := fun t => t.mem = s.mem) rfl (fun t h a _ => (hf t a).trans h)

/-! ### Counters and walks -/

@[simp] theorem noteLineRead_mem (pa : Nat) : (noteLineRead s pa).mem = s.mem := by
  obtain ⟨_, _, h⟩ := noteLineRead_frame (s := s) pa
  rw [h]

@[simp] theorem noteRead_mem (p : Place) : (noteRead s p).mem = s.mem := by
  cases p with
  | hbm pa => exact noteLineRead_mem pa
  | scratch => rfl
  | host => rfl

@[simp] theorem noteWrites_mem (a : Dword) (n : Nat) : (noteWrites s q a n).mem = s.mem := by
  refine foldl_mem (fun t p => ?_) _
  split
  · split
    · rfl
    · exact noteRead_mem _
  · rfl

@[simp] theorem countWalk_mem (who : Option DieId) (asid : BitVec 6) (va : Nat) (l : List (Nat × Nat × Dword)) :
    (countWalk s who asid va l).mem = s.mem := by
  refine foldl_mem (fun t p => ?_) _
  split
  · rfl
  · exact noteLineRead_mem _

@[simp] theorem walkInto_mem (who : Option DieId) (link : Bool) (cs : List CacheId) (asid : BitVec 6) (va : Nat)
    (allows : Dword → Bool) : (walkInto s who link cs asid va allows).mem = s.mem := by
  unfold walkInto
  simp only []
  split
  · exact countWalk_mem _ _ _ _
  · split <;> exact countWalk_mem _ _ _ _

@[simp] theorem walked_mem (kind : Kind) (a : Dword) (n : Nat) : (walked s q kind a n).mem = s.mem := by
  refine foldl_mem (fun t p => ?_) _
  split
  · rfl
  · exact walkInto_mem _ _ _ _ _ _

/-! ### A write within one line -/

theorem placeWrite_mem (p : Place) (bs : List Byte) : (placeWrite s p bs).mem = memWrite s.mem p.key bs := by
  cases p with
  | hbm pa =>
    simp only [placeWrite]
    split
    · rfl
    · exact noteLineRead_mem _
  | scratch => rfl
  | host => rfl

/-- An access within a line of its address is one piece. -/
theorem pieces_line {a : Dword} {n : Nat} (h : a.toNat % 64 + n ≤ 64) : pieces a n = [(0, n)] := if_pos (by omega)

/-- A write within a line that can be resolved and does not fail. -/
theorem resolveAll_write_line {a : Dword} {n y : Nat} (h : a.toNat % 64 + n ≤ 64) (hr : resolve s q .write a n = .ok (.hbm y))
    (hw : writeFails s (.hbm y) n = false) (hl : q.link = false) :
    resolveAll s q .write a n = .ok [(.hbm y, 0, n)] := by
  simp [resolveAll, pieces_line h, dw, hr, hw, hl, Place.isHost, worse]

/-- Bytes written within a good line of main memory stand there. -/
theorem writeAddr_line {a : Dword} {y : Nat} {bs : List Byte} (h : a.toNat % 64 + bs.length ≤ 64)
    (hr : resolve (walked s q .write a bs.length) q .write a bs.length = .ok (.hbm y))
    (hw : writeFails (walked s q .write a bs.length) (.hbm y) bs.length = false) (hl : q.link = false) (hm : s.mem.wf = true) :
    memRead (writeAddr s q a bs).1.mem y bs.length = bs := by
  simp only [writeAddr, resolveAll_write_line h hr hw hl, List.foldl_cons, List.foldl_nil, placeWrite_mem, walked_mem,
    List.drop_zero, List.take_length]
  exact memRead_memWrite _ _ _ hm

end Sys2Proof.Machine
end

section
/-! SUPPORT. What a shuttle line does (R131, R147). -/
namespace Sys2Proof.Machine

variable {s : State} {q : Requester} {m : Memory}

@[simp] theorem segRead_mem (g : Seg) : (segRead m s q g).1.mem = s.mem := by
  unfold segRead
  split <;> rfl

/-- The source bytes of a line's segments, read one after another. -/
def lineReads (m : Memory) (s : State) (q : Requester) (l : List Seg) : State × List (Seg × Except Fail (List Byte)) :=
  l.foldl (fun acc g => ((segRead m acc.1 q g).1, acc.2 ++ [(g, (segRead m acc.1 q g).2)])) (s, [])

/-- What a line writes, with zeros for a segment that could not be read. -/
def lineWrites (rs : List (Seg × Except Fail (List Byte))) : List (Dword × List Byte) :=
  joinWrites (rs.map (fun p => (p.1.dst, match p.2 with
    | .ok bs => bs
    | .error _ => List.replicate p.1.n 0)))

/-- The failure of the segments of a line that could not be read. -/
def lineReadFail (rs : List (Seg × Except Fail (List Byte))) : Option (Fail × Dword) :=
  rs.foldl (fun f p => worseAt f (match p.2 with
    | .error e => some (e, p.1.srcAddr)
    | .ok _ => none)) none

/-- The failure of a line. -/
def lineFail (m : Memory) (s : State) (q : Requester) (l : List Seg) : Option (Fail × Dword) :=
  (lineWrites (lineReads m s q l).2).foldl (fun f w => worseAt f (writeFailOf (lineReads m s q l).1 q w))
    (lineReadFail (lineReads m s q l).2)

theorem doLine_eq (l : List Seg) : doLine m s q l = match lineFail m s q l with
    | some f =>
      let t := (lineWrites (lineReads m s q l).2).foldl (fun s w => walked s q .write w.1 w.2.length) (lineReads m s q l).1
      (if (lineReadFail (lineReads m s q l).2).isSome || f.1.early then t
        else (lineWrites (lineReads m s q l).2).foldl (fun s w => noteWrites s q w.1 w.2.length) t, some f)
    | none => ((lineWrites (lineReads m s q l).2).foldl (fun s w => (writeAddr s q w.1 w.2).1) (lineReads m s q l).1, none) :=
  rfl

theorem lineReads_mem (l : List Seg) : (lineReads m s q l).1.mem = s.mem :=
  List.foldlRecOn l _ (motive := fun p : State × List (Seg × Except Fail (List Byte)) => p.1.mem = s.mem) rfl
    (fun _ hp g _ => (segRead_mem g).trans hp)

/-- A line that fails writes no byte. -/
theorem doLine_failed_mem {l : List Seg} (h : (doLine m s q l).2.isSome = true) : (doLine m s q l).1.mem = s.mem := by
  rw [doLine_eq] at h ⊢
  cases hf : lineFail m s q l with
  | none => simp [hf] at h
  | some f =>
    simp only []
    split
    · rw [foldl_mem (fun _ _ => walked_mem _ _ _), lineReads_mem]
    · rw [foldl_mem (fun _ _ => noteWrites_mem _ _), foldl_mem (fun _ _ => walked_mem _ _ _), lineReads_mem]

/-- The state in which the source of a copied line has been read. -/
def copyRead (m : Memory) (s : State) (q : Requester) (a : Dword) (n : Nat) : State :=
  { (readAddr { s with mem := m } q a n).1 with mem := s.mem }

theorem lineReads_copy {d a : Dword} {n : Nat} {bs : List Byte} (hv : (readAddr { s with mem := m } q a n).2 = .ok bs) :
    lineReads m s q [⟨d, .addr a, n⟩] = (copyRead m s q a n, [(⟨d, .addr a, n⟩, .ok bs)]) := by
  simp only [lineReads, List.foldl_cons, List.foldl_nil, List.nil_append, segRead, readingFrom, hv, copyRead]

/-- A line copied to a good place of main memory does not fail, and carries its bytes. -/
theorem doLine_copy {d a : Dword} {y : Nat} {bs : List Byte} (hd : d.toNat % 64 + bs.length ≤ 64)
    (hv : (readAddr { s with mem := m } q a bs.length).2 = .ok bs)
    (hr : resolve (copyRead m s q a bs.length) q .write d bs.length = .ok (.hbm y))
    (hw : writeFails (copyRead m s q a bs.length) (.hbm y) bs.length = false)
    (hr' : resolve (walked (copyRead m s q a bs.length) q .write d bs.length) q .write d bs.length = .ok (.hbm y))
    (hw' : writeFails (walked (copyRead m s q a bs.length) q .write d bs.length) (.hbm y) bs.length = false)
    (hl : q.link = false) (hm : s.mem.wf = true) :
    (doLine m s q [⟨d, .addr a, bs.length⟩]).2 = none ∧
      memRead (doLine m s q [⟨d, .addr a, bs.length⟩]).1.mem y bs.length = bs := by
  have hreads := lineReads_copy (d := d) hv
  have hwrites : lineWrites [(⟨d, .addr a, bs.length⟩, .ok bs)] = [(d, bs)] := rfl
  have hnone : lineFail m s q [⟨d, .addr a, bs.length⟩] = none := by
    simp [lineFail, hreads, hwrites, lineReadFail, writeFailOf, resolveAll_write_line hd hr hw hl, worseAt]
  rw [doLine_eq, hnone, hreads, hwrites]
  exact ⟨rfl, writeAddr_line hd hr' hw' hl hm⟩

end Sys2Proof.Machine
end

section
/-! SUPPORT. The completion of a line of a shuttle command (R147). -/
namespace Sys2Proof.Machine

variable {s : State} {k : Cmd} {q b : Nat}

/-- A command with one more unit done, and failed where it has. -/
def Cmd.unitDone (k : Cmd) (order : Nat) (fail : Option (Byte × Dword)) : Cmd :=
  { k with
    done := k.done ++ [order]
    fails := match fail with
      | some (st, a) => k.fails ++ [(order, st, a)]
      | none => k.fails }

theorem noteUnit_eq (order : Nat) (fail : Option (Byte × Dword)) (left : Cmd → Bool) :
    noteUnit s k order fail left = match k.src with
      | .row _ => if left (k.unitDone order fail) then s.modCmd k.id (fun _ => k.unitDone order fail)
        else retireDone (s.modCmd k.id (fun _ => k.unitDone order fail)) (k.unitDone order fail)
      | .staging _ => s.modCmd k.id (fun _ => k.unitDone order fail) := rfl

/-- A command with units left goes on. -/
theorem noteUnit_left {order : Nat} {fail : Option (Byte × Dword)} {left : Cmd → Bool}
    (h : left (k.unitDone order fail) = true) :
    noteUnit s k order fail left = s.modCmd k.id (fun _ => k.unitDone order fail) := by
  rw [noteUnit_eq, if_pos h]
  split <;> rfl

/-- A command of a row retires with its last unit. -/
theorem noteUnit_last {order : Nat} {fail : Option (Byte × Dword)} {left : Cmd → Bool} {g : RowId} (hs : k.src = .row g)
    (h : left (k.unitDone order fail) = false) : noteUnit s k order fail left =
      retireDone (s.modCmd k.id (fun _ => k.unitDone order fail)) (k.unitDone order fail) := by
  rw [noteUnit_eq, hs, h]
  rfl

/-- The state in which a line of a command has been read and written, or has failed. -/
def linePerformed (s : State) (k : Cmd) (q b : Nat) (f : Bool) : State :=
  let r := doLine (unseenMem s k) s (coreRequester s k.core k.launch f) (k.line q b)
  if r.2.isSome then r.1 else r.1.noted s k.id (lineKeys s k q b)

/-- The failure of a line of a command: its status and address. -/
def lineOutcome (s : State) (k : Cmd) (q b : Nat) (f : Bool) : Option (Byte × Dword) :=
  (doLine (unseenMem s k) s (coreRequester s k.core k.launch f) (k.line q b)).2.map (fun p => (p.1.status, p.2))

/-- A line that no earlier command holds back waits for main memory, or is performed. -/
theorem exec_shuttleLine_dense {f : Bool} (hk : s.cmd? k.id = some k) (hc : k.cls = .sh) (hp : cmdStopped s k = false)
    (hl : (q, b) ∈ k.linesLeft) (hd : k.sparse = false) (he : heldByEarlier s k q b = false) :
    exec (.shuttleLineComplete k.id q b f) s =
      if lineHeld s (coreRequester s k.core k.launch f) (k.line q b) then .next s
      else .next (noteUnit (linePerformed s k q b f) k (lineOrder q b) (lineOutcome s k q b f)
        (fun k => !k.linesLeft.isEmpty)) := by
  simp only [exec_shuttleLineComplete, execShuttleLineComplete, hk, hc, hp, hd, he, List.contains_iff_mem.2 hl, bne_self_eq_false,
    Bool.not_true, Bool.or_self, Bool.false_and, Bool.false_or, Bool.false_eq_true, if_false]
  rfl

theorem unseenMem_unnoted (h : s.notes = []) : unseenMem s k = s.mem := by simp [unseenMem, h]

end Sys2Proof.Machine
end

section
/-! SUPPORT. The retirement of a command (R147, R152, R165, R166). -/
namespace Sys2Proof.Machine

variable {s : State} {k : Cmd} {r : RowId} {x : Row} {cl : ClusterId}

/-! ### Slots (R371, R375) -/

theorem modSlot_cluster_slots (i : BitVec 6) (f : Slot → Slot) :
    ((s.modSlot cl i f).cluster cl).slots[i.toNat] = f (s.cluster cl).slots[i.toNat] := by
  simp [State.modSlot, State.modCluster, State.cluster]

/-- A changed slot releases rows and continuations and is traced; no other cluster state changes. -/
theorem putSlot_frame (g : CoreId) (i : BitVec 6) (v : Slot) : ∃ rows conts m d,
    putSlot s cl g i v = { s.modSlot cl i (fun _ => v) with rows := rows, conts := conts, mem := m, dies := d } := by
  have htrace : ∀ (l : List Nat) (u : State) (a : Nat) (w : Nat → Nat), ∃ m d,
      l.foldl (fun s j => traceRecord s a g none 4 i.toNat (w j)) u = { u with mem := m, dies := d } := by
    intro l u a w
    refine List.foldlRecOn l _ (motive := fun t : State => ∃ m d, t = { u with mem := m, dies := d })
      ⟨u.mem, u.dies, rfl⟩ ?_
    rintro _ ⟨_, _, rfl⟩ j -
    exact traceRecord_frame a g none 4 i.toNat (w j)
  unfold putSlot
  simp only []
  split
  · split
    · obtain ⟨_, _, h⟩ := htrace _ _ _ _
      exact ⟨_, _, _, _, h⟩
    · exact ⟨_, _, _, _, rfl⟩
  · exact ⟨_, _, _, _, rfl⟩

theorem putSlot_slot (g : CoreId) (i : BitVec 6) (v : Slot) : ((putSlot s cl g i v).cluster cl).slots[i.toNat] = v := by
  obtain ⟨_, _, _, _, hframe⟩ := putSlot_frame (s := s) (cl := cl) g i v
  rw [hframe]
  exact modSlot_cluster_slots (s := s) i (fun _ => v)

theorem countStale_clusters {t : State} (h : t.clusters = s.clusters) {l : Nat} :
    (countStale t cl l).clusters = (countStale s cl l).clusters := by
  cases s
  cases t
  cases h
  rfl

/-- A credit of another generation or owner is counted as stale (R375). -/
theorem slotCredit_stale {g : CoreId} {i : BitVec 6} {gen : BitVec 16} {l n : Nat}
    (h : (s.cluster cl).slots[i.toNat].accepts gen l = false) :
    (slotCredit s cl g i gen l n).1 = countStale s cl l := by
  rw [slotCredit, if_neg (by simp [h])]

/-- A credit that the slot accepts is taken from its pending bytes. -/
theorem slotCredit_accepted {g : CoreId} {i : BitVec 6} {gen : BitVec 16} {l n : Nat}
    (h : (s.cluster cl).slots[i.toNat].accepts gen l = true) :
    (((slotCredit s cl g i gen l n).1.cluster cl).slots[i.toNat]) =
      ({ (s.cluster cl).slots[i.toNat] with
        rb := max (-(2 ^ 48 : Int)) ((s.cluster cl).slots[i.toNat].rb - n) }).settle := by
  rw [slotCredit, if_pos h]
  exact putSlot_slot g i _

/-- A credit changes clusters, rows, continuations, memory and dies, nothing else. -/
theorem slotCredit_frame (g : CoreId) (i : BitVec 6) (gen : BitVec 16) (l n : Nat) : ∃ rows conts m d c,
    (slotCredit s cl g i gen l n).1 =
      { s with rows := rows, conts := conts, mem := m, dies := d, clusters := c } := by
  cases h : (s.cluster cl).slots[i.toNat].accepts gen l
  · rw [slotCredit_stale h]
    exact ⟨_, _, _, _, _, rfl⟩
  · obtain ⟨_, _, _, _, hframe⟩ := putSlot_frame (s := s) (cl := cl) g i ({ (s.cluster cl).slots[i.toNat] with
      rb := max (-(2 ^ 48 : Int)) ((s.cluster cl).slots[i.toNat].rb - n) }).settle
    rw [slotCredit, if_pos h, hframe]
    exact ⟨_, _, _, _, _, rfl⟩

/-! ### The steps of a retirement -/

/-- What the batch of a command learns at its retirement, in the command's own row. -/
def Row.learns (x : Row) (k : Cmd) (st : Byte) (ad : Dword) : Row :=
  if x.band = k.band then x.modCls k.cls (fun c => c.retire k.batch k.pos st ad) else x

/-- The state without a command, whose writes are observed (R147, R148). -/
def State.dropCmd (s : State) (k : Cmd) : State :=
  { s with
    cmds := s.cmds.filter (fun c => c.id != k.id)
    notes := settledNotes k.id [] s.notes }

/-- The state without a command of row r, whose batch has learned of its retirement. -/
def released (s : State) (k : Cmd) (r : RowId) (st : Byte) (ad : Dword) : State :=
  ((s.dropCmd k).modRow r (fun x => x.learns k st ad)).modBand k.band
    (fun b => { b with freed := b.freed.map (fun p => if p.1 = r then (r, p.2.learns k st ad) else p) })

/-- The slot of a command that retires has its credit (R152). -/
def credited (s : State) (k : Cmd) : State :=
  if k.bar && k.credit != 0 then (slotCredit s (clusterOf k.core) k.core k.slot k.gen k.launch k.credit).1 else s

/-- A command of a row retires: its release, its credit, and a trace record; bands that nothing keeps are gone. -/
theorem retireCmd_row (h : k.src = .row r) (st : Byte) (ad : Dword) : ∃ m d b,
    retireCmd s k st ad = { credited (released s k r st ad) k with mem := m, dies := d, bands := b } := by
  obtain ⟨_, _, htrace⟩ := traceRecord_frame (s := credited (released s k r st ad) k) k.launch k.core (some r) 2
    k.ticket.toNat st.toNat
  have heq : retireCmd s k st ad =
      sweepBands (traceRecord (credited (released s k r st ad) k) k.launch k.core (some r) 2 k.ticket.toNat st.toNat) := by
    simp only [retireCmd, Cmd.row?, h]
    rfl
  rw [heq, htrace]
  exact ⟨_, _, _, rfl⟩

theorem credited_frame : ∃ rows conts m d c,
    credited s k = { s with rows := rows, conts := conts, mem := m, dies := d, clusters := c } := by
  unfold credited
  split
  · exact slotCredit_frame _ _ _ _ _
  · exact ⟨_, _, _, _, _, rfl⟩

theorem credited_none (h : k.bar = false ∨ k.credit = 0) : credited s k = s := by
  rw [credited, if_neg]
  rcases h with h | h <;> simp [h]

theorem credited_some (hb : k.bar = true) (hc : k.credit ≠ 0) :
    credited s k = (slotCredit s (clusterOf k.core) k.core k.slot k.gen k.launch k.credit).1 := by
  rw [credited, if_pos]
  simp [hb, hc]

/-- Rows learn nothing of a credit that no slot accepts. -/
theorem credited_rows (h : k.bar = false ∨ k.credit = 0 ∨
    ((s.cluster (clusterOf k.core)).slots[k.slot.toNat]).accepts k.gen k.launch = false) :
    (credited s k).rows = s.rows := by
  unfold credited
  split
  case isTrue hboth =>
    rw [slotCredit_stale]
    · rfl
    · simpa [show k.bar = true ∧ k.credit ≠ 0 by simpa using hboth] using h
  case isFalse => rfl

theorem released_clusters (st : Byte) (ad : Dword) : (released s k r st ad).clusters = s.clusters := by
  simp [released, State.dropCmd]

theorem released_row (hx : s.row? r = some x) (st : Byte) (ad : Dword) :
    (released s k r st ad).row? r = some (x.learns k st ad) ∧
      ∀ q, q ≠ r → (released s k r st ad).row? q = s.row? q := by
  have hrow : ∀ q, (released s k r st ad).row? q = (s.setRow r (x.learns k st ad)).row? q := fun q => by
    rw [released, modRow_eq (s := s.dropCmd k) hx]
    rfl
  exact ⟨(hrow r).trans (row?_setRow_self hx _), fun q hq => (hrow q).trans (row?_setRow_other hq _)⟩

/-! ### What a retirement leaves -/

theorem retireCmd_rows (h : k.src = .row r) (st : Byte) (ad : Dword) :
    (retireCmd s k st ad).rows = (credited (released s k r st ad) k).rows := by
  obtain ⟨_, _, _, heq⟩ := retireCmd_row (s := s) h st ad
  rw [heq]

theorem retireCmd_clusters (h : k.src = .row r) (st : Byte) (ad : Dword) :
    (retireCmd s k st ad).clusters = (credited (released s k r st ad) k).clusters := by
  obtain ⟨_, _, _, heq⟩ := retireCmd_row (s := s) h st ad
  rw [heq]

/-- A retired command has left its queue and its scoreboards, and its writes are observed (R147, R148). -/
theorem retireCmd_released (h : k.src = .row r) (st : Byte) (ad : Dword) :
    (retireCmd s k st ad).cmds = s.cmds.filter (fun c => c.id != k.id) ∧
      (retireCmd s k st ad).notes = settledNotes k.id [] s.notes := by
  obtain ⟨_, _, _, heq⟩ := retireCmd_row (s := s) h st ad
  obtain ⟨_, _, _, _, _, hcred⟩ := credited_frame (s := released s k r st ad) (k := k)
  rw [heq, hcred]
  simp [released, State.dropCmd]

end Sys2Proof.Machine
end

section
/-! PROOF. The statement about the lines of a shuttle command and the retirement of a command. -/
open Sys2Proof Sys2Proof.Machine
namespace Sys2Proof.Proofs

/-- Settles O40: a line is one reading and one writing of memory, and a retirement is a release and a credit. -/
theorem shuttleLine : Obligations.ShuttleLine := by
  refine ⟨?line, ?retire⟩
  case line =>
    intro s k q b f hk hc hp hl hd he
    have hex := exec_shuttleLine_dense (f := f) hk hc hp hl hd he
    refine ⟨fun hw => hex.trans (if_pos hw), fun hw => ?_⟩
    rw [if_neg (by simp [hw])] at hex
    intro r k' t
    have hunit : k.unitDone (lineOrder q b) (lineOutcome s k q b f) = k' := by
      simp only [Cmd.unitDone, lineOutcome, k', r]
      cases (doLine (unseenMem s k) s (coreRequester s k.core k.launch f) (k.line q b)).2 <;> rfl
    refine ⟨fun hleft => ?_, fun g hleft hsrc => ?_, doLine_failed_mem, unseenMem_unnoted, ?copied⟩
    · rw [hex, noteUnit_left (by rw [hunit]; simpa using hleft), hunit]
      rfl
    · rw [hex, noteUnit_last hsrc (by rw [hunit]; simpa using hleft), hunit]
      rfl
    case copied =>
      intro d a n y bs hline hn hd v u hv hlen hr hw hr' hw' hm hlink
      subst hlen
      simp only [r, hline]
      exact doLine_copy hd hv hr hw hr' hw' hlink hm
  case retire =>
    intro s k r x st ad hsrc hx hband t cl u hits
    obtain ⟨hcmds, hnotes⟩ := retireCmd_released (s := s) hsrc st ad
    have hclusters := retireCmd_clusters (s := s) hsrc st ad
    have hcluster : (released s k r st ad).cluster cl = s.cluster cl := by
      simp only [State.cluster, released_clusters]
    refine ⟨hcmds, hnotes, fun hno => ?_, fun hno => ?_, fun hb hc hno => ?_, fun hb hc hyes => ?_, ?_, ?_⟩
    · obtain ⟨hself, hother⟩ := released_row (k := k) hx st ad
      have hrows : t.rows = (released s k r st ad).rows :=
        (retireCmd_rows hsrc st ad).trans (credited_rows (by rw [hcluster]; exact hno))
      rw [Row.learns, if_pos hband] at hself
      simp only [State.row?, hrows]
      exact ⟨hself, hother⟩
    · rw [hclusters, credited_none hno, released_clusters]
    · rw [hclusters, credited_some hb hc, slotCredit_stale (by rw [hcluster]; exact hno)]
      exact countStale_clusters (released_clusters st ad)
    · have hslot := slotCredit_accepted (s := released s k r st ad) (cl := cl) (g := k.core) (i := k.slot) (gen := k.gen)
        (l := k.launch) (n := k.credit) (by rw [hcluster]; exact hyes)
      rw [State.cluster, hclusters, credited_some hb hc]
      rw [hcluster] at hslot
      exact hslot
    · rintro d a b br d3 z (h | h) <;> simp only [Cmd.credit, h, Cmd.bytes, Cmd.copyRows, Cmd.planes]
    · rintro d a b br ix o p (h | h | h) <;> simp only [Cmd.credit, h, Cmd.count, Cmd.esz]

end Sys2Proof.Proofs
end

section
/-! SUPPORT. The issue of an engine command whose checks are met (R11, R145, R146). -/
namespace Sys2Proof.Machine

variable {s t : State} {r : RowId} {x y : Row} {w : Band} {cls : BClass} {d a b : Reg}

/-! ### The row at entry -/

theorem dueParity_regs (o : Option Dword) : (x.dueParity o).regs = x.regs := by unfold Row.dueParity; split <;> rfl
theorem dueParity_cls (o : Option Dword) : (x.dueParity o).cls = x.cls := by unfold Row.dueParity; split <;> rfl

/-- A row that performs what it owes keeps its registers and its batches. -/
theorem flushPosted_keeps (hx : s.row? r = some x) (hy : (flushPosted s r).row? r = some y) :
    y.regs = x.regs ∧ y.cls = x.cls := by
  rw [flushPosted_row hx, Option.some.injEq] at hy
  subst hy
  exact ⟨dueParity_regs _, dueParity_cls _⟩

/-! ### Entry -/

/-- What an engine instruction sees at entry: the row whose posted writes have been performed. -/
def entryCtx (s : State) (r : RowId) (x y : Row) (w : Band) (d a b : Reg) : Ctx :=
  { ctxOf s r x w d a b with s := flushPosted s r, x := y }

/-- A command that a request of the row becomes at entry. -/
theorem entryCtx_command {a' b' : Reg} (hx : s.row? r = some x) (hy : (flushPosted s r).row? r = some y) (i : Instr) (B : Dword)
    (idx : List Nat) (sb : List SbRange) :
    (entryCtx s r x y w d a' b').command ⟨cls, i, (entryCtx s r x y w d a' b').group a, B, idx, sb⟩ =
      issuedCmd (flushPosted s r) r x w cls i a B idx sb := by
  obtain ⟨hregs, hcls⟩ := flushPosted_keeps hx hy
  have hgroup : (entryCtx s r x y w d a' b').group a = (List.range 4).map (fun i => x.sget (a + BitVec.ofNat 5 i)) :=
    List.map_congr_left (fun i _ => Row.sget_congr hregs)
  rw [hgroup]
  simp only [Ctx.command, issuedCmd, entryCtx, Row.clsOf, hcls]
  rfl

/-- An engine instruction without a fence, whose row, destination, queue and scoreboards are ready, enters its command; one
that has failed a check retires at once. -/
theorem engineIssue_ready {make : Ctx → CmdReq × Option Byte} {after : State → Cmd → State} {q : CmdReq} {bad : Option Byte}
    (he : EngineReady s r x y w cls d) (hmake : make (entryCtx s r x y w d a b) = (q, bad))
    (hsb : sbRoom (flushPosted s r) q.sb = true) {k : Cmd} (hk : (entryCtx s r x y w d a b).command q = k) :
    (ctxOf s r x w d a b).engineIssue cls make false after =
      .ok (.done (bad.elim (after (entered (flushPosted s r) r y w d k) k)
        (retireCmd (entered (flushPosted s r) r y w d k) k · 0))) := by
  subst hk
  have hrel : (ctxOf s r x w d a b).release = .ok (entryCtx s r x y w d a b) :=
    release_ready (c := ctxOf s r x w d a b) he.posted he.row he.parity
  have hdst : (ctxOf s r x w d a b).needSDst d = .ok () := needSDst_full he.dest
  have hs : (entryCtx s r x y w d a b).s = flushPosted s r := rfl
  simp only [Ctx.engineIssue, Ctx.needLead, ctxOf_x, ctxOf_band, ctxOf_s, ctxOf_d, he.lead, hdst, he.room, hrel, hmake, hs, hsb,
    if_true, exceptOkBind, Bool.not_true, Bool.false_eq_true, if_false]
  cases bad <;> rfl

theorem needGroup_ready {c : Ctx} {n : Nat} (h : groupReady c.x a n) : c.needGroup a n = .ok () :=
  forM_ok _ _ (fun i hi => needS_ready (h i (List.mem_range.1 hi)) _ _)

end Sys2Proof.Machine
end

section
/-! SUPPORT. The issue of a shuttle command (R149 to R161). -/
namespace Sys2Proof.Machine

variable {s t : State} {r : RowId} {x y : Row} {w : Band} {d a b : Reg} {d3 : Bool} {i : Instr}

/-- The operands of the request of a shuttle instruction, before its ranges are known. -/
def shuttleOperands (i : Instr) (a b : Reg) (d3 : Bool) (c : Ctx) : CmdReq :=
  ⟨.sh, i, c.group a, if d3 then c.x.sget b else 0, [], []⟩

/-- A shuttle instruction has a check and the ranges that it takes where the check passes. -/
def ShuttleChecks (i : Instr) (a b : Reg) (d3 : Bool) (check : State → Cmd → Option Byte) (ranges : State → Cmd → List SbRange) :
    Prop :=
  ∀ c : Ctx, let q := shuttleOperands i a b d3 c
    shuttleRequest i a b d3 c = ({ q with sb := if (check c.s (c.command q)).isSome then [] else ranges c.s (c.command q) },
      check c.s (c.command q))

/-- The command of a shuttle instruction at entry, before its ranges are known. -/
theorem entryCtx_shuttle {b' : Reg} (hx : s.row? r = some x) (hy : (flushPosted s r).row? r = some y) (sb : List SbRange) :
    (entryCtx s r x y w d a b').command { shuttleOperands i a b d3 (entryCtx s r x y w d a b') with sb := sb } =
      issuedCmd (flushPosted s r) r x w .sh i a (if d3 then x.sget b else 0) [] sb := by
  rw [← Row.sget_congr (flushPosted_keeps hx hy).1]
  exact entryCtx_command hx hy i _ [] sb

theorem shuttleRequest_entry {check : State → Cmd → Option Byte} {ranges : State → Cmd → List SbRange} {b' : Reg}
    {o : Option Byte} (hx : s.row? r = some x) (hy : (flushPosted s r).row? r = some y) (hc : ShuttleChecks i a b d3 check ranges)
    (ho : check (flushPosted s r) (issuedCmd (flushPosted s r) r x w .sh i a (if d3 then x.sget b else 0) [] []) = o) :
    shuttleRequest i a b d3 (entryCtx s r x y w d a b') =
      ({ shuttleOperands i a b d3 (entryCtx s r x y w d a b') with
          sb := if o.isSome then [] else ranges (flushPosted s r)
            (issuedCmd (flushPosted s r) r x w .sh i a (if d3 then x.sget b else 0) [] []) }, o) := by
  subst ho
  rw [← entryCtx_shuttle (y := y) (d := d) (b' := b') hx hy []]
  exact hc (entryCtx s r x y w d a b')

/-- A shuttle instruction whose group is ready comes to the issue of its command. -/
theorem issueShuttle_issues {v : State}
    (hi : Issues s r x w accSchd false (fSca d) (fSca a) (if d3 then fSca b else fNone) d a (if d3 then b else 0))
    (hg : groupReady x a 4) (hb : d3 = true → x.scalarReady b)
    (h : (ctxOf s r x w d a (if d3 then b else 0)).engineIssue .sh (shuttleRequest i a b d3) false (fun s _ => s) =
      .ok (.done v)) : issueShuttle s i d a b d3 = .next (completed v r) := by
  have hgroup : (ctxOf s r x w d a (if d3 then b else 0)).needGroup a 4 = .ok () := needGroup_ready hg
  have hready : d3 = true → (ctxOf s r x w d a (if d3 then b else 0)).needS b false 2 = .ok () :=
    fun h3 => needS_ready (hb h3) _ _
  rw [issueShuttle, issue_ready hi, hgroup]
  cases d3 with
  | false => exact congrArg (fun e => applyAct r s x (Act.ofExcept e)) h
  | true =>
    rw [hready rfl]
    exact congrArg (fun e => applyAct r s x (Act.ofExcept e)) h

/-- A shuttle instruction whose operands are ready enters the queue, or retires at once where its check fails. -/
theorem issueShuttle_ready {check : State → Cmd → Option Byte} {ranges : State → Cmd → List SbRange}
    (hi : Issues s r x w accSchd false (fSca d) (fSca a) (if d3 then fSca b else fNone) d a (if d3 then b else 0))
    (he : EngineReady s r x y w .sh d) (hg : groupReady x a 4) (hb : d3 = true → x.scalarReady b)
    (hc : ShuttleChecks i a b d3 check ranges) :
    let t := flushPosted s r
    let B : Dword := if d3 then x.sget b else 0
    let k0 := issuedCmd t r x w .sh i a B [] []
    let k := issuedCmd t r x w .sh i a B [] (ranges t k0)
    (check t k0 = none → sbRoom t (ranges t k0) = true →
      issueShuttle s i d a b d3 = .next (completed (entered t r y w d k) r)) ∧
    (∀ st, check t k0 = some st → sbRoom t [] = true →
      issueShuttle s i d a b d3 = .next (completed (retireCmd (entered t r y w d k0) k0 st 0) r)) := by
  intro t B k0 k
  refine ⟨fun hpass hroom => issueShuttle_issues hi hg hb ?_, fun st hfail hroom => issueShuttle_issues hi hg hb ?_⟩
  · exact engineIssue_ready he (shuttleRequest_entry hi.row he.row hc hpass) hroom (entryCtx_shuttle hi.row he.row _)
  · exact engineIssue_ready he (shuttleRequest_entry hi.row he.row hc hfail) hroom (entryCtx_shuttle hi.row he.row _)

/-! ### The checks and ranges of each command -/

theorem shuttleChecks_shcp (bar : Bool) : ShuttleChecks (.shcp d a b bar d3) a b d3 copyCheck (fun _ k =>
    operandRange k.core true (k.op 0) k.copyDstLen ++ operandRange k.core false (k.op 1) k.copySrcLen) := fun _ => rfl

theorem shuttleChecks_shset (z : BitVec 2) (bar : Bool) : ShuttleChecks (.shset d a b z bar d3) a b d3 copyCheck (fun _ k =>
    operandRange k.core true (k.op 0) k.copyDstLen) := fun _ => rfl

theorem shuttleChecks_shtr_dense (ex bar : Bool) : ShuttleChecks (.shtr d a ex bar false) a 0 false trCheck (fun _ k =>
    operandRange k.core true (k.op 0) k.trDstLen ++ operandRange k.core false (k.op 1) k.trSrcLen) := fun _ => rfl

theorem shuttleChecks_shtr_sparse (ex bar : Bool) : ShuttleChecks (.shtr d a ex bar true) a 0 false spCheck (fun s k =>
    operandRange k.core true (k.op 0) (toWindowEnd s k.launch k.core (k.op 0))
      ++ operandRange k.core false (k.op 1) (toWindowEnd s k.launch k.core (k.op 1))) := fun _ => rfl

end Sys2Proof.Machine
end

section
/-! SUPPORT. The checks of a shuttle command as two conditions, of RANGE and of PERMISSION (R149, R151, R153 to R156). -/
namespace Sys2Proof.Machine

variable {s : State} {k : Cmd}

/-- A check answers RANGE, or else PERMISSION, or none. -/
def Answers (check : Option Byte) (range permission : Prop) : Prop :=
  (range → check = some stRange) ∧ (¬ range → permission → check = some stPermission) ∧
    (¬ range → ¬ permission → check = none)

theorem answers_of_ite {R P range permission : Prop} [Decidable R] [Decidable P] (hr : R ↔ range) (hp : P ↔ permission) :
    Answers (if R then some stRange else if P then some stPermission else none) range permission := by
  rw [← hr, ← hp]
  exact ⟨fun h => if_pos h, fun h g => by rw [if_neg h, if_pos g], fun h g => by rw [if_neg h, if_neg g]⟩

/-- The OR of operands is misaligned where one of them is. -/
theorem or_mod_ne_zero (a b n : Nat) : (a ||| b) % 2 ^ n ≠ 0 ↔ a % 2 ^ n ≠ 0 ∨ b % 2 ^ n ≠ 0 := by
  rw [Nat.or_mod_two_pow, ne_eq, Nat.or_eq_zero_iff, not_and_or]
theorem or_mod_ne_zero_4 (a b : Nat) : (a ||| b) % 4 ≠ 0 ↔ a % 4 ≠ 0 ∨ b % 4 ≠ 0 := or_mod_ne_zero a b 2
theorem or_mod_ne_zero_64 (a b : Nat) : (a ||| b) % 64 ≠ 0 ↔ a % 64 ≠ 0 ∨ b % 64 ≠ 0 := or_mod_ne_zero a b 6

/-- The operands' extents meet: they overlap in one place (R151). -/
theorem extentsMeet_iff (a b : Dword) (n m : Nat) : extentsMeet a n b m = true ↔
    lqaInst a = lqaInst b ∧ lqaOff a < lqaOff b + m ∧ lqaOff b < lqaOff a + n := by
  simp only [extentsMeet, Bool.and_eq_true, beq_iff_eq, decide_eq_true_eq, and_assoc]

theorem copyReserved_iff : k.copyReserved = true ↔ fld (k.op 2) 63 62 ≠ 0 ∨ (k.d3 = false ∧ k.planes ≠ 1) ∨
    (k.isCopy = false ∧ (k.srs ≠ 0 ∨ k.sps ≠ 0)) := by
  simp only [Cmd.copyReserved, Bool.or_eq_true, Bool.and_eq_true, Bool.not_eq_true', bne_iff_ne, or_assoc]

/-- The destination of a copy or a fill fails: its bytes, its alignment, or rows or planes that overlap (R149, R151). -/
def Cmd.CopyDstFails (k : Cmd) : Prop :=
  fld (k.op 2) 63 62 ≠ 0 ∨ (k.d3 = false ∧ k.planes ≠ 1) ∨ 2 ^ 24 < k.bytes * k.copyRows * k.planes ∨
    (∃ v ∈ [(k.op 0).toNat, k.bytes, k.drs, k.dps], v % 4 ≠ 0) ∨ (1 < k.copyRows ∧ k.drs < k.bytes) ∨
    (1 < k.planes ∧ k.dps < (k.copyRows - 1) * k.drs + k.bytes)

/-- The checks of SHCP. -/
theorem copyCheck_of_isCopy (h : k.isCopy = true) : Answers (copyCheck s k)
    (k.CopyDstFails ∨ (∃ v ∈ [(k.op 1).toNat, k.srs, k.sps], v % 4 ≠ 0) ∨
      extentsMeet (resolveTag k.core (k.op 0)) k.copyDstLen (resolveTag k.core (k.op 1)) k.copySrcLen = true)
    (outsideWindow s k.core k.launch (k.op 0) k.copyDstLen = true ∨
      outsideWindow s k.core k.launch (k.op 1) k.copySrcLen = true) := by
  unfold copyCheck
  simp only [← ite_or]
  refine answers_of_ite ?_ ?_
  · simp only [copyReserved_iff, Cmd.CopyDstFails, h, or_mod_ne_zero_4, List.exists_mem_cons_iff, List.not_mem_nil, false_and,
      exists_false, Bool.or_eq_true, Bool.and_eq_true, decide_eq_true_eq, Bool.not_true, Bool.false_eq_true, Bool.true_eq_false, if_true,
      or_false]
    exact iff_of_eq (by ac_rfl)
  · simp only [h, Bool.or_eq_true, Bool.true_and]

/-- The checks of SHSET. -/
theorem copyCheck_of_not_isCopy (h : k.isCopy = false) : Answers (copyCheck s k)
    (k.CopyDstFails ∨ k.srs ≠ 0 ∨ k.sps ≠ 0 ∨ k.bytes % k.pattern.length ≠ 0)
    (outsideWindow s k.core k.launch (k.op 0) k.copyDstLen = true) := by
  unfold copyCheck
  simp only [← ite_or]
  refine answers_of_ite ?_ ?_
  · simp only [copyReserved_iff, Cmd.CopyDstFails, h, or_mod_ne_zero_4, List.exists_mem_cons_iff, List.not_mem_nil, false_and,
      exists_false, Bool.or_eq_true, Bool.and_eq_true, decide_eq_true_eq, Bool.not_false, Bool.false_eq_true, if_false,
      or_false, true_and, Nat.or_zero]
    exact iff_of_eq (by ac_rfl)
  · simp only [h, Bool.or_eq_true, Bool.false_and, Bool.false_eq_true, or_false]

theorem trCheck_answers : Answers (trCheck s k)
    (fld (k.op 2) 63 62 ≠ 0 ∨ fld (k.op 2) 55 34 ≠ 0 ∨ 2 ^ 24 < k.trRows * k.trCols * k.trElt ∨
      (∃ v ∈ [(k.op 0).toNat, (k.op 1).toNat, k.drs, k.srs], v % k.trElt ≠ 0) ∨ (1 < k.trCols ∧ k.drs < k.trRows * k.trElt) ∨
      extentsMeet (resolveTag k.core (k.op 0)) k.trDstLen (resolveTag k.core (k.op 1)) k.trSrcLen = true)
    (outsideWindow s k.core k.launch (k.op 0) k.trDstLen = true ∨
      outsideWindow s k.core k.launch (k.op 1) k.trSrcLen = true) := by
  have halign : ∀ m n : Nat, (m ||| n) % k.trElt ≠ 0 ↔ m % k.trElt ≠ 0 ∨ n % k.trElt ≠ 0 := fun m n => or_mod_ne_zero m n _
  unfold trCheck
  simp only [← ite_or]
  refine answers_of_ite ?_ ?_
  · simp only [halign, List.exists_mem_cons_iff, List.not_mem_nil, false_and, exists_false, Bool.or_eq_true,
      Bool.and_eq_true, decide_eq_true_eq, or_false, or_assoc]
  · simp only [Bool.or_eq_true]

theorem spCheck_answers : Answers (spCheck s k)
    (fld (k.op 2) 63 62 ≠ 0 ∨ fld (k.op 2) 55 0 ≠ 0 ∨ k.srs ≠ 0 ∨ ∃ v ∈ [(k.op 0).toNat, (k.op 1).toNat], v % 64 ≠ 0)
    (outsideWindow s k.core k.launch (k.op 0) 1 = true ∨ outsideWindow s k.core k.launch (k.op 1) 1 = true) := by
  have hlow : fld (k.op 2) 55 0 = (k.op 2).toNat % 2 ^ 56 := by simp only [fld, pow_zero, Nat.div_one]
  unfold spCheck
  simp only [← ite_or]
  refine answers_of_ite ?_ ?_
  · simp only [hlow, or_mod_ne_zero_64, List.exists_mem_cons_iff, List.not_mem_nil, false_and, exists_false, Bool.or_eq_true,
      decide_eq_true_eq, or_false]
    exact iff_of_eq (by ac_rfl)
  · simp only [Bool.or_eq_true]

end Sys2Proof.Machine
end

section
/-! PROOF. The statement about the issue of a shuttle command. -/
open Sys2Proof Sys2Proof.Machine
namespace Sys2Proof.Proofs

/-- Settles O20: a shuttle command whose operands are ready enters the queue with its ranges, or retires at once with the
status of its check; each check is a chain of conditions of RANGE before one of PERMISSION. -/
theorem shuttleIssue : Obligations.ShuttleIssue := by
  refine ⟨?entry, ?checks⟩
  case entry =>
    intro s t r x y w d a b bar d3 ex z ht he hg g issues copyRanges fillRanges
    subst ht
    refine ⟨fun hi hb => ⟨issueShuttle_ready hi he hg hb (shuttleChecks_shcp bar),
      issueShuttle_ready hi he hg hb (shuttleChecks_shset z bar)⟩, fun hi => ⟨?_, ?_⟩⟩
    · exact issueShuttle_ready (b := 0) (d3 := false) hi he hg nofun (shuttleChecks_shtr_dense ex bar)
    · exact issueShuttle_ready (b := 0) (d3 := false) hi he hg nofun (shuttleChecks_shtr_sparse ex bar)
  case checks =>
    intro s k d a b bar d3 ex z answers dst src meet out odd A S O drs srs dps sps P R B dlen slen common e r c
    refine ⟨fun hi => ?_, fun hi => ?_, fun hi hrow => ?_, fun _ => spCheck_answers⟩
    · have h := copyCheck_of_isCopy (s := s) (k := k) (by rw [Cmd.isCopy, hi])
      simp only [extentsMeet_iff, Cmd.CopyDstFails, Cmd.copyDstLen, Cmd.copySrcLen, Cmd.dps, Cmd.sps, Cmd.d3, hi] at h
      exact h
    · have h := copyCheck_of_not_isCopy (s := s) (k := k) (by rw [Cmd.isCopy, hi])
      simp only [Cmd.CopyDstFails, Cmd.copyDstLen, Cmd.dps, Cmd.sps, Cmd.d3, Cmd.pattern, leBytes_length, hi] at h
      exact h
    · obtain ⟨q, hq⟩ := hrow
      have h := trCheck_answers (s := s) (k := k)
      simp only [extentsMeet_iff, Cmd.trDstLen, Cmd.trSrcLen, Cmd.trRows, Cmd.trCols, hq] at h
      exact h

end Sys2Proof.Proofs
end

section
/-! SUPPORT. What SEAL, WAIT and WSTAT check before they act (R40, R164 to R166, R385). -/
namespace Sys2Proof.Machine

variable {s : State} {r : RowId} {x : Row} {w : Band} {d a b : Reg} {k : BClass} {n : Nat}

/-- A pending scalar register is the destination of a producer. -/
theorem pendingScalars_elim {l : List Producer} (h : (pendingScalars l).getLsbD d.toNat = true) :
    ∃ q ∈ l, ∃ v, q.dest = .sca d v := by
  induction l with
  | nil => simp [pendingScalars] at h
  | cons p l ih =>
    cases hp : p.dest with
    | vec e L u =>
      simp only [pendingScalars, hp] at h
      obtain ⟨q, hq, hd⟩ := ih h
      exact ⟨q, List.mem_cons_of_mem _ hq, hd⟩
    | sca e v =>
      simp only [pendingScalars, hp, BitVec.getLsbD_or, Bool.or_eq_true] at h
      rcases h with h | h
      · have he : e = d := by
          simp only [BitVec.getLsbD_shiftLeft, BitVec.getLsbD_one, Bool.and_eq_true, decide_eq_true_eq, Bool.not_eq_true',
            decide_eq_false_iff_not, not_lt] at h
          exact BitVec.eq_of_toNat_eq (by omega)
        exact ⟨p, List.mem_cons_self, v, he ▸ hp⟩
      · obtain ⟨q, hq, hd⟩ := ih h
        exact ⟨q, List.mem_cons_of_mem _ hq, hd⟩

/-- A WAIT does not wait for its destination where every producer of it leaves it full. -/
theorem needWaitDst_ready {c : Ctx} (h : ∀ q ∈ c.x.prods, ∀ v, q.dest = .sca d v → c.x.sFull d = true) :
    c.needWaitDst d = .ok () := by
  unfold Ctx.needWaitDst
  split
  · next hp =>
    obtain ⟨q, hq, v, hv⟩ := pendingScalars_elim hp
    exact needSDst_full (h q hq v hv)
  · rfl

/-- WAIT goes on waiting exactly where too many batches are outstanding, or its class is MX and a pace change is pending. -/
theorem waitsOn_eq_false_iff : (ctxOf s r x w d a b).waitsOn k n = false ↔
    (x.clsOf k).outstanding ≤ n ∧ (k = .mx → paceBusy s (clusterOf r.core) = false) := by
  simp [Ctx.waitsOn, Ctx.cluster]

/-- A WAIT whose row no earlier instruction disturbs tests its condition. -/
theorem execWait_ready {m : BitVec 4} (hi : Issues s r x w accSchd false (fSca d) fNone fNone d 0 0) (hu : Undisturbed x)
    (hq : k = .mx → StreamQuiet x) (hd : ∀ q ∈ x.prods, ∀ v, q.dest = .sca d v → x.sFull d = true) :
    execWait d k m s = applyAct r s x (if (ctxOf s r x w d 0 0).waitsOn k m.toNat
      then .hold (s.setRow r (x.markS d false)) 8 (classDom k) else (ctxOf s r x w d 0 0).finishWait k) := by
  have hdst : (ctxOf s r x w d 0 0).needWaitDst d = .ok () := needWaitDst_ready hd
  have hdue : ∀ e, k = .mx → (ctxOf s r x w d 0 0).streamDue e = e := fun e hk => streamDue_quiet (hq hk) e
  rw [execWait, issue_ready hi, deliver_undisturbed (c := ctxOf s r x w d 0 0) hu, ite_eq_right_iff.2 (hdue _), ctxOf_d, hdst]
  simp only [exceptOkBind, ctxOf_s, ctxOf_r, ctxOf_x]
  split <;> rfl

end Sys2Proof.Machine
end

section
/-! PROOF. The statement about SEAL, WAIT and WSTAT. -/
open Sys2Proof Sys2Proof.Machine
namespace Sys2Proof.Proofs

/-- Settles O23: each of the three acts once its destination is ready; WAIT tests the outstanding batches and the pace change. -/
theorem batchResult : Obligations.BatchResult := by
  intro s r x w d a c n ad k
  refine ⟨fun hi => ⟨?seals, ?full, ?waits⟩, ?record⟩
  case seals =>
    intro hd hk
    have hfree : ¬ 8 ≤ (x.clsOf c).outstanding := Nat.not_le.2 hk
    simp [execSeal, issue_ready hi, needSDst_full, hd, hfree, k, dw]
  case full =>
    intro hd (hk : 8 ≤ (x.clsOf c).outstanding)
    simp [execSeal, issue_ready hi, needSDst_full, hd, hk]
  case waits =>
    intro hu hq hd free
    rw [exec_wait, execWait_ready hi hu hq hd]
    constructor
    · intro hf
      rw [waitsOn_eq_false_iff.2 hf]
      simp [Ctx.finishWait, k]
    · intro hf
      rw [Bool.eq_true_of_not_eq_false (mt waitsOn_eq_false_iff.1 hf)]
      rfl
  case record =>
    intro hi ha hd
    simp [execWstat, issue_ready hi, needS_ready, needSDst_full, ha, hd, k]

end Sys2Proof.Proofs
end

section
/-! SUPPORT. Rows and bands after an update of all rows, of one band, and after a row is leased. -/
namespace Sys2Proof.Machine

variable {s : State} {r : RowId} {x : Row} {w : Band}

theorem findRow_map (f : RowId → Row → Row) (l : List (RowId × Row)) :
    findRow (l.map (fun p => (p.1, f p.1 p.2))) r = (findRow l r).map (f r) := by
  induction l with
  | nil => rfl
  | cons p l ih =>
    by_cases h : p.1 = r
    · simp [findRow, h]
    · simp [findRow, h, ih]

theorem findRow_append_new {l : List (RowId × Row)} (h : findRow l r = none) : findRow (l ++ [(r, x)]) r = some x := by
  induction l with
  | nil => simp [findRow]
  | cons p l ih =>
    by_cases hp : p.1 = r
    · simp [findRow, hp] at h
    · simp only [findRow, hp, if_false] at h
      simp only [List.cons_append, findRow, hp, if_false, ih h]

theorem row?_mapRows (f : RowId → Row → Row) : (s.mapRows f).row? r = (s.row? r).map (f r) := findRow_map f s.rows

@[simp] theorem row?_modBand (n : Nat) (f : Band → Band) : (s.modBand n f).row? r = s.row? r := rfl

theorem band?_id {n : Nat} (h : s.band? n = some w) : w.id = n := by simpa using List.find?_some h

/-- The band of a number that has been changed is what the change made of a band. -/
theorem band?_modBand_elim {n : Nat} {f : Band → Band} (h : (s.modBand n f).band? n = some w) : ∃ k, w = f k := by
  obtain ⟨k, -, hk⟩ := List.mem_map.1 (List.mem_of_find?_eq_some h)
  have hw : w.id = n := band?_id h
  split at hk
  · exact ⟨k, hk.symm⟩
  · next hne => exact absurd (hk ▸ hw) hne

end Sys2Proof.Machine
end

section
/-! SUPPORT. The retirement of a staging command (R143, R144). -/
namespace Sys2Proof.Machine

variable {s : State} {k : Cmd} {b : Band} {l : Launch} {i bd : Nat} {r : RowId} {x : Row}

/-- A staging command that has done all its lines, of a launch that goes on, fails or is followed by the next region. -/
theorem exec_stagingRegionRetire_due (hk : stagingOf s bd = some (k, i)) (hb : s.band? bd = some b) (hout : k.stagedOut = true)
    (hl : s.launch? b.launch = some l) (he : l.ended = false) (hkill : b.killed = false) :
    exec (.stagingRegionRetire bd) s = .next (if k.outcome.1 = 0 then stageNext (s.dropCmd k) l b (i + 1)
      else stageFail (s.dropCmd k) l b i k.outcome.1) := by
  rw [exec_stagingRegionRetire, execStagingRegionRetire, hk, hb]
  simp only [hout, hl, he, hkill, Bool.not_true, Bool.or_self, Bool.false_eq_true, if_false]
  split
  · next hfail => exact congrArg Host.Outcome.next (if_neg hfail).symm
  · next hok => exact congrArg Host.Outcome.next (if_pos (not_not.1 hok)).symm

theorem stageNext_region (h : i < l.nreg) : stageNext s l b i =
    ({ s with cmds := s.cmds ++ [stageCmd s l b i] } : State).bump.modBand b.id (fun b => { b with region := i }) := if_pos h

/-- A row of a band whose regions are all staged runs, and reads the grants in force. -/
def Row.staged (s : State) (r : RowId) (x : Row) : Row :=
  { x with
    status := .running
    csr := { x.csr with paceg := pacegWord s r.core, paceev := 0 }
    ctl := { x.ctl with hnDue := 0 } }

theorem stageNext_last (h : l.nreg ≤ i) : stageNext s l b i =
    (s.mapRows (fun r x => if x.band = b.id then x.staged s r else x)).modBand b.id
      (fun b => { b with region := i, staged := true }) := if_neg (Nat.not_lt.2 h)

theorem stageNext_last_row (h : l.nreg ≤ i) (hx : s.row? r = some x) :
    (stageNext s l b i).row? r = some (if x.band = b.id then x.staged s r else x) := by
  rw [stageNext_last h, row?_modBand, row?_mapRows, hx, Option.map_some]

end Sys2Proof.Machine
end

section
/-! SUPPORT. What an update of an event slot leaves as it was (R111, R128, R278). -/
namespace Sys2Proof.Machine

variable {s t u : State} {q : Requester}

/-- Two states that differ at most in memory, the errors of its lines and words, what walks cache and what links count. -/
def AccessFrame (s t : State) : Prop :=
  ∃ m notes bad weak words chans tables tcache treadle, t = { s with
    mem := m, notes := notes, badLines := bad, weakLines := weak, badWords := words, chans := chans, tables := tables
    tcache := tcache, treadle := treadle }

theorem AccessFrame.refl : AccessFrame s s := ⟨_, _, _, _, _, _, _, _, _, rfl⟩

theorem AccessFrame.trans (h : AccessFrame s t) (g : AccessFrame t u) : AccessFrame s u := by
  obtain ⟨_, _, _, _, _, _, _, _, _, rfl⟩ := h
  obtain ⟨_, _, _, _, _, _, _, _, _, rfl⟩ := g
  exact ⟨_, _, _, _, _, _, _, _, _, rfl⟩

theorem AccessFrame.foldl {α : Type} {f : State → α → State} (hf : ∀ t a, AccessFrame t (f t a)) (l : List α) :
    AccessFrame s (l.foldl f s) := List.foldlRecOn l f .refl (fun t h a _ => h.trans (hf t a))

theorem AccessFrame.clusters (h : AccessFrame s t) : t.clusters = s.clusters := by
  obtain ⟨_, _, _, _, _, _, _, _, _, rfl⟩ := h
  rfl

theorem noteLineRead_access (pa : Nat) : AccessFrame s (noteLineRead s pa) := by
  obtain ⟨_, _, h⟩ := noteLineRead_frame (s := s) pa
  exact ⟨_, _, _, _, _, _, _, _, _, h⟩

theorem noteRead_access (p : Place) : AccessFrame s (noteRead s p) := by
  cases p with
  | hbm pa => exact noteLineRead_access pa
  | scratch => exact .refl
  | host => exact ⟨_, _, _, _, _, _, _, _, _, rfl⟩

theorem noteReads_access (kind : Kind) (a : Dword) (n : Nat) : AccessFrame s (noteReads s q kind a n) := by
  refine .foldl (fun t p => ?_) _
  split
  · exact noteRead_access _
  · exact .refl

theorem countWalk_access (who : Option DieId) (asid : BitVec 6) (va : Nat) (l : List (Nat × Nat × Dword)) :
    AccessFrame s (countWalk s who asid va l) := by
  refine .foldl (fun t p => ?_) _
  split
  · exact .refl
  · exact noteLineRead_access _

theorem walkInto_access (who : Option DieId) (link : Bool) (cs : List CacheId) (asid : BitVec 6) (va : Nat)
    (allows : Dword → Bool) : AccessFrame s (walkInto s who link cs asid va allows) := by
  unfold walkInto
  simp only []
  split
  · exact countWalk_access _ _ _ _
  · split
    · exact countWalk_access _ _ _ _
    · exact (countWalk_access _ _ _ _).trans ⟨_, _, _, _, _, _, _, _, _, rfl⟩

theorem walked_access (kind : Kind) (a : Dword) (n : Nat) : AccessFrame s (walked s q kind a n) := by
  refine .foldl (fun t p => ?_) _
  split
  · exact .refl
  · exact walkInto_access _ _ _ _ _ _

theorem placeWrite_access (p : Place) (bs : List Byte) : AccessFrame s (placeWrite s p bs) := by
  have written : AccessFrame s { s with
      mem := memWrite s.mem p.key bs, notes := forgetNotes s.notes p.key bs.length } := ⟨_, _, _, _, _, _, _, _, _, rfl⟩
  cases p with
  | hbm pa =>
    simp only [placeWrite]
    split
    · exact ⟨_, _, _, _, _, _, _, _, _, rfl⟩
    · exact written.trans (noteLineRead_access pa)
  | scratch => exact ⟨_, _, _, _, _, _, _, _, _, rfl⟩
  | host => exact ⟨_, _, _, _, _, _, _, _, _, rfl⟩

theorem updateAddr_access (a : Dword) (n : Nat) (f : Nat → List Byte → List Byte) : AccessFrame s (updateAddr s q a n f).1 := by
  unfold updateAddr
  simp only []
  split
  · split
    · exact walked_access _ _ _
    · exact (walked_access _ _ _).trans (noteReads_access _ _ _)
  · exact ((walked_access _ _ _).trans (noteReads_access _ _ _)).trans (.foldl (fun _ _ => placeWrite_access _ _) _)

/-- An event slot that is added to. -/
theorem updateSlot_add_access (a v : Dword) : AccessFrame s (updateSlot s q a v false).1 := by
  unfold updateSlot
  split
  · exact .refl
  · rw [if_neg Bool.false_ne_true]
    have h := updateAddr_access (s := s) (q := q) a 8 (fun _ bs => leBytes 8 ((leNat bs + v.toNat) % 2 ^ 64))
    split <;> next heq => rw [heq] at h; exact h

end Sys2Proof.Machine
end

section
/-! SUPPORT. The slots of a launch that has completed (R371). -/
namespace Sys2Proof.Machine

variable {s t : State} {l : Nat} {p q : Fin 64 × Fin 64}

/-- A slot by the numbers of its cluster and of itself. -/
def State.slotAt (s : State) (p : Fin 64 × Fin 64) : Slot := (s.clusters[p.1]).slots[p.2]

theorem slotOf_eq_slotAt (r : RowId) (n : BitVec 6) : slotOf s r n = s.slotAt ((clusterOf r.core).toFin, n.toFin) := rfl

/-- A slot that a launch owned has a new generation and no owner. -/
def Slot.disowned (k : Slot) (l : Nat) : Slot := if k.owner = some l then { k with owner := none, gen := k.gen + 1 } else k

theorem Slot.disowned_disowned (k : Slot) : (k.disowned l).disowned l = k.disowned l := by
  by_cases h : k.owner = some l <;> simp [Slot.disowned, h]

/-- A slot that a launch owned is given up. -/
def disownSlot (l : Nat) (s : State) (p : Fin 64 × Fin 64) : State :=
  if (s.slotAt p).owner = some l
  then slotChanged (s.modSlot (BitVec.ofFin p.1) (BitVec.ofFin p.2) (fun k => { k with owner := none, gen := k.gen + 1 }))
    (BitVec.ofFin p.1) (BitVec.ofFin p.2)
  else s

/-- The slots of the package, in the order in which a launch gives them up. -/
def allSlots : List (Fin 64 × Fin 64) := (List.finRange 64).flatMap (fun c => (List.finRange 64).map (fun i => (c, i)))

theorem mem_allSlots : p ∈ allSlots := by simp [allSlots]

theorem ownerDone_eq : ownerDone s l = allSlots.foldl (disownSlot l) s := by
  simp only [allSlots, List.foldl_flatMap, List.foldl_map]
  rfl

theorem staleDropped_slotAt (f : Cluster → List (Nat × BitVec 16)) :
    State.slotAt { s with clusters := s.clusters.map (fun c => { c with stale := f c }) } p = s.slotAt p := by
  simp [State.slotAt]

theorem modSlot_slotAt (f : Slot → Slot) : (s.modSlot (BitVec.ofFin p.1) (BitVec.ofFin p.2) f).slotAt q =
    if q = p then f (s.slotAt p) else s.slotAt q := by
  obtain ⟨c, i⟩ := p
  obtain ⟨d, j⟩ := q
  by_cases hd : d = c
  · subst hd
    by_cases hj : j = i
    · subst hj
      simp [State.slotAt, State.modSlot, State.modCluster, State.cluster]
    · have hne : ¬ i.val = j.val := fun h => hj (Fin.ext h.symm)
      simp [State.slotAt, State.modSlot, State.modCluster, State.cluster, hj, hne]
  · have hne : ¬ c.val = d.val := fun h => hd (Fin.ext h.symm)
    simp [State.slotAt, State.modSlot, State.modCluster, State.cluster, hd, hne]

theorem disownSlot_slotAt : (disownSlot l s p).slotAt q = if q = p then (s.slotAt q).disowned l else s.slotAt q := by
  unfold disownSlot
  split
  · next h =>
    refine (modSlot_slotAt (fun k : Slot => { k with owner := none, gen := k.gen + 1 })).trans ?_
    split
    · next hq => rw [hq, Slot.disowned, if_pos h]
    · rfl
  · next h =>
    split
    · next hq => rw [hq, Slot.disowned, if_neg h]
    · rfl

theorem foldl_disownSlot_slotAt (ps : List (Fin 64 × Fin 64)) :
    (ps.foldl (disownSlot l) s).slotAt q = if q ∈ ps then (s.slotAt q).disowned l else s.slotAt q := by
  induction ps generalizing s with
  | nil => simp
  | cons p ps ih =>
    rw [List.foldl_cons, ih, disownSlot_slotAt]
    by_cases hp : q = p <;> by_cases hq : q ∈ ps <;> simp [hp, hq, Slot.disowned_disowned]

theorem ownerDone_slotAt : (ownerDone s l).slotAt q = (s.slotAt q).disowned l := by
  rw [ownerDone_eq, foldl_disownSlot_slotAt, if_pos mem_allSlots]

/-- Slots given up change rows, continuations and clusters, nothing else. -/
theorem ownerDone_frame : ∃ rows conts clusters,
    ownerDone s l = { s with rows := rows, conts := conts, clusters := clusters } := by
  rw [ownerDone_eq]
  refine List.foldlRecOn allSlots _ (motive := fun t : State => ∃ rows conts clusters,
    t = { s with rows := rows, conts := conts, clusters := clusters }) ⟨_, _, _, rfl⟩ ?_
  rintro _ ⟨_, _, _, rfl⟩ p -
  unfold disownSlot
  split <;> exact ⟨_, _, _, rfl⟩

end Sys2Proof.Machine
end

section
/-! SUPPORT. The completion of a launch (R356, R371). -/
namespace Sys2Proof.Machine

variable {s : State} {l : Launch}

theorem recordError_frame (q : BitVec 4) (st : Byte) (src region entry : Nat) (wid : Dword) : ∃ d m,
    recordError s q st src region entry wid = { s with dist := d, mgmt := m } := by
  unfold recordError
  simp only []
  split <;> exact ⟨_, _, rfl⟩

theorem launchSignal_silent (h : l.ended = true ∨ l.dw 18 = 0) : launchSignal s l = s := by
  rw [launchSignal, if_pos (by simpa using h)]

/-- A signal is one update of the event slot; where it fails, the failure is recorded. -/
theorem launchSignal_makes (h : ¬ (l.ended = true ∨ l.dw 18 = 0)) : ∃ d m, launchSignal s l =
    { (updateSlot s (distRequester s l.asid) (l.dw 18) (l.dw 19) false).1 with dist := d, mgmt := m } := by
  rw [launchSignal, if_neg (by simpa using h)]
  simp only []
  split
  · exact ⟨_, _, rfl⟩
  · exact recordError_frame _ _ _ _ _ _

theorem launchSignal_clusters : (launchSignal s l).clusters = s.clusters := by
  by_cases h : l.ended = true ∨ l.dw 18 = 0
  · rw [launchSignal_silent h]
  · obtain ⟨_, _, hmade⟩ := launchSignal_makes (s := s) h
    rw [hmade]
    exact (updateSlot_add_access _ _).clusters

theorem launchSignal_mem : (launchSignal s l).mem = if l.ended = true ∨ l.dw 18 = 0 then s.mem
    else (updateSlot s (distRequester s l.asid) (l.dw 18) (l.dw 19) false).1.mem := by
  split
  · next h => rw [launchSignal_silent h]
  · next h =>
    obtain ⟨_, _, hmade⟩ := launchSignal_makes (s := s) h
    rw [hmade]

theorem sweepBands_busy (h : ∀ w ∈ s.bands, w.busy s = true) : sweepBands s = s := by
  unfold sweepBands
  rw [List.filter_eq_self.2 h]

/-- A launch has nothing left to do when all its skeins are placed and nothing of it is left. -/
theorem launchDone_of (hb : ∀ w ∈ s.bands, w.launch ≠ l.id) (hp : l.ended = true ∨ l.skeins ≤ l.nextSkein)
    (hk : ∀ c ∈ s.cmds, c.launch ≠ l.id) (hc : ∀ c ∈ s.conts, c.launch ≠ l.id) : launchDone s l = true := by
  simpa [launchDone, State.bandsOf, hp, List.filter_eq_nil_iff] using ⟨⟨hb, hk⟩, hc⟩

/-- The state after a launch has made its signal, without the launch and with its slots given up. -/
def launchGone (s : State) (l : Launch) : State :=
  let t := ownerDone { launchSignal s l with launches := (launchSignal s l).launches.filter (fun j => j.id != l.id) } l.id
  { t with clusters := t.clusters.map (fun c => { c with stale := c.stale.filter (fun p => p.1 != l.id) }) }

theorem exec_launchComplete_done (hl : s.launch? l.id = some l) (hsweep : sweepBands s = s) (hdone : launchDone s l = true)
    (hheld : l.ended = false → l.dw 18 ≠ 0 → slotHeld s (distRequester s l.asid) (l.dw 18) false = false) :
    exec (.launchComplete l.id) s = .next (launchGone s l) := by
  have hfree : (!l.ended && l.dw 18 != 0 && slotHeld s (distRequester s l.asid) (l.dw 18) false) = false := by
    simpa using hheld
  rw [exec_launchComplete, execLaunchComplete]
  simp only [hsweep, hl, hdone, hfree, Bool.not_true, Bool.or_self, Bool.false_eq_true, if_false]
  rfl

theorem launchGone_launch : (launchGone s l).launch? l.id = none := by
  obtain ⟨_, _, _, h⟩ := ownerDone_frame (l := l.id)
    (s := { launchSignal s l with launches := (launchSignal s l).launches.filter (fun j => j.id != l.id) })
  simp only [launchGone, h, State.launch?]
  simp

theorem launchGone_mem : (launchGone s l).mem = (launchSignal s l).mem := by
  obtain ⟨_, _, _, h⟩ := ownerDone_frame (l := l.id)
    (s := { launchSignal s l with launches := (launchSignal s l).launches.filter (fun j => j.id != l.id) })
  simp only [launchGone, h]

theorem launchGone_slotOf (r : RowId) (n : BitVec 6) : slotOf (launchGone s l) r n = (slotOf s r n).disowned l.id := by
  simp only [slotOf_eq_slotAt]
  generalize ((clusterOf r.core).toFin, n.toFin) = p
  rw [launchGone, staleDropped_slotAt, ownerDone_slotAt]
  simp only [State.slotAt, launchSignal_clusters]

end Sys2Proof.Machine
end

section
/-! SUPPORT. The start of a continuation (R367). -/
namespace Sys2Proof.Machine

variable {s : State} {l : Launch} {b : Band} {c : Continuation} {r : RowId}

/-- The scalar registers of a continuation. -/
def Continuation.sregs (c : Continuation) : Vector Dword 32 :=
  Vector.ofFn (fun i : Fin 32 => if i.val = 0 ∨ 15 < i.val then 0 else c.s[i.val])

/-- The row of a continuation. -/
def contRow (s : State) (l : Launch) (c : Continuation) (r : RowId) : Row :=
  let x := startRow s l s.nextId r 0 c.laneW c.pc c.wid c.sregs ⟨true, none, 8⟩ .running
  { x with csr := { x.csr with blast := c.last } }

theorem startCont_row (h : s.row? r = none) : (startCont s l b c r).row? r = some (contRow s l c r) :=
  findRow_append_new h

theorem exec_continuationStart_placed {n : Nat} (hc : s.conts.find? (fun e => e.id == c.id) = some c)
    (hplace : contPlace s c = some (r, n)) (hl : s.launch? c.launch = some l) (hb : s.band? c.band = some b)
    (hpace : paceBusy s (clusterOf c.core) = false) : exec (.continuationStart c.id) s = .next (startCont s l b c r) := by
  simp [execContinuationStart, hc, hplace, hl, hb, hpace]

theorem contRow_sget (j : Reg) : (contRow s l c r).sget j =
    if j.toNat = 0 ∨ 15 < j.toNat then 0 else c.s[j.toNat] := by
  have hregs : (contRow s l c r).regs.s = c.sregs := rfl
  rw [Row.sget, hregs, Continuation.sregs, Vector.getElem_ofFn]
  by_cases h : j = 0
  · simp [h]
  · rw [if_neg h]

end Sys2Proof.Machine
end

section
/-! SUPPORT. The request of a pre-emption (R416, R417, R419). -/
namespace Sys2Proof.Machine

variable {s : State} {b w : Band} {r : RowId} {x : Row}

theorem leaveWait_frame : ∃ f, x.leaveWait = { x with regs := { x.regs with sfull := f } } := by
  unfold Row.leaveWait
  split
  · split <;> exact ⟨_, rfl⟩
  · exact ⟨_, rfl⟩

theorem abandonHandler_frame (n : Nat) (g : CoreId) : ∃ c, abandonHandler s n g = { s with cores := c } := by
  unfold abandonHandler
  split
  · split
    · split <;> exact ⟨_, rfl⟩
    · exact ⟨_, rfl⟩
  · exact ⟨_, rfl⟩

/-- A band that stops abandons a handler of its rows, stops them, and is marked. -/
theorem stopBand_frame : ∃ c, stopBand s b =
    ({ s with cores := c }.mapRows (fun r x => if x.band = b.id then stopRow s r.core x else x)).modBand b.id
      (fun k => { k with preempt := some .requested }) := by
  obtain ⟨c, h⟩ := abandonHandler_frame (s := s) b.id b.core
  exact ⟨c, by rw [stopBand, h]; rfl⟩

theorem stopBand_row (hx : s.row? r = some x) :
    (stopBand s b).row? r = some (if x.band = b.id then stopRow s r.core x else x) := by
  obtain ⟨c, h⟩ := stopBand_frame (s := s) (b := b)
  have hxc : State.row? { s with cores := c } r = some x := hx
  rw [h, row?_modBand, row?_mapRows, hxc, Option.map_some]

theorem stopBand_mem : (stopBand s b).mem = s.mem := by
  obtain ⟨c, h⟩ := stopBand_frame (s := s) (b := b)
  rw [h]
  rfl

theorem stopBand_preempt (h : (stopBand s b).band? b.id = some w) : w.preempt = some .requested := by
  obtain ⟨c, hf⟩ := stopBand_frame (s := s) (b := b)
  rw [hf] at h
  obtain ⟨k, rfl⟩ := band?_modBand_elim h
  rfl

/-- The request for a band in no chain, none of whose rows holds a PARITY trap. -/
theorem requestPreempt_alone (hp : parityRow s (unitOf s b) = none) (hc : b.chain = none) :
    requestPreempt s b = stopBand s b := by
  have hu : unitOf s b = [b] := by simp [unitOf, hc]
  simp only [requestPreempt, hp]
  rw [hu, List.foldl_cons, List.foldl_nil]

theorem requestPreempt_parity (hp : parityRow s (unitOf s b) = some r) : requestPreempt s b = defaultAction s r := by
  simp only [requestPreempt, hp]

/-- A row that stops waits for nothing and is at its PC with its registers; at a barrier it keeps its token only. -/
theorem stopRow_stops {g : CoreId} : (stopRow s g x).ctl.wait = none ∧ (stopRow s g x).ctl.lnch = none ∧
    (stopRow s g x).pc = x.pc ∧ (stopRow s g x).regs.s = x.regs.s ∧ (stopRow s g x).regs.v = x.regs.v ∧
    (stopRow s g x).regs.m = x.regs.m ∧ (stopRow s g x).mx = x.mx ∧ (stopRow s g x).csr.paceg = pacegWord s g ∧
    ∀ v, x.ctl.barrier = some v → v.gbar = false → (stopRow s g x).ctl.barrier = some { v with result := none } := by
  obtain ⟨f, h⟩ := leaveWait_frame (x := x)
  rw [stopRow, h]
  refine ⟨rfl, rfl, rfl, rfl, rfl, rfl, rfl, rfl, fun v hv hg => ?_⟩
  simp only [Row.seePace, hv, Option.map_some, hg, Bool.false_eq_true, if_false]

theorem exec_preemptRequest_can {n : Nat} (hb : s.band? n = some b) (hc : canPreempt s b = true) :
    exec (.preemptRequest n) s = .next (requestPreempt s b) := by
  simp [execPreemptRequest, hb, hc]

end Sys2Proof.Machine
end

section
/-! PROOF. The statement about staging, completion, continuations and pre-emption of a launch. -/
open Sys2Proof Sys2Proof.Machine
namespace Sys2Proof.Proofs

/-- Settles O51: each event, once due, is one update of the state, of which rows, slots and memory are read off. -/
theorem launchLife : Obligations.LaunchLife := by
  intro s bd k i b l
  refine ⟨?staging, ?completion, ?continuation, ?preemption⟩
  case staging =>
    intro hk hb hid hout hl he hkill t
    subst hid
    rw [exec_stagingRegionRetire_due hk hb hout hl he hkill]
    refine ⟨fun hfail => by rw [if_neg hfail]; rfl, fun hok hmore => ?_, fun hok hlast => ?_⟩
    · rw [if_pos hok, stageNext_region hmore]
      exact ⟨_, rfl, rfl, rfl, rfl⟩
    · rw [if_pos hok]
      refine ⟨_, rfl, ?_, ?_, fun r x hx => stageNext_last_row hlast hx⟩ <;> rw [stageNext_last hlast] <;> rfl
  case completion =>
    intro hl hb hp hk hc hbusy hheld
    refine ⟨_, exec_launchComplete_done hl (sweepBands_busy hbusy) (launchDone_of hb hp hk hc) hheld, launchGone_launch,
      fun r n ho => ?_, fun r n ho => ?_, launchGone_mem.trans launchSignal_mem⟩ <;> rw [launchGone_slotOf, Slot.disowned]
    · rw [if_pos ho]
      exact ⟨rfl, rfl⟩
    · rw [if_neg ho]
  case continuation =>
    intro c r n hc hplace hl hb hpace hfree
    refine ⟨_, _, exec_continuationStart_placed hc hplace hl hb hpace, startCont_row hfree, rfl, rfl, rfl, fun j h1 h15 => ?_,
      fun j h16 => ?_, rfl, rfl, rfl, rfl, rfl⟩
    · rw [contRow_sget, if_neg (by omega)]
    · rw [contRow_sget, if_pos (by omega)]
  case preemption =>
    intro hb hcan
    obtain rfl := band?_id hb
    rw [exec_preemptRequest_can hb hcan]
    refine ⟨fun hp hchain => ?_, fun r hp => by rw [requestPreempt_parity hp]⟩
    rw [requestPreempt_alone hp hchain]
    refine ⟨_, rfl, stopBand_mem, fun w => stopBand_preempt, fun r x hx => ⟨_, stopBand_row hx, fun hother => if_neg hother, ?_⟩⟩
    intro hown
    rw [if_pos hown]
    exact stopRow_stops

end Sys2Proof.Proofs
end

section
/-! SUPPORT. The issue of a gather-scatter command (R171, R172, R174). -/
namespace Sys2Proof.Machine

variable {s : State} {r : RowId} {x y : Row} {w : Band} {d a b : Reg} {ixr : Bool} {i : Instr} {k : Cmd} {n : Nat}

/-! ### The fault vector of a command that fails its checks -/

theorem foldl_add_two_pow (n : Nat) : (List.range n).foldl (fun a p => a + 2 ^ p) 0 = 2 ^ n - 1 := by
  induction n with
  | zero => rfl
  | succ n ih =>
    have hpos : 0 < 2 ^ n := Nat.two_pow_pos n
    rw [List.range_succ, List.foldl_append, ih, List.foldl_cons, List.foldl_nil, Nat.pow_succ]
    omega

theorem faultVector_all : faultVector n (fun _ => true) = leBytes (8 * ((n + 63) / 64)) (2 ^ n - 1) := by
  simp only [faultVector, if_true, foldl_add_two_pow]

theorem gsReject_eq : gsReject s k n = if k.statOff % 8 = 0 ∧ k.statOff + k.statLen ≤ n
    then placeWrite s (cmdPlace s k k.statOff) (leBytes k.statLen (2 ^ k.count - 1)) else s := by
  simp only [gsReject, Cmd.statOk, faultVector_all, Bool.and_eq_true, beq_iff_eq, decide_eq_true_eq]
  rfl

/-! ### The indices -/

/-- The index of position j of a command (R172): lanes of the register pair, or the list in the window, where 2^64 stands for
an index whose bytes are uncorrectable. -/
def indexAt (t : State) (x : Row) (w : Band) (b : Reg) (k : Cmd) (j : Nat) : Nat :=
  if k.ixr then
    (if tst (k.op 2) 11 then (laneAt (x.vget (b + 1)) j).toNat * 2 ^ 32 + (laneAt (x.vget b) j).toNat
     else if j < w.laneW then (laneAt (x.vget b) j).toNat else (laneAt (x.vget (b + 1)) (j - w.laneW)).toNat)
  else
    let key := winKey w (k.ixOff + j * k.ixSize : Nat)
    if t.badWords.any (fun v => decide (key < 8 * v + 8) && decide (8 * v < key + k.ixSize)) then 2 ^ 64
    else leNat (memRead t.mem key k.ixSize)

theorem entryCtx_indices {b' : Reg} (hx : s.row? r = some x) (hy : (flushPosted s r).row? r = some y) :
    (entryCtx s r x y w d a b').indices k b = (List.range k.count).map (indexAt (flushPosted s r) x w b k) := by
  have hregs : ∀ e, y.vget e = x.vget e := fun e => by simp only [Row.vget, (flushPosted_keeps hx hy).1]
  have hrow : (entryCtx s r x y w d a b').x = y := rfl
  simp only [Ctx.indices, hrow, hregs]
  rfl

/-! ### Entry -/

/-- The command of a gather-scatter instruction at entry, before its indices and its ranges are known. -/
def gsIssued (t : State) (r : RowId) (x : Row) (w : Band) (i : Instr) (a : Reg) : Cmd := issuedCmd t r x w .gs i a 0 [] []

/-- The command of a gather-scatter instruction whose checks pass. -/
def gsCommand (t : State) (r : RowId) (x : Row) (w : Band) (i : Instr) (a b : Reg) : Cmd :=
  let k := gsIssued t r x w i a
  issuedCmd t r x w .gs i a 0 ((List.range k.count).map (indexAt t x w b k)) (gsRanges k w.wbase)

/-- The request of a gather-scatter instruction at entry. -/
theorem gsRequest_entry {b' : Reg} (hx : s.row? r = some x) (hy : (flushPosted s r).row? r = some y) :
    let c := entryCtx s r x y w d a b'
    let k := gsIssued (flushPosted s r) r x w i a
    gsRequest i a b c = (gsCheck k w.wsize w.laneW).elim
      (⟨.gs, i, c.group a, 0, (List.range k.count).map (indexAt (flushPosted s r) x w b k), gsRanges k w.wbase⟩, none)
      (fun st => (⟨.gs, i, c.group a, 0, [], []⟩, some st)) := by
  intro c k
  have hcmd : c.command ⟨.gs, i, c.group a, 0, [], []⟩ = k := entryCtx_command hx hy i 0 [] []
  have hband : c.band = w := rfl
  have hlw : c.lw = w.laneW := rfl
  have hidx : c.indices k b = (List.range k.count).map (indexAt (flushPosted s r) x w b k) := entryCtx_indices hx hy
  simp only [gsRequest, hcmd, hband, hlw, hidx]
  cases gsCheck k w.wsize w.laneW <;> rfl

/-- A gather-scatter instruction whose operands are ready issues its command; where its check fails, the fault vector is
written. -/
theorem issueGs_issues {v : State} {b' : Reg}
    (hi : Issues s r x w accSchd false (fSca d) (fSca a) (if ixr then fVec b else fNone) d a b')
    (hg : groupReady x a 4) (hv : ixr = true → x.vectorReady b ∧ x.vectorReady (b + 1))
    (h : (ctxOf s r x w d a b').engineIssue .gs (gsRequest i a b) false (fun s _ => s) = .ok (.done v)) :
    let k := gsIssued (flushPosted s r) r x w i a
    issueGs s i d a b ixr =
      .next (completed (if (gsCheck k w.wsize w.laneW).isSome then gsReject v k w.wsize else v) r) := by
  intro k
  have hgroup : (ctxOf s r x w d a b').needGroup a 4 = .ok () := needGroup_ready hg
  have hlo : ixr = true → (ctxOf s r x w d a b').needV b false 2 = .ok () := fun h => needV_ready (hv h).1 _ _
  have hhi : ixr = true → (ctxOf s r x w d a b').needV (b + 1) false 2 = .ok () := fun h => needV_ready (hv h).2 _ _
  -- The checks read the instruction and its group, which the row's posted writes leave as they are.
  have hcheck : gsCheck ((ctxOf s r x w d a b').command ⟨.gs, i, (ctxOf s r x w d a b').group a, 0, [], []⟩) w.wsize w.laneW =
    gsCheck k w.wsize w.laneW := rfl
  simp only [issueGs, issue_ready hi, hgroup, exceptOkBind, ctxOf_band, ctxOf_lw, h, hcheck]
  generalize gsCheck k w.wsize w.laneW = bad
  cases ixr with
  | false => cases bad <;> rfl
  | true =>
    rw [hlo rfl, hhi rfl]
    cases bad <;> rfl

/-- A gather-scatter command whose checks pass enters the queue with its indices and its ranges; one that fails them retires
at once and leaves its fault vector. -/
theorem issueGs_ready {b' : Reg}
    (hi : Issues s r x w accSchd false (fSca d) (fSca a) (if ixr then fVec b else fNone) d a b')
    (he : EngineReady s r x y w .gs d) (hg : groupReady x a 4) (hv : ixr = true → x.vectorReady b ∧ x.vectorReady (b + 1)) :
    let t := flushPosted s r
    let k := gsIssued t r x w i a
    (gsCheck k w.wsize w.laneW = none → sbRoom t (gsRanges k w.wbase) = true →
      issueGs s i d a b ixr = .next (completed (entered t r y w d (gsCommand t r x w i a b)) r)) ∧
    (∀ st, gsCheck k w.wsize w.laneW = some st → sbRoom t [] = true →
      issueGs s i d a b ixr = .next (completed (gsReject (retireCmd (entered t r y w d k) k st 0) k w.wsize) r)) := by
  intro t k
  have hreq : gsRequest i a b (entryCtx s r x y w d a b') = (gsCheck k w.wsize w.laneW).elim _ _ :=
    gsRequest_entry hi.row he.row
  refine ⟨fun hpass hroom => ?_, fun st hfail hroom => ?_⟩
  · rw [hpass] at hreq
    rw [issueGs_issues hi hg hv (engineIssue_ready he hreq hroom (entryCtx_command hi.row he.row i 0 _ _)), hpass]
    rfl
  · rw [hfail] at hreq
    rw [issueGs_issues hi hg hv (engineIssue_ready he hreq hroom (entryCtx_command hi.row he.row i 0 _ _)), hfail]
    rfl

end Sys2Proof.Machine
end

section
/-! SUPPORT. The checks of a gather-scatter command as one condition (R171, R172, R174). -/
namespace Sys2Proof.Machine

variable {k : Cmd} {w lw : Nat}

/-- Two ranges that do not overlap lie one behind the other. -/
theorem rangesMeet_eq_false_iff (a n b m : Nat) : rangesMeet a n b m = false ↔ a + n ≤ b ∨ b + m ≤ a := by
  simp only [rangesMeet, Bool.and_eq_false_iff, decide_eq_false_iff_not, not_lt]
  exact or_comm

theorem gsCheck_none_or_range : gsCheck k w lw = none ∨ gsCheck k w lw = some stRange := by
  unfold gsCheck
  simp only [← ite_or]
  exact (ite_eq_or_eq _ _ _).symm

/-- A command passes its checks exactly where none of them fails. -/
theorem gsCheck_eq_none_iff : gsCheck k w lw = none ↔
    (fld (k.op 1) 63 52 = 0 ∧ fld (k.op 1) 31 20 = 0 ∧ fld (k.op 2) 63 62 = 0 ∧ fld (k.op 2) 55 52 = 0 ∧
      fld (k.op 2) 31 22 = 0 ∧ fld (k.op 2) 10 8 = 0 ∧ fld (k.op 3) 31 0 = 0 ∧ (k.ixr = true → k.ixOff = 0)) ∧
    (fld (k.op 0) 63 61 = 0 ∧ k.base % 4 = 0 ∧ fld (k.op 3) 63 32 % 4 = 0) ∧
    (k.ixr = true → k.count ≤ if tst (k.op 2) 11 then lw else 2 * lw) ∧
    (k.dataOff % 4 = 0 ∧ k.dataOff + k.count * k.esz ≤ w ∧ k.statOff % 8 = 0 ∧ k.statOff + k.statLen ≤ w ∧
      (k.ixr = false → k.ixOff % k.ixSize = 0 ∧ k.ixOff + k.count * k.ixSize ≤ w)) ∧
    rangesMeet k.statOff k.statLen k.dataOff (k.count * k.esz) = false ∧
    (k.ixr = false → rangesMeet k.statOff k.statLen k.ixOff (k.count * k.ixSize) = false) ∧
    (k.isGath = true → k.ixr = false → rangesMeet k.dataOff (k.count * k.esz) k.ixOff (k.count * k.ixSize) = false) := by
  unfold gsCheck
  simp only [← ite_or]
  simp only [ite_eq_right_iff, reduceCtorEq, imp_false, not_or, Cmd.statOk, Bool.not_eq_true, Bool.or_eq_false_iff,
    Bool.and_eq_false_imp, Bool.and_eq_true, Bool.not_eq_true', Bool.not_eq_false', beq_iff_eq, decide_eq_false_iff_not,
    decide_eq_true_eq, not_not, not_and, and_imp, not_lt, ne_eq]
  tauto

end Sys2Proof.Machine
end

section
/-! PROOF. The statement about the issue of gathers, scatters and scattered reductions. -/
open Sys2Proof Sys2Proof.Machine
namespace Sys2Proof.Proofs

/-- Settles O21: a gather-scatter command whose operands are ready enters the queue with its indices and its ranges, or retires
at once with RANGE and its fault vector; its checks are one chain of conditions, all of RANGE. -/
theorem gatherScatterIssue : Obligations.GatherScatterIssue := by
  refine ⟨?entry, ?checks⟩
  case entry =>
    intro s t r x y w d a b bar ixr ord p hi ht he hg hv k0 index cmd passes fails rejected
    subst ht
    have enters (i : Instr) (hcmd : gsCommand (flushPosted s r) r x w i a b = cmd i) : passes i →
        issueGs s i d a b ixr = .next (completed (entered (flushPosted s r) r y w d (cmd i)) r) := by
      rintro ⟨hcheck, hroom⟩
      rw [← hcmd]
      exact (issueGs_ready hi he hg hv).1 hcheck hroom
    have rejects (i : Instr) (hexec : exec i s = issueGs s i d a b ixr) : fails i → rejected i := by
      rintro ⟨hcheck, hroom⟩
      have hissue := (issueGs_ready hi he hg hv).2 _ hcheck hroom
      rw [gsReject_eq] at hissue
      exact hexec.trans hissue
    exact ⟨enters _ rfl, enters _ rfl, enters _ rfl, rejects _ rfl, rejects _ rfl, rejects _ rfl⟩
  case checks =>
    intro k w lw n len apart
    refine ⟨gsCheck_none_or_range, ?_⟩
    rw [gsCheck_eq_none_iff]
    simp only [rangesMeet_eq_false_iff]
    exact Iff.rfl

end Sys2Proof.Proofs
end

section
/-! SUPPORT. What a failed access leaves as it was: no byte of memory changes (R131, R177, R182). -/
namespace Sys2Proof.Machine

variable {s : State} {q : Requester} {k : Cmd} {p : Nat} {f : Bool}

@[simp] theorem noteReads_mem (kind : Kind) (a : Dword) (n : Nat) : (noteReads s q kind a n).mem = s.mem := by
  refine foldl_mem (fun t p => ?_) _
  split
  · exact noteRead_mem _
  · rfl

/-- A write that fails writes no byte. -/
theorem writeAddr_failed_mem {a : Dword} {bs : List Byte} (h : (writeAddr s q a bs).2.isSome = true) :
    (writeAddr s q a bs).1.mem = s.mem := by
  unfold writeAddr at h ⊢
  simp only [] at h ⊢
  split
  · split
    · exact walked_mem _ _ _
    · exact (noteWrites_mem _ _).trans (walked_mem _ _ _)
  · next hok => simp [hok] at h

/-- An update that fails changes no byte. -/
theorem updateAddr_failed_mem {a : Dword} {n : Nat} {g : Nat → List Byte → List Byte}
    (h : (updateAddr s q a n g).2.isSome = true) : (updateAddr s q a n g).1.mem = s.mem := by
  unfold updateAddr at h ⊢
  simp only [] at h ⊢
  split
  · split
    · exact walked_mem _ _ _
    · exact (noteReads_mem _ _ _).trans (walked_mem _ _ _)
  · next hok => simp [hok] at h

theorem applyUpdate_failed_mem {op : SredOp} {a : Dword} {n : Nat} {ws : List Word}
    (h : (applyUpdate s q op a n ws).2.isSome = true) : (applyUpdate s q op a n ws).1.mem = s.mem :=
  updateAddr_failed_mem (Option.isSome_map.symm.trans h)

/-- A position of a SCAT that fails writes no byte of its element (R177). -/
theorem scatPosition_failed_mem (h : (scatPosition s k p f).2.isSome = true) : (scatPosition s k p f).1.mem = s.mem := by
  unfold scatPosition at h ⊢
  cases hpre : preStatus s k p with
  | some st => rfl
  | none =>
    have hmem := writeAddr_failed_mem (s := s) (q := gsRequester s k f) (a := dw (k.ea p)) (bs := slotBytes s k p)
    simp only [hpre] at h ⊢
    rcases hwrite : writeAddr s (gsRequester s k f) (dw (k.ea p)) (slotBytes s k p) with ⟨t, _ | e⟩
    · simp [hwrite] at h
    · rw [hwrite] at hmem
      exact hmem rfl

end Sys2Proof.Machine
end

section
/-! SUPPORT. The positions of a GATH or SCAT (R173, R177 to R179). -/
namespace Sys2Proof.Machine

variable {s : State} {k : Cmd} {p : Nat} {f : Bool}

theorem eaAddr_tag : fld (k.eaAddr p) 63 61 = 0 := by
  have hlt : k.ea p % 2 ^ 61 < 2 ^ 61 := Nat.mod_lt _ (by omega)
  have hnat : (k.eaAddr p).toNat < 2 ^ 61 := by
    unfold Cmd.eaAddr
    split
    · exact Nat.two_pow_pos 61
    · rwa [dw, BitVec.toNat_ofNat, Nat.mod_eq_of_lt (by omega)]
  rw [fld, Nat.div_eq_of_lt hnat, Nat.zero_mod]

theorem preStatus_far (hg : k.isGath = true) (hb : k.badIx p = false) (h : 2 ^ 52 < k.ea p + k.esz) :
    preStatus s k p = some stRange := by
  rw [preStatus, hb, hg, if_neg Bool.false_ne_true, if_neg (by simp), if_pos h]

/-- A position of a GATH whose address is out of range clears its slot (R177). -/
theorem gathPosition_far (hg : k.isGath = true) (hb : k.badIx p = false) (h : 2 ^ 52 < k.ea p + k.esz) :
    gathPosition s k p f = ((gathWrite s k p (List.replicate k.esz 0)).1, some stRange) := by
  unfold gathPosition
  rw [preStatus_far hg hb h]
  exact if_neg (by decide)

/-- A position of a GATH or SCAT. -/
def elementMoved (s : State) (k : Cmd) (p : Nat) (f : Bool) : State × Option Byte :=
  if k.isGath then gathPosition s k p f else scatPosition s k p f

/-- A position that no earlier command and no lower position holds back waits for main memory, or is moved. -/
theorem exec_gsElement_free (hk : s.cmd? k.id = some k) (hc : k.cls = .gs) (hs : k.sredForm = none)
    (hp : cmdStopped s k = false) (hl : p ∈ k.positionsLeft) (hg : gsHeld s k (elementKeys s k p) = false)
    (hw : scatHeld s k p (elementKeys s k p) = false) :
    exec (.gsElementComplete k.id p f) s = if elementHeld s k p f then .next s
      else .next (gsNote (elementMoved s k p f).1 k [p] (elementMoved s k p f).2) := by
  simp only [exec_gsElementComplete, execGsElementComplete, hk, hc, hs, hp, hg, hw, List.contains_iff_mem.2 hl,
    bne_self_eq_false, Option.isSome_none, Bool.not_true, Bool.or_self, Bool.false_or]
  rfl

/-- What a command notes of one position: it is a unit done. -/
theorem gsNote_position (st : Option Byte) : gsNote s k [p] st =
    let k' := k.unitDone p (st.map (fun v => (v, k.eaAddr p)))
    if k'.positionsLeft.isEmpty then gsRetire (s.modCmd k.id (fun _ => k')) k' else s.modCmd k.id (fun _ => k') := by
  cases st <;> rfl

end Sys2Proof.Machine
end

section
/-! SUPPORT. The groups of an SRED that is combined (R181). -/
namespace Sys2Proof.Machine

variable {s : State} {k : Cmd} {op : SredOp} {o : Bool} {p : Nat}

/-- The positions that do not fail before the combiner. -/
def combinedPositions (s : State) (k : Cmd) : List Nat := (List.range k.count).filter (fun p => (combineStatus s k p).isNone)

/-- The lowest position of each distinct index. -/
def groupHeads (s : State) (k : Cmd) : List Nat :=
  (combinedPositions s k).filter (fun p => (sameIndex k (combinedPositions s k) p).head? == some p)

/-- The positions that fail before the combiner, each with its status and address. -/
def combineFails (s : State) (k : Cmd) : List (Nat × Byte × Dword) :=
  (List.range k.count).filterMap (fun p => (combineStatus s k p).map (fun st => (p, st, k.eaAddr p)))

/-- An SRED once combined: a group for each distinct index, the failing positions done. -/
def Cmd.combine (k : Cmd) (s : State) (op : SredOp) : Cmd :=
  { k with
    combined := true
    groups := (groupHeads s k).map (fun p => ⟨dw (k.ea p), p, combineGroup s k op (sameIndex k (combinedPositions s k) p)⟩)
    done := (combineFails s k).map (fun b => b.1)
    fails := combineFails s k }

/-- An SRED that no earlier one of its core and no table entry holds back is combined. -/
theorem exec_sredCombine_due (hk : s.cmd? k.id = some k) (hf : k.sredForm = some (op, o)) (hc : k.combined = false)
    (he : (s.cmds.takeWhile (fun e => e.id != k.id)).any (fun e => e.core == k.core && e.sredForm.isSome && !e.combined) = false)
    (hh : sredHeld s k = false) :
    exec (.sredCombine k.id) s = .next (gsNote (sredWalked s k) (k.combine (sredWalked s k) op) [] none) := by
  simp only [exec_sredCombine, execSredCombine, hk, hf, hc, he, hh, Bool.or_self, Bool.false_eq_true, if_false, List.filter_map,
    List.filterMap_map, List.map_map, Function.comp_def, List.map_id']
  rfl

theorem mem_sameIndex {l : List Nat} {q : Nat} : q ∈ sameIndex k l p ↔ q ∈ l ∧ k.idx.getD q 0 = k.idx.getD p 0 := by
  simp [sameIndex]

theorem sameIndex_congr {l : List Nat} {q : Nat} (h : k.idx.getD q 0 = k.idx.getD p 0) : sameIndex k l q = sameIndex k l p := by
  simp only [sameIndex, h]

theorem mem_groupHeads : p ∈ groupHeads s k ↔
    p ∈ combinedPositions s k ∧ (sameIndex k (combinedPositions s k) p).head? = some p := by simp [groupHeads]

/-- The combined positions are in ascending order. -/
theorem combinedPositions_ascend : (combinedPositions s k).Pairwise (· < ·) := List.pairwise_lt_range.filter _

/-- The head of a group is its lowest position. -/
theorem groupHeads_least {q : Nat} (hp : p ∈ groupHeads s k) (hq : q ∈ combinedPositions s k)
    (he : k.idx.getD q 0 = k.idx.getD p 0) : p ≤ q := by
  obtain ⟨-, hhead⟩ := mem_groupHeads.1 hp
  have hsorted : (sameIndex k (combinedPositions s k) p).Pairwise (· < ·) := combinedPositions_ascend.filter _
  obtain ⟨l, hl⟩ := List.head?_eq_some_iff.1 hhead
  have hmem : q ∈ sameIndex k (combinedPositions s k) p := mem_sameIndex.2 ⟨hq, he⟩
  rw [hl] at hsorted hmem
  rcases List.mem_cons.1 hmem with rfl | hmem
  · exact Nat.le_refl _
  · exact Nat.le_of_lt (List.rel_of_pairwise_cons hsorted hmem)

/-- Every combined position carries the index of the head of a group. -/
theorem exists_groupHead (hp : p ∈ combinedPositions s k) : ∃ g ∈ groupHeads s k, k.idx.getD g 0 = k.idx.getD p 0 := by
  have hmem : p ∈ sameIndex k (combinedPositions s k) p := mem_sameIndex.2 ⟨hp, rfl⟩
  obtain ⟨g, l, hl⟩ := List.exists_cons_of_ne_nil (List.ne_nil_of_mem hmem)
  obtain ⟨hg, hidx⟩ := mem_sameIndex.1 (hl ▸ List.mem_cons_self : g ∈ sameIndex k (combinedPositions s k) p)
  exact ⟨g, mem_groupHeads.2 ⟨hg, by rw [sameIndex_congr hidx, hl, List.head?_cons]⟩, hidx⟩

/-- Exactly the positions left out of the combiner are done. -/
theorem mem_combine_done : p ∈ (k.combine s op).done ↔ p < k.count ∧ p ∉ combinedPositions s k := by
  cases h : combineStatus s k p <;> simp [Cmd.combine, combineFails, combinedPositions, h]

end Sys2Proof.Machine
end

section
/-! SUPPORT. The update of a group (R182). -/
namespace Sys2Proof.Machine

variable {s : State} {k : Cmd} {op : SredOp} {o f : Bool} {u : SredGroup}

/-- The state in which the update of a group has been applied, and noted, or has failed. -/
def updatePerformed (s : State) (k : Cmd) (op : SredOp) (u : SredGroup) (f : Bool) : State :=
  let r := applyUpdate s (gsRequester s k f) op u.addr k.esz u.words
  if r.2.isSome then r.1 else r.1.noted s k.id (elementKeys s k u.p)

/-- An SRED without one of its groups. -/
def Cmd.dropGroup (k : Cmd) (g : Nat) : Cmd := { k with groups := k.groups.filter (fun v => v.p != g) }

/-- An update that nothing holds back is applied as a whole; where it fails, every position of its index fails. -/
theorem exec_sredUpdateApply_free (hk : s.cmd? k.id = some k) (hf : k.sredForm = some (op, o))
    (hu : k.groups.find? (fun v => v.p == u.p) = some u) (hg : gsHeld s k (elementKeys s k u.p) = false)
    (he : elementHeld s k u.p f = false) :
    exec (.sredUpdateApply k.id u.p f) s = .next (gsNote (updatePerformed s k op u f) (k.dropGroup u.p)
      (sameIndex (k.dropGroup u.p) (k.dropGroup u.p).positionsLeft u.p)
      (applyUpdate s (gsRequester s k f) op u.addr k.esz u.words).2) := by
  simp only [exec_sredUpdateApply, execSredUpdateApply, hk, hf, hu, hg, he, Bool.or_self, Bool.false_eq_true, if_false]
  rfl

end Sys2Proof.Machine
end

section
/-! PROOF. The statement about the positions of gathers, scatters and scattered reductions. -/
open Sys2Proof Sys2Proof.Machine
namespace Sys2Proof.Proofs

/-- Settles O41: a position of a GATH or SCAT is one unit of its command, a combined SRED has a group for each distinct index,
headed by its lowest position, and an update is one access of its element. -/
theorem elementEvents : Obligations.ElementEvents := by
  refine ⟨?element, fun s k op o f hk hf => ⟨?combine, ?apply⟩⟩
  case element =>
    intro s k p f hk hc hs hp hl hg hw
    have hex := exec_gsElement_free (f := f) hk hc hs hp hl hg hw
    refine ⟨fun hh => hex.trans (if_pos hh), fun hh => ?_⟩
    rw [if_neg (by simp [hh]), gsNote_position] at hex
    intro r k' t
    have hunit : k.unitDone p ((elementMoved s k p f).2.map (fun v => (v, k.eaAddr p))) = k' := by
      change k.unitDone p (r.2.map _) = k'
      simp only [Cmd.unitDone, k']
      cases r.2 <;> rfl
    rw [hunit] at hex
    have hstep : exec (.gsElementComplete k.id p f) s = .next (if k'.positionsLeft.isEmpty then gsRetire t k' else t) := hex
    refine ⟨fun hleft => ?_, fun hlast => ?_, eaAddr_tag, fun hb => ?_, fun hgath hb hfar => ?_, fun hscat hfail => ?_⟩
    · rw [hstep, if_neg (by simpa using hleft)]
    · rw [hstep, if_pos (by simpa using hlast)]
      rfl
    · rw [Cmd.eaAddr, hb]
      rfl
    · have hr : r = gathPosition s k p f := if_pos hgath
      rw [hr, gathPosition_far hgath hb hfar]
      exact ⟨rfl, rfl⟩
    · have hr : r = scatPosition s k p f := if_neg (by simp [hscat])
      rw [hr] at hfail ⊢
      exact scatPosition_failed_mem hfail
  case combine =>
    intro hc he hh t ok
    refine ⟨k.combine t op, exec_sredCombine_due hk hf hc he hh, rfl, rfl, fun u hu => ?_, fun p hp => ?_,
      fun p => mem_combine_done⟩
    · obtain ⟨p, hp, rfl⟩ := List.mem_map.1 hu
      exact ⟨(mem_groupHeads.1 hp).1, rfl, rfl, fun q hq hidx => groupHeads_least hp hq hidx⟩
    · obtain ⟨g, hg, hidx⟩ := exists_groupHead hp
      exact ⟨_, List.mem_map_of_mem hg, hidx⟩
  case apply =>
    intro u hu hg he
    exact ⟨exec_sredUpdateApply_free hk hf hu hg he, applyUpdate_failed_mem⟩

end Sys2Proof.Proofs
end

section
/-! SUPPORT. The walker of a cluster after an update, its registers, and the command that it runs (R187, R193). -/
namespace Sys2Proof.Machine

variable {s : State} {cl : ClusterId} {k : Cmd} {v : Walker} {d e : WReg} {n : Dword}

@[simp] theorem walker_modWalker (f : Walker → Walker) : (s.modWalker cl f).walker cl = f (s.walker cl) := by
  simp [State.walker, State.modWalker, State.modCluster, State.cluster]

@[simp] theorem modWalker_modWalker (f g : Walker → Walker) :
    (s.modWalker cl f).modWalker cl g = s.modWalker cl (fun w => g (f w)) := by
  simp [State.modWalker, State.modCluster, State.cluster]

/-- An update of a walker depends only on what it makes of the walker that stands there. -/
theorem modWalker_congr {f g : Walker → Walker} (h : f (s.walker cl) = g (s.walker cl)) : s.modWalker cl f = s.modWalker cl g := by
  rw [State.modWalker, State.modWalker, State.modCluster, State.modCluster]
  exact congrArg (fun w => { s with clusters := s.clusters.set cl.toNat { s.cluster cl with walker := w } }) h

/-! ### Registers (R187) -/

theorem Walker.set_eq : ∃ r, v.set d n = { v with w := r } := by
  unfold Walker.set
  split <;> exact ⟨_, rfl⟩

@[simp] theorem Walker.set_pc : (v.set d n).pc = v.pc := by obtain ⟨_, h⟩ := v.set_eq (d := d) (n := n); rw [h]
@[simp] theorem Walker.set_stop : (v.set d n).stop = v.stop := by obtain ⟨_, h⟩ := v.set_eq (d := d) (n := n); rw [h]

theorem Walker.get_set_other (h : e ≠ d) : (v.set d n).get e = v.get e := by
  have hne : d.toNat ≠ e.toNat := fun g => h (BitVec.eq_of_toNat_eq g.symm)
  rw [Walker.set]
  split
  · rfl
  · simp only [Walker.get, Vector.getElem_set_ne _ _ hne]

/-! ### The running command (R193) -/

theorem walkCmd_of (hc : (s.walker cl).cmd = some k.id) (hk : s.cmd? k.id = some k) : walkCmd s cl = some k := by
  simp only [walkCmd, hc, hk]

/-- A walker that runs a command executes an instruction for it. -/
theorem walkExec_runs (h : WalkRuns s cl k v) (f : ClusterId → Cmd → Walker → State) : walkExec s f = .next (f cl k v) := by
  simp only [walkExec, h.active, walkCmd_of (h.walker ▸ h.cmd) h.command, h.walker]

/-- A register instruction writes its result and goes on (R199, R203). -/
theorem walkReg_runs (h : WalkRuns s cl k v) (f : Walker → Dword) :
    walkReg s d f = .next (walkWent s cl (v.set d (f v)) (v.pc + 1)) := walkExec_runs h _

end Sys2Proof.Machine
end

section
/-! SUPPORT. The set bits of a doubleword counted one by one (R203). -/
namespace Sys2Proof.Machine

variable {x : Dword} {m n : Nat}

theorem countBits_eq_countP : countBits x.toNat n = (List.range n).countP (fun i => x.getLsbD i) := by
  induction n with
  | zero => rfl
  | succ n ih =>
    rw [countBits, ih, List.range_succ, List.countP_append, List.countP_singleton, BitVec.getLsbD, Nat.testBit_eq_decide_div_mod_eq]
    rcases Nat.mod_two_eq_zero_or_one (x.toNat / 2 ^ n) with h | h <;> simp [h]

theorem countP_range_lt (p : Nat → Bool) :
    (List.range n).countP (fun i => p i && decide (i < m)) = (List.range (min m n)).countP p := by
  induction n with
  | zero => simp
  | succ n ih =>
    rw [List.range_succ, List.countP_append, ih, List.countP_singleton]
    rcases Nat.lt_or_ge n m with h | h
    · rw [min_eq_right h.le, min_eq_right h, List.range_succ, List.countP_append, List.countP_singleton]
      simp [h]
    · simp [min_eq_left h, min_eq_left (Nat.le_succ_of_le h), Nat.not_lt.2 h]

theorem popc_eq_countP : popc x = (List.range 64).countP (fun i => x.getLsbD i) := countBits_eq_countP

theorem popcBelow_eq_countP_lt : popcBelow x n = (List.range 64).countP (fun i => x.getLsbD i && decide (i < n)) := by
  rw [countP_range_lt, popcBelow, countBits_eq_countP]

theorem popcBelow_eq_countP : popcBelow x n = (List.range n).countP (fun i => x.getLsbD i) := by
  have hbit : (fun i => x.getLsbD i && decide (i < 64)) = fun i => x.getLsbD i := by
    funext i
    rcases Nat.lt_or_ge i 64 with h | h
    · simp [h]
    · simp [BitVec.getLsbD_of_ge x i h]
  rw [popcBelow, countBits_eq_countP, min_comm, ← countP_range_lt, hbit]

end Sys2Proof.Machine
end

section
/-! PROOF. The statement about the register instructions of the walker. -/
open Sys2Proof Sys2Proof.Machine
namespace Sys2Proof.Proofs

/-- Settles O34: each of these instructions writes one register with a value of the registers and goes on; a shift takes the
low six bits of its count, and the counts of POPC and PFX are counts of bit positions. -/
theorem walkerRegisters : Obligations.WalkerRegisters := by
  intro s cl k v d a b i j h A B put
  have hshift : fld B 5 0 = B.toNat % 64 := by simp [fld]
  have writes (f : Walker → Dword) : walkReg s d f = put (f v) := walkReg_runs h f
  refine ⟨writes (fun w => w.get a + w.get b), writes (fun w => w.get a - w.get b), writes (fun w => w.get a * w.get b),
    writes (fun w => w.get a &&& w.get b), writes (fun w => w.get a ||| w.get b), writes (fun w => w.get a ^^^ w.get b),
    ?shl, ?shr, writes (fun w => w.get a + i.signExtend 64), writes (fun _ => j.signExtend 64), ?popc, ?pfx⟩
  case shl =>
    rw [← hshift]
    exact writes (fun w => w.get a <<< fld (w.get b) 5 0)
  case shr =>
    rw [← hshift]
    exact writes (fun w => w.get a >>> fld (w.get b) 5 0)
  case popc =>
    rw [← popc_eq_countP]
    exact writes (fun w => dw (popc (w.get a)))
  case pfx =>
    rw [← popcBelow_eq_countP_lt]
    exact writes (fun w => dw (popcBelow (w.get a) (w.get b).toNat))

end Sys2Proof.Proofs
end

section
/-! SUPPORT. The stop of a walk (R194, R208 to R210). -/
namespace Sys2Proof.Machine

variable {s : State} {cl : ClusterId} {k : Cmd} {v : Walker} {t : WalkStop}

theorem Walker.halt_eq : v.halt t = { v with stop := some (v.stop.getD t) } := by
  obtain ⟨c, q, w, p, g, pc, n, b, f, e, m, st, stop, r⟩ := v
  cases stop <;> rfl

theorem Walker.halt_first (h : v.stop = none) : v.halt t = { v with stop := some t } := by rw [Walker.halt_eq, h, Option.getD_none]

/-- A walk with emissions in flight does not end yet (R208). -/
theorem walkFinish_emitting (h : (s.walker cl).emis ≠ []) : walkFinish s cl = s := by
  unfold walkFinish
  simp only []
  split
  · rw [if_neg (by simpa using h)]
  · rfl

/-- A stopped walk without emissions in flight writes its record and retires (R194, R210). -/
theorem walkFinish_stopped (hk : walkCmd s cl = some k) (ht : (s.walker cl).stop = some t) (he : (s.walker cl).emis = []) :
    walkFinish s cl = walkRetire ((placeWrite s (cmdPlace s k k.walkStat)
      (walkRecord t.pc t.cause t.status t.elem t.addr ((s.walker cl).get 12))).modWalker cl Walker.idle) k t.status t.addr := by
  simp only [walkFinish, hk, ht, he, List.isEmpty_nil, if_true]

/-- The stop of a walker's state at its current instruction. -/
def Walker.stopped (v : Walker) (cause st : Byte) (addr : Dword) : WalkStop := ⟨cause, st, v.pc, v.get 15, addr⟩

/-- The state in which the walker of a cluster has stopped. -/
def State.stopWalker (s : State) (cl : ClusterId) (t : WalkStop) : State := s.modWalker cl (fun w => { w with stop := some t })

/-- With emissions in flight the first stop is recorded (R209). -/
theorem walkStop_emitting (h : WalkRuns s cl k v) (he : v.emis ≠ []) (cause st : Byte) (addr : Dword) :
    walkStop s cl cause st addr = s.stopWalker cl (v.stop.getD (v.stopped cause st addr)) := by
  rw [walkStop, walkFinish_emitting (by rw [walker_modWalker, h.walker, Walker.halt_eq]; exact he)]
  exact modWalker_congr (by rw [h.walker, Walker.halt_eq]; rfl)

/-- Without emissions in flight the stop ends the walk (R194, R210). -/
theorem walkStop_ends (h : WalkRuns s cl k v) (he : v.emis = []) (hs : v.stop = none) (cause st : Byte) (addr : Dword) :
    walkStop s cl cause st addr = walkRetire ((placeWrite (s.stopWalker cl (v.stopped cause st addr)) (cmdPlace s k k.walkStat)
      (walkRecord v.pc cause st (v.get 15) addr (v.get 12))).modWalker cl Walker.idle) k st addr := by
  have hstop : s.modWalker cl (fun w => w.halt ⟨cause, st, w.pc, w.get 15, addr⟩) = s.stopWalker cl (v.stopped cause st addr) :=
    modWalker_congr (by rw [h.walker, Walker.halt_first hs]; rfl)
  have hw : (s.stopWalker cl (v.stopped cause st addr)).walker cl = { v with stop := some (v.stopped cause st addr) } := by
    rw [State.stopWalker, walker_modWalker, h.walker]
  have hk : walkCmd (s.stopWalker cl (v.stopped cause st addr)) cl = some k :=
    walkCmd_of ((congrArg Walker.cmd hw).trans h.cmd) h.command
  rw [walkStop, hstop, walkFinish_stopped hk (congrArg Walker.stop hw) ((congrArg Walker.emis hw).trans he), hw]
  rfl

end Sys2Proof.Machine
end

section
/-! SUPPORT. EMIT, EMITZ, SIGB and END (R206 to R209). -/
namespace Sys2Proof.Machine

variable {s : State} {cl : ClusterId} {k : Cmd} {v : Walker} {d a b e : WReg} {src : Option WReg} {cr : Bool}

/-- The checks of EMIT, with the register of its source address, and of EMITZ, without one (R206, R207). -/
def EmitFits (cl : ClusterId) (k : Cmd) (v : Walker) (d : WReg) (src : Option WReg) (b e : WReg) : Prop :=
  fld (v.get b) 63 44 = 0 ∧ fld (v.get b) 31 20 = 0 ∧ (v.get d).toNat % 4 = 0 ∧ (fld (v.get b) 19 0 + 1) % 4 = 0 ∧
    fld (v.get e) 63 32 % 4 = 0 ∧ fld (v.get e) 31 0 % 4 = 0 ∧ (fld (v.get b) 43 32 + 1) * (fld (v.get b) 19 0 + 1) ≤ 2 ^ 20 ∧
    (1 < fld (v.get b) 43 32 + 1 → fld (v.get b) 19 0 + 1 ≤ fld (v.get e) 63 32) ∧ sideTarget cl k (v.get d) = true ∧
    ∀ a ∈ src, (v.get a).toNat % 4 = 0 ∧ fld (v.get a) 63 61 ≠ 4 ∧ fld (v.get a) 63 61 ≠ 5

/-- The emission that EMIT or EMITZ starts. -/
def Walker.emission (v : Walker) (d : WReg) (src : Option WReg) (b e : WReg) (cr : Bool) : Emission :=
  ⟨v.nextEm, v.get d, src.map v.get, fld (v.get b) 43 32 + 1, fld (v.get b) 19 0 + 1, fld (v.get e) 63 32, fld (v.get e) 31 0,
    if cr then (fld (v.get b) 43 32 + 1) * (fld (v.get b) 19 0 + 1) else 0, v.pc, v.get 15⟩

/-- The OR of five operands is a multiple of 4 where each of them is. -/
theorem or_mod_eq_zero_4 (a b c d e : Nat) :
    (a ||| b ||| c ||| d ||| e) % 4 = 0 ↔ a % 4 = 0 ∧ b % 4 = 0 ∧ c % 4 = 0 ∧ d % 4 = 0 ∧ e % 4 = 0 := by
  have h (m n : Nat) : (m ||| n) % 4 = 0 ↔ m % 4 = 0 ∧ n % 4 = 0 := by
    have := or_mod_ne_zero_4 m n
    tauto
  simp only [h, and_assoc]

/-- A check of EMIT or EMITZ fails. -/
def emitFails (cl : ClusterId) (k : Cmd) (v : Walker) (d : WReg) (src : Option WReg) (b e : WReg) : Bool :=
  let n := fld (v.get b) 19 0 + 1
  let rows := fld (v.get b) 43 32 + 1
  let sa := (src.map v.get).getD 0
  fld (v.get b) 63 44 ≠ 0 || fld (v.get b) 31 20 ≠ 0
    || ((v.get d).toNat ||| sa.toNat ||| n ||| fld (v.get e) 63 32 ||| fld (v.get e) 31 0) % 4 ≠ 0
    || 2 ^ 20 < rows * n || (1 < rows && fld (v.get e) 63 32 < n) || fld sa 63 61 == 4 || fld sa 63 61 == 5
    || !sideTarget cl k (v.get d)

theorem emitFails_eq_false_iff : emitFails cl k v d src b e = false ↔ EmitFits cl k v d src b e := by
  simp only [emitFails, EmitFits, ne_eq, Bool.or_eq_false_iff, Bool.and_eq_false_imp, decide_eq_false_iff_not,
    decide_eq_true_eq, beq_eq_false_iff_ne, Bool.not_eq_false', not_not, not_lt, or_mod_eq_zero_4]
  cases src with
  | none =>
    simp only [Option.map_none, Option.getD_none, BitVec.ofNat_eq_ofNat, BitVec.toNat_ofNat, Nat.zero_mod, true_and,
      Option.mem_def, reduceCtorEq, IsEmpty.forall_iff, implies_true, and_true]
    tauto
  | some a =>
    simp only [Option.map_some, Option.getD_some, Option.mem_def, Option.some.injEq, forall_eq']
    tauto

/-- EMIT and EMITZ stop the walker where a check fails, wait for a place, or start the emission. -/
theorem walkEmit_runs (h : WalkRuns s cl k v) : walkEmit d src b e cr s = .next
    (if emitFails cl k v d src b e then walkStop s cl 2 stRange 0
     else if 4 ≤ v.emis.length then s
     else walkWent s cl { v with emis := v.emis ++ [v.emission d src b e cr], nextEm := v.nextEm + 1 } (v.pc + 1)) :=
  walkExec_runs h _

/-- SIGB waits for the emissions in flight, and credits then (R208). -/
theorem execSigb_runs (h : WalkRuns s cl k v) : execSigb a s = .next (if !v.emis.isEmpty then s
    else (walkCredit s cl k (fld (v.get a) 31 0)).modWalker cl (fun w => w.advance (w.pc + 1))) := walkExec_runs h _

/-- END waits for the emissions in flight, and stops the walk then (R208, R209). -/
theorem execWend_runs (h : WalkRuns s cl k v) : execWend s = .next (if !v.emis.isEmpty then s
    else walkStop s cl 0 (if v.stale then stStale else stOk) 0) := walkExec_runs h _

end Sys2Proof.Machine
end

section
/-! PROOF. The statement about EMIT, EMITZ, SIGB, END and the record of a walk that stops. -/
open Sys2Proof Sys2Proof.Machine
namespace Sys2Proof.Proofs

/-- Settles O36: an emission starts once its checks pass and one of the four places is free; SIGB and END wait for the
emissions in flight, and so does the record of a stop. -/
theorem walkerEmits : Obligations.WalkerEmits := by
  refine ⟨?instructions, ?stop⟩
  case instructions =>
    intro s cl k v d a b e cr z h dst src B E rows n i fits
    let sr : Option WReg := if z then none else some a
    have hexec : exec i s = walkEmit d sr b e cr s := by cases z <;> rfl
    have hfits : emitFails cl k v d sr b e = false ↔ fits := by
      rw [emitFails_eq_false_iff]
      cases z <;> simp [EmitFits, sr, fits, dst, src, B, E, rows, n]
    have hemit := hexec.trans (walkEmit_runs h)
    refine ⟨fun hf => ?fails, fun hf => ⟨fun hroom => ?starts, fun hfull => ?waits⟩, fun he => ⟨?sigb, ?wend⟩,
      fun he => ⟨?sigbWaits, ?wendWaits⟩⟩
    case fails =>
      rw [hemit, if_pos (by simpa [← hfits] using hf)]
      rfl
    case starts =>
      rw [hemit, hfits.2 hf, if_neg (Nat.not_le.2 hroom)]
      cases z <;> rfl
    case waits =>
      rw [hemit, hfits.2 hf, if_pos hfull]
      rfl
    case sigb =>
      have hbytes : src.toNat % 2 ^ 32 = fld src 31 0 := by simp [fld]
      rw [hbytes]
      exact (execSigb_runs h).trans (by rw [if_neg (by simp [he])]; rfl)
    case wend => exact (execWend_runs h).trans (by rw [if_neg (by simp [he])]; rfl)
    case sigbWaits => exact (execSigb_runs h).trans (by rw [if_pos (by simpa using he)])
    case wendWaits => exact (execWend_runs h).trans (by rw [if_pos (by simpa using he)])
  case stop =>
    intro s cl k v cause st adr h
    exact ⟨fun he => walkStop_emitting h he cause st adr, fun he hs => walkStop_ends h he hs cause st adr⟩

end Sys2Proof.Proofs
end

section
/-! SUPPORT. The branches of the walker (R195, R200). -/
namespace Sys2Proof.Machine

variable {s : State} {cl : ClusterId} {k : Cmd} {v : Walker} {o : BitVec 15}

theorem walkJump_inside {t : Nat} (ht : (t : Int) = (v.pc : Int) + o.toInt) (hn : t < k.nwords) :
    walkJump s cl k v o = walkWent s cl v t := by
  simp only [walkJump, ← ht]
  rw [if_neg (by omega)]
  rfl

theorem walkJump_outside (ht : (v.pc : Int) + o.toInt < 0 ∨ (k.nwords : Int) ≤ (v.pc : Int) + o.toInt) :
    walkJump s cl k v o = walkStop s cl 4 stRange 0 := if_pos ht

/-- BCC branches where its condition holds, and goes on where it does not. -/
theorem execWbcc_runs {a b : WReg} {c : WCond} (h : WalkRuns s cl k v) : execWbcc a b c o s = .next
    (if WCond.holds c (v.get a) (v.get b) then walkJump s cl k v o else walkWent s cl v (v.pc + 1)) := walkExec_runs h _

theorem execWj_runs (h : WalkRuns s cl k v) : execWj o s = .next (walkJump s cl k v o) := walkExec_runs h _

/-- The condition that two doublewords meet (R200). -/
def WCond.compares (c : WCond) (a b : Dword) : Bool :=
  match c with
  | .eq => a == b
  | .ne => a != b
  | .lt => decide (a.toInt < b.toInt)
  | .ge => decide (b.toInt ≤ a.toInt)
  | .ltu => decide (a.toNat < b.toNat)
  | .geu => decide (b.toNat ≤ a.toNat)

theorem WCond.holds_eq_compares (c : WCond) (a b : Dword) : WCond.holds c a b = WCond.compares c a b := by
  cases c with
  | eq | ne | lt | ltu => rfl
  | ge => simp only [WCond.holds, WCond.compares, BitVec.slt, ← decide_not, Int.not_lt]
  | geu => simp only [WCond.holds, WCond.compares, BitVec.ult, ← decide_not, Nat.not_lt]

end Sys2Proof.Machine
end

section
/-! SUPPORT. LD and PREF (R189, R201, R202). -/
namespace Sys2Proof.Machine

variable {s : State} {cl : ClusterId} {k : Cmd} {v w : Walker} {d a : WReg} {z : BitVec 2} {i : BitVec 16} {adr line : Dword}

/-! ### LD (R201) -/

/-- A walker with a load of n bytes at an address that may be read: the value, where its line is buffered, or a request. -/
def walkLoad (s : State) (cl : ClusterId) (v : Walker) (d : WReg) (adr line : Dword) (n : Nat) : State :=
  match v.buf.find? (fun l => l.addr == line) with
  | some l => walkWent s cl { v.set d (BitVec.ofNat 64 (leNat ((l.data.drop (adr.toNat % 64)).take n))) with
      buf := l :: v.buf.filter (fun x => x.addr != line) } (v.pc + 1)
  | none =>
    if v.fetches.any (fun p => p.1 == line) then s.modWalker cl (fun _ => { v with
      fetches := v.fetches.map (fun p => if p.1 = line then (line, some adr) else p) })
    else if 32 ≤ v.fetches.length then s
    else s.modWalker cl (fun _ => v.request line (some adr))

/-- LD stops the walker at an address that may not be read; at another it goes on with its line, or waits for it. -/
theorem execWld_runs (h : WalkRuns s cl k v) (hadr : v.get a + i.signExtend 64 = adr) (hline : lineOf adr = line) :
    execWld d a z i s = .next
      (if adr.toNat % 2 ^ z.toNat ≠ 0 ∨ fld adr 63 61 = 4 ∨ fld adr 63 61 = 5 then walkStop s cl 1 stRange adr
       else walkLoad s cl v d adr line (2 ^ z.toNat)) := by
  subst hadr hline
  rw [execWld, walkExec_runs h, ← ite_or]
  exact congrArg Host.Outcome.next (if_congr or_comm rfl rfl)

theorem walkLoad_hit {l : WalkLine} {n : Nat} (hl : v.buf.find? (fun l => l.addr == line) = some l) :
    walkLoad s cl v d adr line n = walkWent s cl { v.set d (BitVec.ofNat 64 (leNat ((l.data.drop (adr.toNat % 64)).take n))) with
      buf := l :: v.buf.filter (fun x => x.addr != line) } (v.pc + 1) := by
  simp only [walkLoad, hl]

theorem walkLoad_miss {n : Nat} (hl : v.buf.find? (fun l => l.addr == line) = none) : walkLoad s cl v d adr line n =
    if v.fetches.any (fun p => p.1 == line) then s.modWalker cl (fun _ => { v with
      fetches := v.fetches.map (fun p => if p.1 = line then (line, some adr) else p) })
    else if 32 ≤ v.fetches.length then s
    else s.modWalker cl (fun _ => v.request line (some adr)) := by
  simp only [walkLoad, hl]

/-! ### PREF (R202) -/

/-- The walker with m lines from a first one on requested. -/
def Walker.prefetches (v : Walker) (line : Dword) (m : Nat) : Walker :=
  (List.range m).foldl (fun w i => w.prefetch (line + dw (64 * i))) v

theorem execWpref_runs (h : WalkRuns s cl k v) : execWpref d a i s =
    .next (walkWent s cl (v.prefetches (lineOf (v.get a + i.signExtend 64)) (d.toNat + 1)) (v.pc + 1)) :=
  walkExec_runs h _

/-- A line requested changes the lines that are awaited and those that are buffered, nothing else. -/
theorem Walker.prefetch_frame : ∃ f b, v.prefetch line = { v with fetches := f, buf := b } := by
  rw [Walker.prefetch]
  split <;> exact ⟨_, _, rfl⟩

theorem Walker.prefetch_awaits (h : (v.prefetch line).awaits adr = true) : v.awaits adr = true ∨ adr = line := by
  rw [Walker.prefetch] at h
  split at h
  · exact .inl h
  · simp only [Walker.awaits, Walker.request, List.any_append, List.any_cons, List.any_nil, Bool.or_false, Bool.or_eq_true,
      beq_iff_eq] at h
    exact h.imp_right Eq.symm

/-- No line is requested beyond 32 outstanding. -/
theorem Walker.prefetch_full (h : 32 ≤ v.fetches.length) : v.prefetch line = v := by
  rw [Walker.prefetch, if_pos (by simp [h])]

theorem Walker.prefetch_new (hb : v.buf.any (fun l => l.addr == line) = false) (ha : v.awaits line = false)
    (hf : v.fetches.length < 32) : (v.prefetch line).fetches = v.fetches ++ [(line, none)] := by
  rw [Walker.prefetch, if_neg (by simp [hb, ha, hf])]
  rfl

theorem Walker.prefetches_frame (m : Nat) : ∃ f b, v.prefetches line m = { v with fetches := f, buf := b } := by
  refine List.foldlRecOn (List.range m) _ (motive := fun u : Walker => ∃ f b, u = { v with fetches := f, buf := b })
    ⟨_, _, rfl⟩ ?_
  rintro _ ⟨f, b, rfl⟩ n -
  obtain ⟨_, _, hn⟩ := Walker.prefetch_frame (v := { v with fetches := f, buf := b }) (line := line + dw (64 * n))
  exact ⟨_, _, hn⟩

/-- What is awaited afterwards was awaited before, or is one of the lines. -/
theorem Walker.prefetches_awaits {m : Nat} (h : (v.prefetches line m).awaits adr = true) :
    v.awaits adr = true ∨ ∃ n < m, adr = line + dw (64 * n) := by
  refine List.foldlRecOn (List.range m) _
    (motive := fun u : Walker => u.awaits adr = true → v.awaits adr = true ∨ ∃ n < m, adr = line + dw (64 * n)) .inl ?_ h
  intro u ih n hn hu
  exact (Walker.prefetch_awaits hu).elim ih (fun hadr => .inr ⟨n, List.mem_range.1 hn, hadr⟩)

theorem Walker.prefetches_full (h : 32 ≤ v.fetches.length) (m : Nat) : v.prefetches line m = v := by
  refine List.foldlRecOn (List.range m) _ (motive := fun u : Walker => u = v) rfl ?_
  rintro _ rfl n -
  exact Walker.prefetch_full h

end Sys2Proof.Machine
end

section
/-! SUPPORT. The writes of the walker, ISECT and PART (R204 to R207). -/
namespace Sys2Proof.Machine

variable {s : State} {cl : ClusterId} {k : Cmd} {v w : Walker} {d a b e : WReg}

/-! ### What follows a write (R206) -/

/-- The stop of an instruction of a walker whose write has failed, if one has. -/
def Walker.writeStop (v : Walker) (f : Option (Byte × Dword)) : Option WalkStop := f.map (fun p => v.stopped 2 p.1 p.2)

/-- A write that fails stops the walker, which has changed as it would have without the failure. -/
theorem walkAfter_advance (h : w.stop = none) (f : Option (Byte × Dword)) (pc : Nat) : walkAfter s cl v (w.advance pc) f =
    if f.isSome then walkFinish (walkWent s cl { w with stop := v.writeStop f } pc) cl else walkWent s cl w pc := by
  have hstop : (w.advance pc).stop = none := h
  cases f with
  | none => rfl
  | some p =>
    simp only [walkAfter, modWalker_modWalker, Walker.halt_first hstop]
    rfl

/-! ### ISECT (R204) -/

/-- The pairs of ranks that ISECT writes. -/
theorem isectPairs_eq (x y cur : Dword) : isectPairs v x y cur =
    ((List.range 64).filter (fun i => (x &&& y).getLsbD i)).zipIdx.map (fun p => (cur + BitVec.ofNat 64 (8 * p.2),
      leBytes 8 ((fld (v.get 14) 31 0 + (List.range p.1).countP (fun n => y.getLsbD n)) % 2 ^ 32 * 2 ^ 32 +
        (fld (v.get 13) 31 0 + (List.range p.1).countP (fun n => x.getLsbD n)) % 2 ^ 32))) := by
  simp only [isectPairs, popcBelow_eq_countP]
  rfl

/-- The walker after an ISECT of n pairs: both ranks and the cursor have advanced, and the count is written (R204). -/
def Walker.intersected (v : Walker) (d a b e : WReg) : Walker :=
  let n := popc (v.get a &&& v.get b)
  (((v.set 13 (v.get 13 + BitVec.ofNat 64 (popc (v.get a)))).set 14 (v.get 14 + BitVec.ofNat 64 (popc (v.get b)))).set e
    (v.get e + BitVec.ofNat 64 (8 * n))).set d (BitVec.ofNat 64 n)

@[simp] theorem Walker.intersected_stop : (v.intersected d a b e).stop = v.stop := by simp [Walker.intersected]

theorem execIsect_refused (h : WalkRuns s cl k v) (hc : (v.get e).toNat % 8 ≠ 0 ∨ sideTarget cl k (v.get e) = false) :
    execIsect d a b e s = .next (walkStop s cl 2 stRange (v.get e)) := by
  rw [execIsect, walkExec_runs h, if_pos (by simpa using hc)]

theorem execIsect_writes {r : State × Option (Byte × Dword)} (h : WalkRuns s cl k v) (hal : (v.get e).toNat % 8 = 0)
    (hside : sideTarget cl k (v.get e) = true)
    (hem : emissionMeets k v.emis (v.get e) (8 * popc (v.get a &&& v.get b)) = false)
    (hsv : savedHeld s (walkRequester s k.core k.launch) (v.get e) (8 * popc (v.get a &&& v.get b)) = false)
    (hr : walkWrites k.id (walkRequester s k.core k.launch) (isectPairs v (v.get a) (v.get b) (v.get e)) (s, none) = r) :
    execIsect d a b e s = .next (walkAfter r.1 cl v ((v.intersected d a b e).advance (v.pc + 1)) r.2) := by
  have h14 (n : Dword) : (v.set 13 n).get 14 = v.get 14 := Walker.get_set_other (by decide)
  subst hr
  rw [execIsect, walkExec_runs h, if_neg (by simp [hal, hside]), if_neg (by simp [hem, hsv])]
  simp only [h14]
  rfl

/-! ### PART (R205) -/

/-- The first n entries of an array of pointers do not descend. -/
def Rising (l : List Nat) (n : Nat) : Prop := ∀ j, j + 1 < n → l.getD j 0 ≤ l.getD (j + 1) 0

theorem firstDescent_rising {l : List Nat} (h : Rising l l.length) (i : Nat) : firstDescent i l = none := by
  induction l generalizing i with
  | nil => rfl
  | cons x l ih =>
    cases l with
    | nil => rfl
    | cons y l =>
      have hxy : ¬ y < x := Nat.not_lt.2 (h 0 (by simp))
      rw [firstDescent, if_neg hxy]
      exact ih (fun j hj => h (j + 1) (Nat.succ_lt_succ hj)) (i + 1)

theorem firstDescent_descends {l : List Nat} {r : Nat} (h : Rising l (r + 1)) (hlen : r + 1 < l.length)
    (hd : l.getD (r + 1) 0 < l.getD r 0) (i : Nat) : firstDescent i l = some (i + (r + 1)) := by
  induction r generalizing l i with
  | zero =>
    match l, hlen with
    | x :: y :: l, _ => exact if_pos hd
  | succ r ih =>
    match l, hlen with
    | x :: y :: l, hlen =>
      have hxy : ¬ y < x := Nat.not_lt.2 (h 0 (by simp))
      rw [firstDescent, if_neg hxy, ih (fun j hj => h (j + 1) (Nat.succ_lt_succ hj)) (Nat.lt_of_succ_lt_succ hlen) hd]
      exact congrArg some (by omega)

/-- The checks of PART pass, and nothing holds it back. -/
structure PartClear (s : State) (cl : ClusterId) (k : Cmd) (v : Walker) (a b e : WReg) : Prop where
  reserved : fld (v.get b) 63 44 = 0 ∧ fld (v.get b) 31 24 = 0
  cursor : (v.get e).toNat % 4 = 0
  side : sideTarget cl k (v.get e) = true
  array : (v.get a).toNat % 4 = 0
  tag : fld (v.get a) 63 61 ≠ 4 ∧ fld (v.get a) 63 61 ≠ 5
  apart : emissionMeets k v.emis (v.get e) (4 * (fld (v.get b) 43 32 + 1 + 1)) = false
  restored : savedHeld s (walkRequester s k.core k.launch) (v.get e) (4 * (fld (v.get b) 43 32 + 1 + 1)) = false
  readable : accessHeld s (walkRequester s k.core k.launch) .read (v.get a) (4 * (fld (v.get b) 23 0 + 1 + 1)) = false

/-- The array of nr + 1 pointers at an address, as its command observes it (R148, R205). -/
def partRead (s : State) (k : Cmd) (adr : Dword) (nr : Nat) : State × List Byte × Option (Byte × Nat) :=
  readingFrom (unseenMem s k) s (fun t => readPrefix t (walkRequester s k.core k.launch) adr (pieces adr (4 * (nr + 1))))

/-- PART stops the walker at entry r of the array. -/
def partStop (s : State) (cl : ClusterId) (adr : Dword) (st : Byte) (r : Nat) : State :=
  walkFinish (s.modWalker cl (fun w => w.halt ⟨7, st, w.pc, BitVec.ofNat 64 r, adr + BitVec.ofNat 64 (4 * r)⟩)) cl

/-- The splits that PART writes for the pointers p (R205). -/
def partWrites (cur : Dword) (p : List Nat) (nr np : Nat) : List (Dword × List Byte) :=
  (partSplits p nr np).zipIdx.map (fun x => (cur + BitVec.ofNat 64 (4 * x.2), leBytes 4 x.1))

/-- What PART does with the array that it has read. -/
def partEnd (s : State) (cl : ClusterId) (k : Cmd) (v : Walker) (d a b e : WReg) : State :=
  let nr := fld (v.get b) 23 0 + 1
  let rd := partRead s k (v.get a) nr
  let p := ptrsOf rd.2.1
  match firstDescent 0 p, rd.2.2 with
  | some r, _ => partStop rd.1 cl (v.get a) stRange r
  | none, some (st, o) => partStop rd.1 cl (v.get a) st (o / 4)
  | none, none =>
    let r := walkWrites k.id (walkRequester s k.core k.launch) (partWrites (v.get e) p nr (fld (v.get b) 43 32 + 1)) (rd.1, none)
    walkAfter r.1 cl v ((v.set d (BitVec.ofNat 64 (p.getD nr 0 - p.headD 0))).advance (v.pc + 1)) r.2

theorem partEnd_descends {r : Nat}
    (hd : firstDescent 0 (ptrsOf (partRead s k (v.get a) (fld (v.get b) 23 0 + 1)).2.1) = some r) :
    partEnd s cl k v d a b e = partStop (partRead s k (v.get a) (fld (v.get b) 23 0 + 1)).1 cl (v.get a) stRange r := by
  simp only [partEnd, hd]

theorem partEnd_unreadable {st : Byte} {o : Nat}
    (hd : firstDescent 0 (ptrsOf (partRead s k (v.get a) (fld (v.get b) 23 0 + 1)).2.1) = none)
    (hf : (partRead s k (v.get a) (fld (v.get b) 23 0 + 1)).2.2 = some (st, o)) :
    partEnd s cl k v d a b e = partStop (partRead s k (v.get a) (fld (v.get b) 23 0 + 1)).1 cl (v.get a) st (o / 4) := by
  simp only [partEnd, hd, hf]

theorem partEnd_splits {rd : State × List Byte × Option (Byte × Nat)} {r : State × Option (Byte × Dword)}
    (hrd : partRead s k (v.get a) (fld (v.get b) 23 0 + 1) = rd) (hd : firstDescent 0 (ptrsOf rd.2.1) = none) (hf : rd.2.2 = none)
    (hr : walkWrites k.id (walkRequester s k.core k.launch)
      (partWrites (v.get e) (ptrsOf rd.2.1) (fld (v.get b) 23 0 + 1) (fld (v.get b) 43 32 + 1)) (rd.1, none) = r) :
    partEnd s cl k v d a b e = walkAfter r.1 cl v ((v.set d (BitVec.ofNat 64
      ((ptrsOf rd.2.1).getD (fld (v.get b) 23 0 + 1) 0 - (ptrsOf rd.2.1).headD 0))).advance (v.pc + 1)) r.2 := by
  subst hrd hr
  simp only [partEnd, hd, hf]

theorem execPart_refused (h : WalkRuns s cl k v) (hc : fld (v.get b) 63 44 ≠ 0 ∨ fld (v.get b) 31 24 ≠ 0 ∨
    (v.get e).toNat % 4 ≠ 0 ∨ sideTarget cl k (v.get e) = false) : execPart d a b e s = .next (walkStop s cl 7 stRange 0) := by
  rw [execPart, walkExec_runs h, if_pos (by simpa [or_assoc] using hc)]

theorem execPart_misplaced (h : WalkRuns s cl k v) (hr : fld (v.get b) 63 44 = 0 ∧ fld (v.get b) 31 24 = 0)
    (hcur : (v.get e).toNat % 4 = 0) (hside : sideTarget cl k (v.get e) = true)
    (ha : (v.get a).toNat % 4 ≠ 0 ∨ fld (v.get a) 63 61 = 4 ∨ fld (v.get a) 63 61 = 5) :
    execPart d a b e s = .next (walkStop s cl 7 stRange (v.get a)) := by
  rw [execPart, walkExec_runs h, if_neg (by simp [hr, hcur, hside]), if_pos (by simpa [or_assoc] using ha)]

theorem execPart_reads (h : WalkRuns s cl k v) (hc : PartClear s cl k v a b e) :
    execPart d a b e s = .next (partEnd s cl k v d a b e) := by
  rw [execPart, walkExec_runs h, if_neg (by simp [hc.reserved, hc.cursor, hc.side]), if_neg (by simp [hc.array, hc.tag]),
    if_neg (by simp [hc.apart, hc.restored])]
  simp only [hc.readable, Bool.false_eq_true, if_false]
  rfl

end Sys2Proof.Machine
end

section
/-! PROOF. The statement about branches, loads, ISECT and PART of the walker. -/
open Sys2Proof Sys2Proof.Machine
namespace Sys2Proof.Proofs

/-- Settles O35: a branch tests its target against the program, a load looks for its line in the buffer and then among those
awaited, and ISECT and PART make one sequence of writes, of which a failing one stops the walker as it has become. -/
theorem walkerAccesses : Obligations.WalkerAccesses := by
  refine ⟨?branches, ?loads, ?writes⟩
  case branches =>
    intro s cl k v a b c o h holds
    have hholds : WCond.holds c (v.get a) (v.get b) = holds := WCond.holds_eq_compares c _ _
    have hj : exec (.wj o) s = .next (walkJump s cl k v o) := execWj_runs h
    have hb := execWbcc_runs (a := a) (b := b) (c := c) (o := o) h
    rw [hholds] at hb
    refine ⟨fun t ht hn => ⟨?_, fun hc => ?_⟩, fun hc => ?_, fun hout => ⟨?_, fun hc => ?_⟩⟩
    · rw [hj, walkJump_inside ht hn]
    · exact hb.trans (by rw [if_pos hc, walkJump_inside ht hn])
    · exact hb.trans (by rw [hc]; rfl)
    · rw [hj, walkJump_outside hout]
      rfl
    · exact hb.trans (by rw [if_pos hc, walkJump_outside hout]; rfl)
  case loads =>
    intro s cl k v d a z i h adr line
    have hld : exec (.wld d a z i) s = .next
        (if adr.toNat % 2 ^ z.toNat ≠ 0 ∨ fld adr 63 61 = 4 ∨ fld adr 63 61 = 5 then walkStop s cl 1 stRange adr
         else walkLoad s cl v d adr line (2 ^ z.toNat)) := execWld_runs h rfl rfl
    refine ⟨fun hbad => ?refused, fun hal h4 h5 => ?load, ?pref⟩
    case refused =>
      rw [hld, if_pos hbad]
      rfl
    case load =>
      rw [if_neg (by simp only [not_or]; exact ⟨not_not.2 hal, h4, h5⟩)] at hld
      refine ⟨fun l hl => ⟨l :: v.buf.filter (fun x => x.addr != line), ?hit⟩,
        fun hl hw hf => ⟨v.request line (some adr), ?miss, rfl, rfl, rfl, rfl⟩, fun hl hw => ?awaited, fun hl hw hf => ?full⟩
      case hit => rw [hld, walkLoad_hit hl]
      case miss =>
        rw [hld, walkLoad_miss hl, hw, if_neg (by simp), if_neg (Nat.not_le.2 hf)]
      case awaited => rw [hld, walkLoad_miss hl, if_pos hw]
      case full => rw [hld, walkLoad_miss hl, hw, if_neg (by simp), if_pos hf]
    case pref =>
      refine ⟨v.prefetches line (d.toNat + 1), execWpref_runs h, ?_⟩
      obtain ⟨f, b, hframe⟩ := v.prefetches_frame (line := line) (d.toNat + 1)
      refine ⟨by rw [hframe], by rw [hframe], by rw [hframe], by rw [hframe], fun hd hb ha hf => ?_,
        fun hfull => Walker.prefetches_full hfull _, fun l hl hnew => ?_⟩
      · subst hd
        have hone : v.prefetches line ((0 : WReg).toNat + 1) = v.prefetch line := by
          simp [Walker.prefetches, dw]
        rw [hone, Walker.prefetch_new hb ha hf]
      · obtain ⟨n, hn, hln⟩ := (Walker.prefetches_awaits hl).resolve_left (by rw [Walker.awaits, hnew]; exact Bool.false_ne_true)
        exact ⟨n, Nat.le_of_lt_succ hn, hln⟩
  case writes =>
    intro s cl k v d a b e h A B cur q count n below stopOf
    refine ⟨fun hbad => execIsect_refused h hbad, fun hal hside hem hsv hstop => ?isect, fun hbad => execPart_refused h hbad,
      fun h1 h2 hcur hside ha => execPart_misplaced h ⟨h1, h2⟩ hcur hside ha, ?part⟩
    case isect =>
      intro pairs r u
      have hpairs : isectPairs v A B cur = pairs := isectPairs_eq A B cur
      have hu : v.intersected d a b e = u := by
        simp only [Walker.intersected, popc_eq_countP]
        rfl
      have hexec : exec (.isect d a b e) s = .next (walkAfter r.1 cl v (u.advance (v.pc + 1)) r.2) := by
        rw [← hu]
        exact execIsect_writes h hal hside (by rw [popc_eq_countP]; exact hem) (by rw [popc_eq_countP]; exact hsv) (by rw [hpairs])
      have hu_stop : u.stop = none := by rw [← hu, Walker.intersected_stop, hstop]
      rw [hexec, walkAfter_advance hu_stop]
      rfl
    case part =>
      intro np nr rd ptr h1 h2 hcur hside hal h4 h5 hem hsv hheld hstop stopAt rising
      have hclear : PartClear s cl k v a b e := ⟨⟨h1, h2⟩, hcur, hside, hal, ⟨h4, h5⟩, hem, hsv, hheld⟩
      have hpart : exec (.part d a b e) s = _ := execPart_reads h hclear
      refine ⟨fun r hr hpos hlen hd => ?descends, fun st o hr hf => ?unreadable, fun hr hf => ?splits⟩
      case descends =>
        obtain ⟨r, rfl⟩ := Nat.exists_eq_add_of_lt hpos
        have hfirst : firstDescent 0 ptr = some (0 + (0 + r + 1)) := firstDescent_descends hr hlen hd 0
        rw [Nat.zero_add] at hfirst
        rw [hpart, partEnd_descends hfirst]
        rfl
      case unreadable =>
        rw [hpart, partEnd_unreadable (firstDescent_rising hr 0) hf]
        rfl
      case splits =>
        intro total split r u
        have hu_stop : u.stop = none := by rw [Walker.set_stop, hstop]
        have hend : partEnd s cl k v d a b e = walkAfter r.1 cl v (u.advance (v.pc + 1)) r.2 :=
          partEnd_splits rfl (firstDescent_rising hr 0) hf rfl
        rw [hpart, hend, walkAfter_advance hu_stop]
        rfl

end Sys2Proof.Proofs
end

section
/-! SUPPORT. The start of a walk (R188, R193). -/
namespace Sys2Proof.Machine

variable {s : State} {cl : ClusterId} {k : Cmd} {v : Walker}

/-- The image that a command runs from: its ASID, its address and its length (R188). -/
def programTag (s : State) (k : Cmd) : Option (BitVec 6 × Dword × Nat) :=
  some ((walkRequester s k.core k.launch).asid, k.op 0, k.nwords)

/-- The walker at the start of a command, before its image and its registers are there. -/
def Walker.starting (v : Walker) (k : Cmd) : Walker :=
  { v.idle with
    cmd := some k.id
    queue := v.queue.filter (fun c => c != k.id)
    resume := v.resume.filter (fun r => r.cmd != k.id)
    pc := k.entry
    count := 0 }

/-- What the start of a command comes to with its image, or with the failure of its load. -/
def walkStarted (cl : ClusterId) (k : Cmd) (tag : Option (BitVec 6 × Dword × Nat))
    (r : State × Except (Byte × Dword) (List Word)) : State :=
  match r.2 with
  | .error (st, a) =>
    walkFinish (r.1.modWalker cl (fun w => { w with tag := none, prog := [] }.halt ⟨6, st, k.entry, w.get 15, a⟩)) cl
  | .ok p => walkBegin (r.1.modWalker cl (fun w => { w with tag := tag, prog := p })) cl k none

theorem walkStarted_ok (tag : Option (BitVec 6 × Dword × Nat)) (p : List Word) : walkStarted cl k tag (s, .ok p) =
    walkBegin (s.modWalker cl (fun w => { w with tag := tag, prog := p })) cl k none := rfl

theorem walkStarted_error (tag : Option (BitVec 6 × Dword × Nat)) (st : Byte) (a : Dword) :
    walkStarted cl k tag (s, .error (st, a)) = walkFinish (s.modWalker cl (fun w =>
      { w with tag := none, prog := [] }.halt ⟨6, st, k.entry, w.get 15, a⟩)) cl := rfl

/-- The head of the queue of a walker without a command, which no pre-emption has stopped. -/
structure WalkStarts (s : State) (cl : ClusterId) (k : Cmd) (v : Walker) : Prop where
  walker : s.walker cl = v
  idle : v.cmd = none
  head : walkHead s v = some k
  fresh : v.resume.find? (fun r => r.cmd == k.id) = none

/-- A command whose program is to be loaded waits where that access waits. -/
theorem execWalkerCommandStart_held (h : WalkStarts s cl k v) (hload : (v.tag == programTag s k && !k.reload) = false)
    (hheld : accessHeld s (walkRequester s k.core k.launch) .read (k.op 0) (4 * k.nwords) = true) :
    execWalkerCommandStart cl s = .next s := by
  rw [programTag] at hload
  simp only [execWalkerCommandStart, h.walker, h.idle, h.head, hload, hheld, Bool.not_false, Bool.and_self, if_true]
  rfl

/-- A command starts with the resident image where it may be kept, and with a loaded one where nothing holds its load back. -/
theorem execWalkerCommandStart_starts {keep : Bool} (h : WalkStarts s cl k v)
    (hkeep : (v.tag == programTag s k && !k.reload) = keep)
    (hfree : keep = false → accessHeld s (walkRequester s k.core k.launch) .read (k.op 0) (4 * k.nwords) = false) :
    execWalkerCommandStart cl s = .next (walkStarted cl k (programTag s k)
      (walkImage (s.modWalker cl (fun _ => v.starting k)) k keep v.prog)) := by
  have hu : s.modWalker cl (fun _ => v.starting k) = s.modWalker cl (fun w => w.starting k) :=
    modWalker_congr (by rw [h.walker])
  have hgo : (!keep && accessHeld s (walkRequester s k.core k.launch) .read (k.op 0) (4 * k.nwords)) = false := by
    cases keep <;> simp [hfree]
  rw [programTag] at hkeep
  rw [hu]
  simp only [execWalkerCommandStart, h.walker, h.idle, h.head, h.fresh, hkeep, hgo, Bool.false_eq_true, if_false, walkStarted,
    Walker.starting, programTag]
  generalize walkImage _ k keep v.prog = image
  obtain ⟨t, _ | _⟩ := image
  · rfl
  · rfl

theorem walkImage_loaded {bs : List Byte} (h : (loadProgram s k).2 = .ok bs) (old : List Word) :
    walkImage s k false old = ((loadProgram s k).1, .ok (wordsOf bs)) := by
  rw [walkImage, if_neg Bool.false_ne_true]
  generalize loadProgram s k = r at h ⊢
  obtain ⟨t, o⟩ := r
  subst h
  rfl

theorem walkImage_failed {e : Byte × Dword} (h : (loadProgram s k).2 = .error e) (old : List Word) :
    walkImage s k false old = ((loadProgram s k).1, .error e) := by
  rw [walkImage, if_neg Bool.false_ne_true]
  generalize loadProgram s k = r at h ⊢
  obtain ⟨t, o⟩ := r
  subst h
  rfl

/-- A command whose image is resident starts with it. -/
theorem execWalkerCommandStart_resident (h : WalkStarts s cl k v) (hreload : k.reload = false) (htag : v.tag = programTag s k) :
    execWalkerCommandStart cl s = .next (walkBegin (s.modWalker cl (fun _ => v.starting k)) cl k none) := by
  have hsame : (s.modWalker cl (fun _ => v.starting k)).modWalker cl (fun w => { w with tag := v.tag, prog := v.prog }) =
      s.modWalker cl (fun _ => v.starting k) := modWalker_modWalker _ _
  have hkeep : (v.tag == programTag s k && !k.reload) = true := by simp [hreload, htag]
  have hstart := execWalkerCommandStart_starts h hkeep nofun
  rw [← htag] at hstart
  exact hstart.trans (congrArg (fun u => Host.Outcome.next (walkBegin u cl k none)) hsame)

/-- A reading depends on what it makes of the state over the memory that it reads. -/
theorem readingFrom_congr {α : Type} {m : Memory} {f g : State → State × α} (h : f { s with mem := m } = g { s with mem := m }) :
    readingFrom m s f = readingFrom m s g := by
  rw [readingFrom, readingFrom, h]

/-- The program is read for the launch of the command, over whatever memory. -/
theorem loadProgram_eq : loadProgram s k = readingFrom (unseenMem s k) s (fun t =>
    readLines t (walkRequester s k.core k.launch) (k.op 0) (pieces (k.op 0) (4 * k.nwords))) := readingFrom_congr rfl

/-- The registers of a command that starts are those of its argument block, where that can be read. -/
theorem walkBegin_reads {f : Walker → Walker} (hf : readFails s (cmdPlace s k k.argsOff) 64 = false) :
    walkBegin (s.modWalker cl f) cl k none =
      s.modWalker cl (fun w => { f w with w := argRegs (seenBytes s k (cmdPlace s k k.argsOff) 64) }) := by
  rw [← modWalker_modWalker (g := fun w => { w with w := argRegs (seenBytes s k (cmdPlace s k k.argsOff) 64) })]
  exact if_neg (by rw [Bool.not_eq_true]; exact hf)

/-- An argument block that cannot be read stops the command at its entry (R194). -/
theorem walkBegin_unreadable (hf : readFails s (cmdPlace s k k.argsOff) 64 = true) (hs : (s.walker cl).stop = none) :
    walkBegin s cl k none = walkFinish (s.modWalker cl (fun w => { w with stop := some ⟨Config.argumentCause k.id,
      stUncorrectable, k.entry, w.get 15, sideLqa k.core (cmdBase s k + k.argsOff)⟩ })) cl :=
  (if_pos hf).trans (congrArg (walkFinish · cl) (modWalker_congr (Walker.halt_first hs)))

end Sys2Proof.Machine
end

section
/-! SUPPORT. Lines that arrive, emissions that complete, and the stops of a running walk (R195, R197, R201, R208). -/
namespace Sys2Proof.Machine

variable {s : State} {cl : ClusterId} {k : Cmd} {v : Walker} {line : Dword}

/-- What the answer to a request for a line does: the line is buffered, or its failure stops the LD that waits for it. -/
def lineArrived (s : State) (cl : ClusterId) (line : Dword) (want : Option Dword) : Except Fail (List Byte) → State
  | .ok bs => s.modWalker cl (fun w => { w with buf := ⟨line, bs⟩ :: w.buf })
  | .error f => want.elim s (walkStop s cl 1 f.status)

/-- The answer to the request for a line, as the command observes memory (R148). -/
def lineRead (s : State) (k : Cmd) (line : Dword) : State × Except Fail (List Byte) :=
  readingFrom (unseenMem s k) s (fun t => readAddr t (walkRequester t k.core k.launch) line 64)

theorem lineRead_eq : lineRead s k line = readingFrom (unseenMem s k) s (fun t =>
    readAddr t (walkRequester s k.core k.launch) line 64) := readingFrom_congr rfl

theorem execWalkerLoadData_arrives {want : Option Dword} (hk : walkCmd s cl = some k)
    (hf : (s.walker cl).fetches.find? (fun p => p.1 == line) = some (line, want))
    (hheld : accessHeld s (walkRequester s k.core k.launch) .read line 64 = false) :
    execWalkerLoadData cl line s = .next (lineArrived ((lineRead s k line).1.modWalker cl
      (fun w => { w with fetches := w.fetches.filter (fun p => p.1 != line) })) cl line want (lineRead s k line).2) := by
  simp only [execWalkerLoadData, hk, hf, hheld, Bool.false_eq_true, if_false, lineRead]
  split <;> next hr => simp only [hr, lineArrived, Option.elim]

/-- What an emission whose lines are written leaves: its bytes are credited, and it is no longer in flight (R208). -/
def emitted (s : State) (cl : ClusterId) (k : Cmd) (m : Emission) : State :=
  (if m.credit = 0 then s else walkCredit s cl k m.credit).modWalker cl
    (fun w => { w with emis := w.emis.filter (fun e => e.id != m.id) })

theorem execWalkerEmissionComplete_free {m : Emission} {t : State} {f : Option (Byte × Dword)} (hk : walkCmd s cl = some k)
    (hm : (s.walker cl).emis.find? (fun e => e.id == m.id) = some m)
    (hmeet : emissionMeets k ((s.walker cl).emis.takeWhile (fun e => e.id != m.id)) m.dst ((m.rows - 1) * m.drs + m.bytes) = false)
    (hheld : lineHeld s (walkRequester s k.core k.launch) m.lines = false)
    (hr : emitLines k (walkRequester s k.core k.launch) m.lines (s, none) = (t, f)) :
    execWalkerEmissionComplete cl m.id s = .next (walkFinish (f.elim (emitted t cl k m)
      (fun p => (emitted t cl k m).modWalker cl (fun w => w.halt ⟨2, p.1, m.pc, m.elem, p.2⟩))) cl) := by
  simp only [execWalkerEmissionComplete, hk, hm, hmeet, hheld, hr, Bool.false_eq_true, if_false]
  cases f <;> rfl

theorem execIllegalWalkerWord_stops {x : Word} (hk : walkCmd s cl = some k) (hx : (s.walker cl).prog[(s.walker cl).pc]? = some x)
    (hd : decodeWalker x = none) : execIllegalWalkerWord cl s = .next (walkStop s cl 3 stRange 0) := by
  simp only [execIllegalWalkerWord, hk, hx, hd, Option.isSome_none, Bool.false_eq_true, if_false]

theorem execWalkerInstructionLimit_stops (hk : walkCmd s cl = some k) (hn : 2 ^ 32 ≤ (s.walker cl).count) :
    execWalkerInstructionLimit cl s = .next (walkStop s cl 5 stRange 0) := by
  simp only [execWalkerInstructionLimit, hk]
  exact if_pos hn

end Sys2Proof.Machine
end

section
/-! PROOF. The statement about the events of a walker. -/
open Sys2Proof Sys2Proof.Machine
namespace Sys2Proof.Proofs

/-- Settles O43: a command starts with its image, resident or loaded, and then with its argument block, each of which may fail;
a line, an emission and the stops of a running walk are one update of its walker each. -/
theorem walkerEvents : Obligations.WalkerEvents := by
  intro s cl k v hw
  refine ⟨fun hc hk hres => ?start, fun hc hk hres hreload htag hreads => ?resident, fun hc hk => ?running⟩
  case start =>
    intro q tag u r place
    have h : WalkStarts s cl k v := ⟨hw, hc, hk, hres⟩
    refine ⟨fun hload => ?load, fun hreload htag hreads => ?unreadable⟩
    case load =>
      have hkeep : (v.tag == programTag s k && !k.reload) = false := by
        rcases hload with h | h
        · simp [h]
        · have htag : (v.tag == programTag s k) = false := beq_eq_false_iff_ne.2 h
          rw [htag, Bool.false_and]
      refine ⟨execWalkerCommandStart_held h hkeep, fun hheld => ?_⟩
      have hstart : exec (.walkerCommandStart cl) s = .next (walkStarted cl k tag (walkImage u k false v.prog)) :=
        execWalkerCommandStart_starts h hkeep (fun _ => hheld)
      have hload : loadProgram u k = r := loadProgram_eq
      refine ⟨fun bs hr hreads => ?_, fun st a hr => ?_⟩
      · rw [hstart, walkImage_loaded (by rw [hload, hr]), hload, walkStarted_ok, walkBegin_reads hreads]
      · rw [hstart, walkImage_failed (by rw [hload, hr]), hload, walkStarted_error]
    case unreadable =>
      have hstart : exec (.walkerCommandStart cl) s = .next (walkBegin u cl k none) :=
        execWalkerCommandStart_resident h hreload htag
      have hstop : (u.walker cl).stop = none := by rw [walker_modWalker]
      rw [hstart, walkBegin_unreadable (s := u) hreads hstop]
      rfl
  case resident =>
    have hstart := execWalkerCommandStart_resident ⟨hw, hc, hk, hres⟩ hreload htag
    rw [walkBegin_reads hreads] at hstart
    exact hstart
  case running =>
    subst hw
    have hcmd : walkCmd s cl = some k := walkCmd_of hc hk
    refine ⟨fun line want hf hheld => ?line, fun m hm hmeet hheld => ?emission, fun x hx hd => ?illegal, fun hn => ?limit⟩
    case line =>
      intro r u
      have hread : lineRead s k line = r := lineRead_eq
      have hexec : exec (.walkerLoadData cl line) s = .next (lineArrived u cl line want r.2) := by
        rw [exec_walkerLoadData, execWalkerLoadData_arrives hcmd hf hheld, hread]
      refine ⟨fun bs hr => ?_, fun f a hr ha => ?_, fun f hr ha => ?_⟩
      · rw [hexec, hr]
        rfl
      · rw [hexec, hr, ha]
        rfl
      · rw [hexec, hr, ha]
        rfl
    case emission =>
      intro r t
      have hexec := execWalkerEmissionComplete_free hcmd hm hmeet hheld (show _ = (r.1, r.2) from rfl)
      refine hexec.trans ?_
      cases r.2 <;> rfl
    case illegal => exact execIllegalWalkerWord_stops hcmd hx hd
    case limit => exact execWalkerInstructionLimit_stops hcmd hn

end Sys2Proof.Proofs
end

section
/-! SUPPORT. The issue of a network command (R437 to R443). -/
namespace Sys2Proof.Machine

variable {s : State} {r : RowId} {x y : Row} {w : Band} {d a b : Reg} {i : Instr} {n : Nat} {fence : Bool}
  {after : State → Cmd → State}

/-- The request of a network instruction at entry. -/
theorem netRequest_entry {o : Option Byte} (hx : s.row? r = some x) (hy : (flushPosted s r).row? r = some y)
    (ho : netCheck (flushPosted s r) (issuedCmd (flushPosted s r) r x w .nw i a 0 [] []) w.wsize = o) :
    let c := entryCtx s r x y w d a b
    netRequest i a c = (⟨.nw, i, c.group a, 0, [], if o.isSome then [] else
      netRanges (issuedCmd (flushPosted s r) r x w .nw i a 0 [] []) w.wbase⟩, o) := by
  intro c
  subst ho
  have hcmd : c.command ⟨.nw, i, c.group a, 0, [], []⟩ = issuedCmd (flushPosted s r) r x w .nw i a 0 [] [] :=
    entryCtx_command hx hy i 0 [] []
  have hs : c.s = flushPosted s r := rfl
  have hband : c.band = w := rfl
  simp only [netRequest, hcmd, hs, hband]
  cases netCheck (flushPosted s r) (issuedCmd (flushPosted s r) r x w .nw i a 0 [] []) w.wsize <;> rfl

/-- A fence holds back no row that waits for nothing at a delivery point (R99, R443). -/
theorem engineIssue_fence {c : Ctx} {cls : BClass} {make : Ctx → CmdReq × Option Byte} (h : fence = true → Undisturbed c.x) :
    c.engineIssue cls make fence after = c.engineIssue cls make false after := by
  cases fence with
  | false => rfl
  | true => simp only [Ctx.engineIssue, deliver_undisturbed (h rfl), if_true, Bool.false_eq_true, if_false]

/-- A network instruction whose group is ready issues its command. -/
theorem issueNet_issues {v : State} (hi : Issues s r x w accSchd false (fSca d) (fSca a) fNone d a 0)
    (hg : groupReady x a n) (hf : fence = true → Undisturbed x)
    (h : (ctxOf s r x w d a 0).engineIssue .nw (netRequest i a) false after = .ok (.done v)) :
    issueNet s i d a n fence after = .next (completed v r) := by
  have hgroup : (ctxOf s r x w d a 0).needGroup a n = .ok () := needGroup_ready hg
  rw [issueNet, issue_ready hi, hgroup, exceptOkBind, engineIssue_fence hf, h]
  rfl

/-- A network command whose checks pass enters the queue with its ranges; one that fails a check retires at once. -/
theorem issueNet_ready (hi : Issues s r x w accSchd false (fSca d) (fSca a) fNone d a 0) (he : EngineReady s r x y w .nw d)
    (hg : groupReady x a n) (hf : fence = true → Undisturbed x) :
    let t := flushPosted s r
    let k0 := issuedCmd t r x w .nw i a 0 [] []
    let k := issuedCmd t r x w .nw i a 0 [] (netRanges k0 w.wbase)
    (netCheck t k0 w.wsize = none → sbRoom t (netRanges k0 w.wbase) = true →
      issueNet s i d a n fence after = .next (completed (after (entered t r y w d k) k) r)) ∧
    (∀ st, netCheck t k0 w.wsize = some st → sbRoom t [] = true →
      issueNet s i d a n fence after = .next (completed (retireCmd (entered t r y w d k0) k0 st 0) r)) := by
  intro t k0 k
  refine ⟨fun hpass hroom => issueNet_issues hi hg hf ?_, fun st hfail hroom => issueNet_issues hi hg hf ?_⟩
  · exact engineIssue_ready he (netRequest_entry hi.row he.row hpass) hroom (entryCtx_command hi.row he.row i 0 [] _)
  · exact engineIssue_ready he (netRequest_entry hi.row he.row hfail) hroom (entryCtx_command hi.row he.row i 0 [] _)

end Sys2Proof.Machine
end

section
/-! SUPPORT. The checks of a network command (R121, R123, R435, R438, R439, R441 to R443). -/
namespace Sys2Proof.Machine

variable {s : State} {k : Cmd} {a : Dword} {n w : Nat} {dev : BitVec 12} {R range bad out link : Prop} {c : Option Byte} {away : Bool}

/-- Another device is away where its route names none of the twelve ports (R435). -/
theorem deviceAway_iff : deviceAway s dev = true ↔
    dev ≠ s.net.devid ∧ ∀ m, m < 12 → (s.net.route.find? (fun r => r.1 == dev.toNat)).map (fun r => r.2.toNat) ≠ some m := by
  have hport : (routePort s dev).isNone = true ↔
      ∀ m, m < 12 → (s.net.route.find? (fun r => r.1 == dev.toNat)).map (fun r => r.2.toNat) ≠ some m := by
    unfold routePort
    simp only []
    cases s.net.route.find? (fun r => r.1 == dev.toNat) with
    | none => simp
    | some p =>
      simp only [Option.isNone_iff_eq_none, ite_eq_right_iff, reduceCtorEq, imp_false, not_lt, Option.map_some, ne_eq,
        Option.some.injEq]
      exact ⟨fun h m hm hp => absurd h (by omega), fun h => Nat.not_lt.1 (fun hlt => h _ hlt rfl)⟩
  rw [deviceAway, Bool.and_eq_true, bne_iff_ne, hport]

/-- A local operand is RANGE by its tag or its fields, or else PERMISSION outside the windows of the launch (R121, R123). -/
theorem localCheck_answers : Answers (localCheck s k a n)
    (4 ≤ fld (resolveTag k.core a) 63 61 ∨ tagOk (resolveTag k.core a) n = false) (outsideWindow s k.core k.launch a n = true) :=
  answers_of_ite (by simp only [Bool.or_eq_true, decide_eq_true_eq, Bool.not_eq_true']) Iff.rfl

/-- The check that follows another answers where that one passes. -/
theorem Answers.or_eq {e : Option Byte} (h : Answers c bad out) :
    (bad → c.or e = some stRange) ∧ (¬ bad → out → c.or e = some stPermission) ∧ (¬ bad → ¬ out → c.or e = e) := by
  obtain ⟨hbad, hout, hnone⟩ := h
  exact ⟨fun h => by rw [hbad h, Option.some_or], fun h ho => by rw [hout h ho, Option.some_or],
    fun h ho => by rw [hnone h ho, Option.none_or]⟩

/-- A check answers RANGE, or else PERMISSION, or else LINK, or none. -/
def NetAnswers (check : Option Byte) (range permission link : Prop) : Prop :=
  (range → check = some stRange) ∧ (¬ range → permission → check = some stPermission) ∧
    (¬ range → ¬ permission → link → check = some stLink) ∧ (¬ range → ¬ permission → ¬ link → check = none)

/-- The checks of the group come first, then those of the local operand, then that of the device. -/
theorem netAnswers_of_answers [Decidable R] (hR : R ↔ range) (hc : Answers c bad out) (hl : away = true ↔ link) :
    NetAnswers (if R then some stRange else c.or (if away then some stLink else none)) (range ∨ bad) out link := by
  obtain ⟨hbad, hout, hnone⟩ := hc.or_eq (e := if away then some stLink else none)
  rw [← hR, ← hl]
  refine ⟨fun h => ?_, fun h ho => ?_, fun h ho hw => ?_, fun h ho hw => ?_⟩
  · by_cases hr : R
    · rw [if_pos hr]
    · rw [if_neg hr, hbad (h.resolve_left hr)]
  · obtain ⟨hr, hb⟩ := not_or.1 h
    rw [if_neg hr, hout hb ho]
  · obtain ⟨hr, hb⟩ := not_or.1 h
    rw [if_neg hr, hnone hb ho, if_pos hw]
  · obtain ⟨hr, hb⟩ := not_or.1 h
    rw [if_neg hr, hnone hb ho, if_neg hw]

/-- The fields of DEV and CH that are reserved are not zero (R438, R443). -/
def Cmd.farReserved (k : Cmd) : Prop := fld (k.op 2) 63 60 ≠ 0 ∨ fld (k.op 2) 47 42 ≠ 0
/-- The operands or the length of a network command are no multiples of 4 (R438, R441). -/
def Cmd.netOdd (k : Cmd) : Prop := (k.op 0).toNat % 4 ≠ 0 ∨ (k.op 1).toNat % 4 ≠ 0 ∨ k.bytes % 4 ≠ 0
/-- Local operand i of a network command is RANGE (R121, R439). -/
def Cmd.localBad (k : Cmd) (i : Nat) : Prop :=
  4 ≤ fld (resolveTag k.core (k.op i)) 63 61 ∨ tagOk (resolveTag k.core (k.op i)) k.bytes = false
/-- The device of a network command cannot be reached (R435). -/
def deviceLost (s : State) (dev : BitVec 12) : Prop :=
  dev ≠ s.net.devid ∧ ∀ m, m < 12 → (s.net.route.find? (fun r => r.1 == dev.toNat)).map (fun r => r.2.toNat) ≠ some m

theorem netCheck_nput {d a : Reg} (hi : k.instr = .nput d a) : NetAnswers (netCheck s k w)
    ((k.farReserved ∨ fld (k.op 2) 39 24 ≠ 0 ∨ fld (k.op 1) 63 52 ≠ 0 ∨ fld (k.op 3) 63 52 ≠ 0 ∨ k.netOdd ∨
      (k.op 3).toNat % 8 ≠ 0) ∨ k.localBad 0)
    (outsideWindow s k.core k.launch (k.op 0) k.bytes = true) (deviceLost s k.dev) := by
  unfold netCheck
  simp only [hi, ← ite_or]
  refine netAnswers_of_answers ?_ localCheck_answers deviceAway_iff
  simp only [Cmd.farReserved, Cmd.netOdd, Bool.or_eq_true, decide_eq_true_eq, or_assoc]

theorem netCheck_nget {d a : Reg} {bar : Bool} (hi : k.instr = .nget d a bar) : NetAnswers (netCheck s k w)
    ((k.farReserved ∨ fld (k.op 2) 39 24 ≠ 0 ∨ fld (k.op 1) 63 52 ≠ 0 ∨ fld (k.op 3) 63 62 ≠ 0 ∨ fld (k.op 3) 55 0 ≠ 0 ∨ k.netOdd) ∨
      k.localBad 0)
    (outsideWindow s k.core k.launch (k.op 0) k.bytes = true) (deviceLost s k.dev) := by
  unfold netCheck
  simp only [hi, ← ite_or]
  refine netAnswers_of_answers ?_ localCheck_answers deviceAway_iff
  simp only [Cmd.farReserved, Cmd.netOdd, Bool.or_eq_true, decide_eq_true_eq, or_assoc]

theorem netCheck_nsig {d a : Reg} {st : Bool} (hi : k.instr = .nsig d a st) : NetAnswers (netCheck s k w)
    ((k.farReserved ∨ fld (k.op 2) 39 0 ≠ 0 ∨ slotAddrOk (k.op 0) = false) ∨ False) False (deviceLost s k.dev) := by
  have hlocal : Answers none False False := ⟨nofun, nofun, fun _ _ => rfl⟩
  unfold netCheck
  simp only [hi]
  refine netAnswers_of_answers ?_ hlocal deviceAway_iff
  simp only [Cmd.farReserved, Bool.or_eq_true, decide_eq_true_eq, Bool.not_eq_true', or_assoc]

/-- The group of an NRED, or its alignments, or FLAG are RANGE (R441, R442). The window of FLAG is the model's choice (log
entry 55). -/
def Cmd.nredBad (k : Cmd) (w : Nat) : Prop :=
  fld (k.op 2) 59 48 ≠ 0 ∨ fld (k.op 2) 31 24 ≠ 0 ∨ fld (k.op 3) 63 20 ≠ 0 ∨ k.netOdd ∨ k.flagOff % 8 ≠ 0 ∨ w < k.flagOff + 8

/-- The reduction group that bits 63:60 name (R442). -/
theorem reductionGroup_eq : s.net.grp0[fld (k.op 2) 63 60]?.getD 0 = (nredGroup s k).1 := by
  have hgroup : k.group.val = fld (k.op 2) 63 60 := by
    simp [Cmd.group, fld, Nat.shiftRight_eq_div_pow]
  rw [← hgroup, Vector.getElem?_eq_getElem k.group.isLt, Option.getD_some]
  rfl

/-- After its group, the checks of an NRED are those of SRC, of DST and of its reduction group, in this order. -/
theorem netCheck_nred {d a : Reg} {p : SredOp} (hi : k.instr = .nred d a p) :
    (k.nredBad w → netCheck s k w = some stRange) ∧
    (¬ k.nredBad w → netCheck s k w = (localCheck s k (k.op 0) k.bytes).or ((localCheck s k (k.op 1) k.bytes).or
      (if tst (nredGroup s k).1 31 then none else some stRange))) := by
  unfold netCheck
  simp only [hi, ← ite_or]
  refine ⟨fun hb => if_pos ?_, fun hb => (if_neg ?_).trans ?_⟩
  · simpa only [Cmd.nredBad, Cmd.netOdd, Bool.or_eq_true, decide_eq_true_eq, or_assoc] using hb
  · simpa only [Cmd.nredBad, Cmd.netOdd, Bool.or_eq_true, decide_eq_true_eq, or_assoc] using hb
  · cases localCheck s k (k.op 0) k.bytes <;> cases localCheck s k (k.op 1) k.bytes <;> rfl

end Sys2Proof.Machine
end

section
/-! SUPPORT. The issue and the checks of WKST (R122, R190 to R192). -/
namespace Sys2Proof.Machine

variable {s : State} {r : RowId} {x y : Row} {w : Band} {d a b : Reg} {rl bar : Bool} {k : Cmd} {n : Nat}

/-- The state in which a row no longer waits to enter the walker queue of its core (R192). -/
def leaveWalkQueue (s : State) (r : RowId) : State :=
  s.modCore r.core (fun k => { k with walkQ := k.walkQ.filter (fun q => q != r) })

/-- The ranges of a walk: its argument block and its status record (R160, R190). -/
def walkRanges (r : RowId) (w : Band) (k : Cmd) : List SbRange :=
  [wideRange r.core false (w.wbase + k.argsOff) (w.wbase + k.argsOff + 64),
    wideRange r.core true (w.wbase + k.walkStat) (w.wbase + k.walkStat + 32)]

/-- The command that a request of the row becomes is the same before its posted writes are performed. -/
theorem ctxOf_command {cls : BClass} (hx : s.row? r = some x) (i : Instr) :
    (ctxOf s r x w d a b).command ⟨cls, i, (ctxOf s r x w d a b).group a, 0, [], []⟩ =
      issuedCmd (flushPosted s r) r x w cls i a 0 [] [] := by
  rw [flushPosted_eq hx]
  rfl

/-- The request of WKST at entry. -/
theorem walkRequest_entry {o : Option Byte} {i : Instr} (hx : s.row? r = some x) (hy : (flushPosted s r).row? r = some y)
    (ho : walkCheck (issuedCmd (flushPosted s r) r x w .wk i a 0 [] []) w.wsize = o) :
    let c := entryCtx s r x y w d a b
    walkRequest i a c = (⟨.wk, i, c.group a, 0, [], if o.isSome then [] else
      walkRanges r w (issuedCmd (flushPosted s r) r x w .wk i a 0 [] [])⟩, o) := by
  intro c
  subst ho
  have hcmd : c.command ⟨.wk, i, c.group a, 0, [], []⟩ = issuedCmd (flushPosted s r) r x w .wk i a 0 [] [] :=
    entryCtx_command hx hy i 0 [] []
  have hband : c.band = w := rfl
  delta walkRequest
  simp only [hcmd, hband]
  cases walkCheck (issuedCmd (flushPosted s r) r x w .wk i a 0 [] []) w.wsize <;> rfl

/-- What WKST does with the issue of its command k, whose failed check is bad (R191, R192). -/
def walkIssued (s : State) (r : RowId) (k : Cmd) (n : Nat) (bad : Option Byte) (e : Except Stop Act) : Except Stop Act :=
  match bad, e with
  | some _, .ok (.done t) => .ok (.done (walkReject t k n))
  | _, .error (.wait 7 dom) => .ok (.hold (queueWalk s r) 7 dom)
  | _, e => e

theorem walkIssued_done {v : State} (bad : Option Byte) : walkIssued s r k n bad (.ok (.done v)) =
    .ok (.done (if bad.isSome then walkReject v k n else v)) := by
  cases bad <;> rfl

/-- The walker queue of the row's cluster with a command entered (R192). -/
def enterWalkQueue (r : RowId) (s : State) (k : Cmd) : State :=
  s.modWalker (clusterOf r.core) (fun v => { v with queue := v.queue ++ [k.id] })

/-- What WKST does once its command has come to v: one that fails its checks leaves its record and releases its slot (R191). -/
theorem execWkst_issues {v : State} (hi : Issues s r x w accSchd false (fSca d) (fSca a) fNone d a 0) (hg : groupReady x a 4)
    (hlead : x.isLead w = true) (hd : x.sFull d = true) (hroom : classRoom s w .wk = true) (hb : walkBehind s r = false)
    (h : (ctxOf (leaveWalkQueue s r) r x w d a 0).engineIssue .wk (walkRequest (.wkst d a rl bar) a) false (enterWalkQueue r) =
      .ok (.done v)) :
    let k := issuedCmd (flushPosted (leaveWalkQueue s r) r) r x w .wk (.wkst d a rl bar) a 0 [] []
    execWkst d a rl bar s =
      .next (completed (if (walkCheck k w.wsize).isSome then walkReject v k w.wsize else v) r) := by
  intro k
  have hgroup : (ctxOf s r x w d a 0).needGroup a 4 = .ok () := needGroup_ready hg
  have hlead : (ctxOf s r x w d a 0).needLead = .ok () := if_pos hlead
  have hdst : (ctxOf s r x w d a 0).needSDst (ctxOf s r x w d a 0).d = .ok () := needSDst_full hd
  have hfree : (!classRoom (ctxOf s r x w d a 0).s (ctxOf s r x w d a 0).band .wk ||
    walkBehind (ctxOf s r x w d a 0).s (ctxOf s r x w d a 0).r) = false := by simp [hroom, hb]
  have hk : (ctxOf s r x w d a 0).command ⟨.wk, .wkst d a rl bar, (ctxOf s r x w d a 0).group a, 0, [], []⟩ = k :=
    ctxOf_command (s := leaveWalkQueue s r) (d := d) (b := 0) hi.row _
  rw [execWkst, issue_ready hi, hgroup, exceptOkBind, hlead, exceptOkBind, hdst, exceptOkBind, hfree, if_neg Bool.false_ne_true,
    hk]
  refine (congrArg (fun e => applyAct r s x (Act.ofExcept (walkIssued s r k w.wsize (walkCheck k w.wsize) e))) h).trans ?_
  simp only [walkIssued_done, ofExcept_ok, applyAct_done]

/-- A walk whose checks pass enters its walker's queue; one that fails them retires at once, with its record (R190, R191). -/
theorem execWkst_ready (hi : Issues s r x w accSchd false (fSca d) (fSca a) fNone d a 0) (hg : groupReady x a 4)
    (he : EngineReady (leaveWalkQueue s r) r x y w .wk d) (hb : walkBehind s r = false) :
    let t := flushPosted (leaveWalkQueue s r) r
    let k0 := issuedCmd t r x w .wk (.wkst d a rl bar) a 0 [] []
    let k := issuedCmd t r x w .wk (.wkst d a rl bar) a 0 [] (walkRanges r w k0)
    (walkCheck k0 w.wsize = none → sbRoom t (walkRanges r w k0) = true →
      execWkst d a rl bar s = .next (completed (enterWalkQueue r (entered t r y w d k) k) r)) ∧
    (∀ st, walkCheck k0 w.wsize = some st → sbRoom t [] = true →
      execWkst d a rl bar s = .next (completed (walkReject (retireCmd (entered t r y w d k0) k0 st 0) k0 w.wsize) r)) := by
  intro t k0 k
  have hx : (leaveWalkQueue s r).row? r = some x := hi.row
  have issues {v : State} := execWkst_issues (rl := rl) (bar := bar) (v := v) hi hg he.lead he.dest he.room hb
  refine ⟨fun hpass hroom => ?_, fun st hfail hroom => ?_⟩
  · rw [issues (engineIssue_ready he (walkRequest_entry hx he.row hpass) hroom (entryCtx_command hx he.row _ 0 [] _)), hpass]
    rfl
  · rw [issues (engineIssue_ready he (walkRequest_entry hx he.row hfail) hroom (entryCtx_command hx he.row _ 0 [] _)), hfail]
    rfl

/-! ### The checks (R122, R190, R191) -/

theorem walkCheck_none_or_range : walkCheck k n = none ∨ walkCheck k n = some stRange := (ite_eq_or_eq _ _ _).symm

/-- A walk passes its checks exactly where none of them fails. -/
theorem walkCheck_eq_none_iff : walkCheck k n = none ↔
    (fld (k.op 1) 63 44 = 0 ∧ fld (k.op 1) 31 20 = 0 ∧ fld (k.op 2) 63 62 = 0 ∧ fld (k.op 2) 55 12 = 0 ∧ fld (k.op 3) 63 20 = 0) ∧
    (fld (k.op 0) 63 61 = 0 ∨ fld (k.op 0) 63 61 = 1 ∨ fld (k.op 0) 63 61 = 2 ∨ fld (k.op 0) 63 61 = 6) ∧
    fld (k.op 0) 5 0 = 0 ∧ k.argsOff % 64 = 0 ∧ k.argsOff + 64 ≤ n ∧ k.walkStat % 32 = 0 ∧ k.walkStat + 32 ≤ n ∧
    (k.argsOff + 64 ≤ k.walkStat ∨ k.walkStat + 32 ≤ k.argsOff) ∧ k.entry ≤ fld (k.op 1) 43 32 := by
  have hentry : k.entry < k.nwords ↔ k.entry ≤ fld (k.op 1) 43 32 := Nat.lt_succ_iff
  have htag : (fld (k.op 0) 63 61 == 0 || fld (k.op 0) 63 61 == 1 || fld (k.op 0) 63 61 == 2 || fld (k.op 0) 63 61 == 6) = true ↔
      fld (k.op 0) 63 61 = 0 ∨ fld (k.op 0) 63 61 = 1 ∨ fld (k.op 0) 63 61 = 2 ∨ fld (k.op 0) 63 61 = 6 := by
    simp only [Bool.or_eq_true, beq_iff_eq, or_assoc]
  rw [← rangesMeet_eq_false_iff, ← hentry, ← htag]
  unfold walkCheck
  simp only []
  rw [ite_eq_right_iff]
  simp only [walkStatOk, reduceCtorEq, imp_false, Bool.not_eq_true, Bool.or_eq_false_iff, Bool.and_eq_true,
    Bool.not_eq_true', Bool.not_eq_false', beq_iff_eq, decide_eq_false_iff_not, decide_eq_true_eq, not_not, not_lt, not_le, ne_eq]
  simp only [and_assoc]
  exact ⟨fun ⟨h1, h2, h3, h4, h5, tag, addr, args, pc, argsIn, stat, statIn, apart⟩ =>
      ⟨h1, h2, h3, h4, h5, tag, addr, args, argsIn, stat, statIn, apart, pc⟩,
    fun ⟨h1, h2, h3, h4, h5, tag, addr, args, argsIn, stat, statIn, apart, pc⟩ =>
      ⟨h1, h2, h3, h4, h5, tag, addr, args, pc, argsIn, stat, statIn, apart⟩⟩

end Sys2Proof.Machine
end

section
/-! PROOF. The statement about the issue of WKST and of the network commands. -/
open Sys2Proof Sys2Proof.Machine
namespace Sys2Proof.Proofs

/-- Settles O22: a command whose request passes its checks enters the queue with its ranges, and one that fails a check
retires at once, by the rule for the issue of an engine command; the checks of a network command are those of its group, then
those of its local operands in order, then that of the device or of the reduction group. -/
theorem walkNetworkIssue : Obligations.WalkNetworkIssue := by
  refine ⟨?walk, ?walkChecks, ?network, ?networkChecks⟩
  case walk =>
    intro s t r x y w d a rl bar hi hg hlead hd hroom hb hp ht hy hpar i k0 sb k
    subst ht
    have he : EngineReady (leaveWalkQueue s r) r x y w .wk d := ⟨hlead, hd, hroom, hp, hy, hpar⟩
    have hissue := execWkst_ready (rl := rl) (bar := bar) hi hg he hb
    exact ⟨hissue.1, hissue.2 stRange, walkCheck_none_or_range⟩
  case walkChecks =>
    intro k w args stat
    exact ⟨walkCheck_none_or_range, walkCheck_eq_none_iff⟩
  case network =>
    intro s t r x y w d a bar st p hi ht he issues
    subst ht
    refine ⟨fun hg => ⟨?_, ?_, ?_⟩, fun hg hu => ?_⟩
    · exact issueNet_ready hi he hg nofun
    · exact issueNet_ready hi he hg nofun
    · exact issueNet_ready hi he hg nofun
    · exact issueNet_ready hi he hg (fun _ => hu)
  case networkChecks =>
    intro s k w d a bar st p O n dev away bad out answers far odd
    refine ⟨fun hi => ?_, fun hi => ?_, fun hi => ?_, fun hi => ?_⟩
    · have h := netCheck_nput (s := s) (w := w) hi
      simp only [Cmd.farReserved, Cmd.netOdd, or_assoc] at h
      simp only [far, odd, or_assoc]
      exact h
    · have h := netCheck_nget (s := s) (w := w) hi
      simp only [Cmd.farReserved, Cmd.netOdd, or_assoc] at h
      simp only [far, odd, or_assoc]
      exact h
    · have h := netCheck_nsig (s := s) (w := w) hi
      simp only [Cmd.farReserved, or_false, or_assoc] at h
      simp only [far, or_assoc]
      exact h
    · intro off group range
      have hrange : range ↔ k.nredBad w := Iff.rfl
      have hgroup : group = (nredGroup s k).1 := reductionGroup_eq
      obtain ⟨hbad, hgood⟩ := netCheck_nred (s := s) (w := w) hi
      obtain ⟨hbad0, hout0, hpass0⟩ := (localCheck_answers (s := s) (k := k) (a := k.op 0) (n := n)).or_eq
      obtain ⟨hbad1, hout1, hpass1⟩ := (localCheck_answers (s := s) (k := k) (a := k.op 1) (n := n)).or_eq
      rw [hrange, hgroup]
      refine ⟨fun h => ?_, fun hr h0 => ⟨fun ho => ?_, fun ho => ⟨fun h1 => ?_, fun h1 ho1 => ?_, fun h1 ho1 => ?_⟩⟩⟩
      · by_cases hr : k.nredBad w
        · exact hbad hr
        · exact (hgood hr).trans (hbad0 (h.resolve_left hr))
      · exact (hgood hr).trans (hout0 h0 ho)
      · exact (hgood hr).trans ((hpass0 h0 ho).trans (hbad1 h1))
      · exact (hgood hr).trans ((hpass0 h0 ho).trans (hout1 h1 ho1))
      · exact (hgood hr).trans ((hpass0 h0 ho).trans (hpass1 h1 ho1))

end Sys2Proof.Proofs
end

section
/-! SUPPORT. Loads and stores of the window whose operands are ready and whose words meet no check and no wait (R232 to R236). -/
namespace Sys2Proof.Machine

variable {s : State} {r : RowId} {x : Row} {w : Band} {d a b : Reg} {m : MReg} {e : Option Entry}

/-! ### Accesses of no lane -/

theorem maskLanes_eq_nil_iff {mk : Mask} : maskLanes mk = [] ↔ mk = 0 := by
  refine ⟨fun h => BitVec.eq_of_getLsbD_eq (fun i _ => ?_), fun h => by simp [h, maskLanes]⟩
  have hi : i ∉ maskLanes mk := by simp [h]
  simpa [mem_maskLanes] using hi

theorem maskLanes_isEmpty {mk : Mask} (h : mk ≠ 0) : (maskLanes mk).isEmpty = false := by
  simpa [List.isEmpty_eq_false_iff] using mt maskLanes_eq_nil_iff.1 h

theorem laneAddrs_isEmpty {mk : Mask} (f : Nat → Int) (h : mk ≠ 0) : (laneAddrs mk f).isEmpty = false := by
  rw [laneAddrs, List.isEmpty_map, maskLanes_isEmpty h]

theorem laneAddrs_eq_nil {mk : Mask} (f : Nat → Int) (h : mk = 0) : laneAddrs mk f = [] := by subst h; rfl

/-- An access that no lane makes meets no check and no wait. -/
theorem accessClear_idle (t : Nat → Band) (own : Nat → Bool) (kind : AccessKind) (n : Nat) (f : Nat → Int) :
    AccessClear s x w t own kind n f 0 where
  aligned := by simp
  inside := by simp
  unwatched := by simp
  unclaimed := by simp
  unstreamed := by simp
  posted h := absurd rfl h

/-! ### Vector accesses -/

section
variable {xs : List Reg} {xv : List VSrc} {addr : Ctx → Option Entry → Nat → Int} {out : Out}

theorem loadBody_ready (hs : ∀ q ∈ xs, x.scalarReady q) (hv : SourcesReady x (xv.map VSrc.reg) e) (hd : x.vFull d = true)
    (hc : LocalClear s x w .read 4 (addr (ctxOf s r x w d a b) e) (x.active w.laneW m)) :
    loadBody m xs xv addr (ctxOf s r x w d a b) = .ok (vecLoad (ctxOf s r x w d a b) (afterPop x e) (x.active w.laneW m)
      (laneAddrs (x.active w.laneW m) (addr (ctxOf s r x w d a b) e))) := by
  have hneed : xs.forM (fun q => (ctxOf s r x w d a b).needS q false 1) = .ok () :=
    forM_ok _ _ (fun q hq => needS_ready (hs q hq) _ _)
  have hdst : (ctxOf s r x w d a b).needVDst d = .ok () := needVDst_full hd
  simp only [loadBody, hneed, exceptOkBind, needSources_ready (c := ctxOf s r x w d a b) hv, ctxOf_d, hdst, ctxOf_act,
    localGuard_clear hc, ctxOf_x]

/-- R232, R235: a vector load whose checks are met binds the words of its lanes. -/
theorem load_result (hout : out = applyAct r s x (Act.ofExcept (loadBody m xs xv addr (ctxOf s r x w d a b))))
    (hs : ∀ q ∈ xs, x.scalarReady q) (hv : SourcesReady x (xv.map VSrc.reg) e) (hd : x.vFull d = true) {f : Nat → Int}
    (hf : addr (ctxOf s r x w d a b) e = f) :
    (x.active w.laneW m = 0 → out = .next (completed (s.setRow r (afterPop x e)) r)) ∧
    (x.active w.laneW m ≠ 0 → LocalClear s x w .read 4 f (x.active w.laneW m) →
      WordsGood (flushPosted (s.setRow r (afterPop x e)) r) (fun _ => w) f (x.active w.laneW m) →
      ∃ v : Lanes, out = .next (completed ((flushPosted (s.setRow r (afterPop x e)) r).modRow r
          (fun y => y.produce { dest := .vec d (x.active w.laneW m) v })) r) ∧
        ∀ j : Fin 64, (x.active w.laneW m).getLsbD j = true →
          v[j] = memWord (flushPosted (s.setRow r (afterPop x e)) r).mem (winKey w (f j))) := by
  subst hf hout
  refine ⟨fun hL => ?_, fun hL hc hg => ?_⟩
  · rw [loadBody_ready hs hv hd (by rw [hL]; exact accessClear_idle ..)]
    simp [vecLoad, laneAddrs_eq_nil _ hL]
  · rw [loadBody_ready hs hv hd hc]
    refine ⟨loadLanes (flushPosted (s.setRow r (afterPop x e)) r) w.core
      ((ctxOf s r x w d a b).places (laneAddrs (x.active w.laneW m) (addr (ctxOf s r x w d a b) e))), ?_,
      fun j hj => loadLanes_getElem j hj (hg j hj)⟩
    simp [vecLoad, laneAddrs_isEmpty _ hL, firstBad_none hg]

theorem storeBody_ready (hs : ∀ q ∈ xs, x.scalarReady q) (hv : SourcesReady x (xv.map VSrc.reg ++ [d]) e)
    (hc : LocalClear s x w .write 4 (addr (ctxOf s r x w d a b) e) (x.active w.laneW m)) :
    storeBody m xs xv addr (ctxOf s r x w d a b) = .ok (vecStore (ctxOf s r x w d a b) (afterPop x e) (vecValue x e d)
      (laneAddrs (x.active w.laneW m) (addr (ctxOf s r x w d a b) e))) := by
  have hneed : xs.forM (fun q => (ctxOf s r x w d a b).needS q false 1) = .ok () :=
    forM_ok _ _ (fun q hq => needS_ready (hs q hq) _ _)
  have hsrc : (ctxOf s r x w d a b).needSources (xv ++ [⟨d, modBit x.hints 19, 0⟩]) = .ok e :=
    needSources_ready (by simpa using hv)
  simp only [storeBody, hneed, exceptOkBind, ctxOf_d, ctxOf_td, hsrc, ctxOf_act, localGuard_clear hc, ctxOf_x]

/-- R232, R233: a vector store whose checks are met leaves its words in the window, and every other byte as it was. -/
theorem store_result (hout : out = applyAct r s x (Act.ofExcept (storeBody m xs xv addr (ctxOf s r x w d a b))))
    (hwf : s.mem.wf = true) (hs : ∀ q ∈ xs, x.scalarReady q) (hv : SourcesReady x (xv.map VSrc.reg ++ [d]) e)
    {f : Nat → Int} (hf : addr (ctxOf s r x w d a b) e = f) :
    (x.active w.laneW m = 0 → out = .next (completed (s.setRow r (afterPop x e)) r)) ∧
    (x.active w.laneW m ≠ 0 → LocalClear s x w .write 4 f (x.active w.laneW m) →
      WordsGood (flushPosted (s.setRow r (afterPop x e)) r) (fun _ => w) f (x.active w.laneW m) →
      ∃ u : State, out = .next (completed u r) ∧
        Stored (flushPosted (s.setRow r (afterPop x e)) r) u w f (x.active w.laneW m) (vecValue x e d)) := by
  subst hf hout
  refine ⟨fun hL => ?_, fun hL hc hg => ?_⟩
  · rw [storeBody_ready hs hv (by rw [hL]; exact accessClear_idle ..)]
    simp [vecStore, laneAddrs_eq_nil _ hL]
  · rw [storeBody_ready hs hv hc]
    refine ⟨storeLanes (flushPosted (s.setRow r (afterPop x e)) r) w.core (vecValue x e d)
      ((ctxOf s r x w d a b).places (laneAddrs (x.active w.laneW m) (addr (ctxOf s r x w d a b) e))), ?_,
      storeLanes_stored _ _ (flushPosted_wf hwf) hc.aligned (fun i hi => (hc.inside i hi).1)⟩
    simp [vecStore, laneAddrs_isEmpty _ hL, firstBad_none hg]

end

/-! ### Scalar accesses (R236) -/

theorem laneAddrs_one (f : Int) : laneAddrs 1 (fun _ => f) = [(0, f)] := rfl

theorem execLds_ready {d' a' : Reg} {n : BitVec 6} (hi : Issues s r x w accRep false (fSca d') (fSca a') fNone d a b)
    (ha : x.scalarReady a) (hd : x.sFull d = true) {f : Int} (hf : ((x.sget a).toNat + 8 * n.toNat : Nat) = f)
    (hc : LocalClear s x w .read 8 (fun _ => f) 1) (hg : (flushPosted s r).badWord (winKey w f) = false) :
    exec (.lds d' a' n) s = .next (completed ((flushPosted s r).modRow r
      (fun y => y.produce { dest := .sca d (memDword (flushPosted s r).mem (winKey w f)) })) r) := by
  have hguard := localGuard_clear (r := r) (d := d) (a := a) (b := b) hc
  rw [laneAddrs_one] at hguard
  have haddr : addrScalar n (ctxOf s r x w d a b) = f := by rw [← hf]; simp [addrScalar]
  have hkey : sideKey w.core.toNat ((ctxOf s r x w d a b).coreOff f) = winKey w f := by simp [winKey, Ctx.coreOff]
  have hneed : (ctxOf s r x w d a b).needS a false 1 = .ok () := needS_ready ha _ _
  have hdst : (ctxOf s r x w d a b).needSDst d = .ok () := needSDst_full hd
  rw [exec_lds, execLds, issue_ready hi]
  simp only [ctxOf_a, hneed, ctxOf_d, hdst, exceptOkBind, haddr, hguard, ctxOf_s, ctxOf_r, ctxOf_band, hkey, hg,
    Bool.false_eq_true, if_false, ofExcept_ok, applyAct_done]

theorem execSts_ready {d' a' : Reg} {n : BitVec 6} (hi : Issues s r x w accRep false (fSca d') (fSca a') fNone d a b)
    (ha : x.scalarReady a) (hd : x.scalarReady d) {f : Int} (hf : ((x.sget a).toNat + 8 * n.toNat : Nat) = f)
    (hc : LocalClear s x w .write 8 (fun _ => f) 1) :
    exec (.sts d' a' n) s = .next (completed (rowStore8 (flushPosted s r) (winKey w f) (x.sget d)) r) := by
  have hguard := localGuard_clear (r := r) (d := d) (a := a) (b := b) hc
  rw [laneAddrs_one] at hguard
  have haddr : addrScalar n (ctxOf s r x w d a b) = f := by rw [← hf]; simp [addrScalar]
  have hkey : sideKey w.core.toNat ((ctxOf s r x w d a b).coreOff f) = winKey w f := by simp [winKey, Ctx.coreOff]
  have hneed : (ctxOf s r x w d a b).needS a false 1 = .ok () := needS_ready ha _ _
  have hsrc (tb : Bool) : (ctxOf s r x w d a b).needS d tb 0 = .ok () := needS_ready hd _ _
  rw [exec_sts, execSts, issue_ready hi]
  simp only [ctxOf_a, hneed, ctxOf_d, hsrc, exceptOkBind, haddr, hguard, ctxOf_s, ctxOf_r, ctxOf_band, ctxOf_x, hkey,
    ofExcept_ok, applyAct_done]

/-- R403: a doubleword stored is read back, its word is good, and every byte outside it is as it was. -/
theorem rowStore8_stored {t : State} (k : Nat) (v : Dword) (h : t.mem.wf = true) :
    memDword (rowStore8 t k v).mem k = v ∧ (rowStore8 t k v).badWord k = false ∧
      ∀ j, (j < k ∨ k + 8 ≤ j) → memGet (rowStore8 t k v).mem j = memGet t.mem j := by
  refine ⟨memDword_store _ _ _ h, by simp [State.badWord, rowStore8], fun j hj => ?_⟩
  simp only [rowStore8]
  rw [memGet_memWrite _ _ _ _ h, leBytes_length, if_neg (by omega)]

end Sys2Proof.Machine
end

section
/-! PROOF. The statements about loads and stores of the window. -/
open Sys2Proof Sys2Proof.Machine
namespace Sys2Proof.Proofs

/-- Settles O12: each form of a vector load is the one rule for loads at its own addresses; LDS is one guarded access. -/
theorem loadResult : Obligations.LoadResult := by
  intro s r x w d a b p q o m n k h e L A t loads
  refine ⟨fun hi hq hp he => ?unit, fun hi hq ho hp he => ?strided, fun hi hq hv hp => ?indexed, ?scalar⟩
  case unit =>
    subst he
    exact load_result (out := exec (.ldv d a m n) s) (xs := [q]) (xv := []) (addr := addrUnit n)
      (issue_ready hi _) (by simpa using hq) ⟨by simp, rfl⟩ hp rfl
  case strided =>
    subst he
    exact load_result (out := exec (.ldvs d a b m n) s) (xs := [q, o]) (xv := []) (addr := addrStride n)
      (issue_ready hi _) (by simpa using ⟨hq, ho⟩) ⟨by simp, rfl⟩ hp rfl
  case indexed =>
    exact load_result (out := exec (.ldvx d a b m k h) s) (xs := [q]) (xv := [⟨o, false, 2⟩]) (addr := addrIndex k h)
      (issue_ready hi _) (by simpa using hq) hv hp rfl
  case scalar =>
    intro hi hq hp he f hc hg
    subst he
    have ht : t = flushPosted s r := congrArg (flushPosted · r) (setRow_same hi.row)
    rw [ht] at hg ⊢
    exact execLds_ready hi hq hp rfl hc hg

/-- Settles O13: each form of a vector store is the one rule for stores at its own addresses; STS replaces a doubleword. -/
theorem storeResult : Obligations.StoreResult := by
  intro s r x w d a b p q o m n k h e L A t hwf stores
  refine ⟨fun hi hq hv => ?unit, fun hi hq ho hv => ?strided, fun hi hq hv => ?indexed, ?scalar⟩
  case unit =>
    exact store_result (out := exec (.stv d a m n) s) (xs := [q]) (xv := []) (addr := addrUnit n)
      (issue_ready hi _) hwf (by simpa using hq) hv rfl
  case strided =>
    exact store_result (out := exec (.stvs d a b m n) s) (xs := [q, o]) (xv := []) (addr := addrStride n)
      (issue_ready hi _) hwf (by simpa using ⟨hq, ho⟩) hv rfl
  case indexed =>
    exact store_result (out := exec (.stvx d a b m k h) s) (xs := [q]) (xv := [⟨o, false, 2⟩]) (addr := addrIndex k h)
      (issue_ready hi _) hwf (by simpa using hq) hv rfl
  case scalar =>
    intro hi hq hp he f hc
    subst he
    have ht : t = flushPosted s r := congrArg (flushPosted · r) (setRow_same hi.row)
    rw [ht]
    obtain ⟨hread, hgood, hframe⟩ := rowStore8_stored (winKey w f) (x.sget p) (flushPosted_wf (r := r) hwf)
    exact ⟨_, execSts_ready hi hq hp rfl hc, hread, hgood, rfl, hframe⟩

end Sys2Proof.Proofs
end

section
/-! SUPPORT. Remote accesses whose lanes name bands of the row's skein and meet no check and no wait (R237 to R240). -/
namespace Sys2Proof.Machine

variable {s : State} {r : RowId} {x : Row} {w : Band} {d a b : Reg} {mk : Mask} {e : Option Entry}
  {g : Nat → Band} {up : Nat → Nat} {f : Nat → Int} {kind : AccessKind}

/-! ### Places of remote addresses (R237, R351) -/

/-- The remote addresses of the lanes of a mask: lane i at offset f i of the band of index up i. -/
def remoteAddrs (mk : Mask) (f : Nat → Int) (up : Nat → Nat) : List RemoteAddr := (maskLanes mk).map (fun i => ⟨i, f i, up i⟩)

/-- Each lane i of a mask names a band of the row's skein, g i, whose window is there. -/
def Reaches (s : State) (w : Band) (g : Nat → Band) (up : Nat → Nat) (mk : Mask) : Prop :=
  ∀ i, mk.getLsbD i = true → up i ≤ w.nb ∧ skeinBand s w (up i) = some (g i) ∧ Band.gone s (g i) = false

theorem remoteAddrs_eq_nil (h : mk = 0) : remoteAddrs mk f up = [] := by subst h; rfl

theorem remoteAddrs_isEmpty (h : mk ≠ 0) : (remoteAddrs mk f up).isEmpty = false := by
  rw [remoteAddrs, List.isEmpty_map, maskLanes_isEmpty h]

theorem remoteBand_reached {i : Nat} (h : Reaches s w g up mk) (hi : mk.getLsbD i = true) :
    remoteBand (ctxOf s r x w d a b) ⟨i, f i, up i⟩ = some (g i) := by
  obtain ⟨hup, hband, -⟩ := h i hi
  simp [remoteBand, hup, hband]

theorem remotePlace_reached {i : Nat} (h : Reaches s w g up mk) (hi : mk.getLsbD i = true) :
    remotePlace (ctxOf s r x w d a b) ⟨i, f i, up i⟩ = ((g i).core, (g i).wbase + (f i).toNat) := by
  simp only [remotePlace, remoteBand_reached h hi]

theorem remoteBandId_reached {i : Nat} (h : Reaches s w g up mk) (hi : mk.getLsbD i = true) :
    remoteBandId (ctxOf s r x w d a b) ⟨i, f i, up i⟩ = (g i).id := by
  simp only [remoteBandId, remoteBand_reached h hi, Option.elim_some]

/-! ### The checks of a remote access -/

theorem checkRemote_ok {c : Ctx} {l : List (Nat × Int × Nat)} (h1 : ∀ p ∈ l, p.2.1 % 4 = 0)
    (h2 : ∀ p ∈ l, ∃ t, p.2.2 ≤ c.band.nb ∧ skeinBand c.s c.band p.2.2 = some t ∧ p.2.1 + 4 ≤ (t.wsize : Int)) :
    checkRemote c l = .ok () := by
  have e1 : l.find? (fun p => decide (p.2.1 % 4 ≠ 0)) = none := List.find?_eq_none.2 (fun p hp => by simp [h1 p hp])
  unfold checkRemote
  rw [e1]
  simp only []
  split
  · next p hp =>
      obtain ⟨t, hnb, hband, hin⟩ := h2 p (List.mem_of_find?_eq_some hp)
      have hfails := List.find?_some hp
      simp only [hnb, if_true, hband, decide_eq_true_eq] at hfails
      omega
  · rfl

theorem remoteWatch_ok {c : Ctx} {l : List RemoteAddr} (h : ∀ p ∈ l, ∀ k : Fin 4,
    watchMatches (c.s.core (remotePlace c p).1).dbg k (c.s.bandAsid c.band) kind (remotePlace c p).2
      ((remotePlace c p).2 + 4) = false) : remoteWatch c kind l = .ok () := by
  have e (k : Fin 4) : l.find? (fun p => watchMatches (c.s.core (remotePlace c p).1).dbg k (c.s.bandAsid c.band) kind
      (remotePlace c p).2 ((remotePlace c p).2 + 4)) = none :=
    List.find?_eq_none.2 (fun p hp => by simp [h p hp k])
  unfold remoteWatch
  simp only [e, Option.map_none, List.findSome?_cons, List.findSome?_nil]

theorem remoteGuard_nil {c : Ctx} : c.remoteGuard kind [] = .ok () := by cases kind <;> rfl

theorem remoteGuard_clear (h : Reaches s w g up mk)
    (hc : AccessClear s x w g (fun i => decide (up i = w.bandIx)) kind 4 f mk) :
    (ctxOf s r x w d a b).remoteGuard kind (remoteAddrs mk f up) = .ok () := by
  have hm : ∀ p ∈ remoteAddrs mk f up, ∃ i, mk.getLsbD i = true ∧ p = ⟨i, f i, up i⟩ := by
    intro p hp
    obtain ⟨i, hi, rfl⟩ := List.mem_map.1 hp
    exact ⟨i, mem_maskLanes.1 hi, rfl⟩
  have hcheck : checkRemote (ctxOf s r x w d a b) ((remoteAddrs mk f up).map (fun p => (p.lane, p.off, p.up))) = .ok () := by
    refine checkRemote_ok (fun p hp => ?_) (fun p hp => ?_) <;> obtain ⟨q, hq, rfl⟩ := List.mem_map.1 hp <;>
      obtain ⟨i, hi, rfl⟩ := hm q hq
    · exact hc.aligned i hi
    · obtain ⟨hup, hband, -⟩ := h i hi
      exact ⟨g i, by simpa using hup, by simpa using hband, (hc.inside i hi).2⟩
  have hwatch : remoteWatch (ctxOf s r x w d a b) kind (remoteAddrs mk f up) = .ok () := by
    refine remoteWatch_ok (fun p hp k => ?_)
    obtain ⟨i, hi, rfl⟩ := hm p hp
    simpa only [remotePlace_reached h hi, ctxOf_s, ctxOf_band] using hc.unwatched i k hi
  have hsaved : remoteSaved (ctxOf s r x w d a b) (remoteAddrs mk f up) = false := by
    refine List.any_eq_false.2 (fun p hp => ?_)
    obtain ⟨i, hi, rfl⟩ := hm p hp
    simp [remoteBand_reached h hi, (h i hi).2.2]
  have hrange : (remoteAddrs mk f up).forM (fun p => sbWait s (remotePlace (ctxOf s r x w d a b) p).1
      (remotePlace (ctxOf s r x w d a b) p).2 ((remotePlace (ctxOf s r x w d a b) p).2 + 4) (kind != .read)) = .ok () := by
    refine forM_ok _ _ (fun p hp => sbWait_ok ?_)
    obtain ⟨i, hi, rfl⟩ := hm p hp
    simpa only [remotePlace_reached h hi] using hc.unclaimed i hi
  have hside : (kind != .read && (remoteAddrs mk f up).any (fun p =>
      p.up == w.bandIx && (ctxOf s r x w d a b).sideStreamHold p.off (p.off + 4))) = false := by
    by_cases hk : kind = .read
    · simp [hk]
    · rw [Bool.and_eq_false_iff]
      refine .inr (List.any_eq_false.2 (fun p hp => ?_))
      obtain ⟨i, hi, rfl⟩ := hm p hp
      by_cases ho : up i = w.bandIx
      · have := hc.unstreamed i hi (by simpa using ho) hk
        simpa [ho, Ctx.sideStreamHold] using this
      · simp [ho]
  unfold Ctx.remoteGuard
  simp only [hcheck, hwatch, hsaved, exceptOkBind, ctxOf_s, ctxOf_band, hrange, hside, Bool.false_eq_true, if_false]

/-! ### Words of a remote load -/

theorem remoteLoad_getElem {t : State} (h : Reaches s w g up mk) (hg : WordsGood t g f mk) (j : Fin 64)
    (hj : mk.getLsbD j = true) :
    (remoteLoad t (ctxOf s r x w d a b) (remoteAddrs mk f up))[j] = memWord t.mem (winKey (g j) (f j)) := by
  have hfold := loadFold_getElem (fun i =>
      if t.badWord (sideKey (remotePlace (ctxOf s r x w d a b) ⟨i, f i, up i⟩).1.toNat
        (remotePlace (ctxOf s r x w d a b) ⟨i, f i, up i⟩).2) then 0
      else memWord t.mem (sideKey (remotePlace (ctxOf s r x w d a b) ⟨i, f i, up i⟩).1.toNat
        (remotePlace (ctxOf s r x w d a b) ⟨i, f i, up i⟩).2))
    (maskLanes mk) zeroLanes j (fun i hi => BitVec.lt_of_getLsbD (mem_maskLanes.1 hi))
  have hgood := hg j hj
  rw [if_pos (mem_maskLanes.2 hj), remotePlace_reached h hj] at hfold
  rw [winKey] at hgood
  simp only [hgood, Bool.false_eq_true, if_false] at hfold
  simp only [remoteLoad, remoteAddrs, List.foldl_map]
  exact hfold

theorem remoteBad_none {t : State} (h : Reaches s w g up mk) (hg : WordsGood t g f mk) :
    remoteBad t (ctxOf s r x w d a b) (remoteAddrs mk f up) = none := by
  refine List.find?_eq_none.2 (fun p hp => ?_)
  obtain ⟨i, hi, rfl⟩ := List.mem_map.1 hp
  have hi := mem_maskLanes.1 hi
  simpa [remotePlace_reached h hi, winKey] using hg i hi

/-! ### Steps of a row's atomics that nothing holds back (R161, R240) -/

@[simp] theorem wordHold_setRow (y : Row) (k : FarWord) : wordHold (s.setRow r y) k = wordHold s k := rfl
@[simp] theorem wordsHold_setRow (y : Row) (l : List FarWord) : wordsHold (s.setRow r y) l = wordsHold s l := rfl

theorem wordsHold_append {l m : List FarWord} : wordsHold s (l ++ m) = none ↔ wordsHold s l = none ∧ wordsHold s m = none := by
  simp [wordsHold, List.findSome?_append, Option.or_eq_none_iff]

theorem afterSteps_free (h : postedHold s x = none) (y : Row) (p : Posted) :
    afterSteps (s.setRow r y) r x p = .ok (settleAtoms (s.setRow r y) r) := by
  simp [afterSteps, (wordsHold_append.1 h).2]

end Sys2Proof.Machine
end

section
/-! SUPPORT. RLDV and RSTV (R238, R239). -/
namespace Sys2Proof.Machine

variable {s : State} {r : RowId} {x : Row} {w g : Band} {d' a' d a b : Reg} {m : MReg} {n : BitVec 6} {e : Option Entry}

/-- Lane i's offset in the band that RLDV and RSTV address. -/
def remoteOff (A : Nat) (n : BitVec 6) (i : Nat) : Int := ((A % 2 ^ 20 + 4 * n.toNat + 4 * i : Nat) : Int)

theorem remoteUnit_eq (mk : Mask) : remoteUnit n mk (ctxOf s r x w d a b) =
    remoteAddrs mk (remoteOff (x.sget a).toNat n) (fun _ => (x.sget a).toNat / 2 ^ 20) := rfl

theorem execRldv_idle (hi : Issues s r x w accRep false (fVec d') (fSca a') fNone d a b) (ha : x.scalarReady a)
    (hL : x.active w.laneW m = 0) (hd : x.vFull d = true) : exec (.rldv d' a' m n) s = .next (completed s r) := by
  have hneed : (ctxOf s r x w d a b).needS a false 1 = .ok () := needS_ready ha _ _
  have hdst : (ctxOf s r x w d a b).needVDst d = .ok () := needVDst_full hd
  rw [exec_rldv, execRldv, issue_ready hi]
  simp only [ctxOf_a, hneed, ctxOf_d, hdst, exceptOkBind, ctxOf_act, remoteUnit_eq, remoteAddrs_eq_nil hL,
    remoteGuard_nil, ctxOf_s, List.isEmpty_nil, if_true, ofExcept_ok, applyAct_done]

theorem execRldv_ready (hi : Issues s r x w accRep false (fVec d') (fSca a') fNone d a b) (ha : x.scalarReady a)
    (hL : x.active w.laneW m ≠ 0) (hd : x.vFull d = true)
    (hr : Reaches s w (fun _ => g) (fun _ => (x.sget a).toNat / 2 ^ 20) (x.active w.laneW m))
    (hc : AccessClear s x w (fun _ => g) (fun _ => decide ((x.sget a).toNat / 2 ^ 20 = w.bandIx)) .read 4
      (remoteOff (x.sget a).toNat n) (x.active w.laneW m))
    (hg : WordsGood (flushPosted s r) (fun _ => g) (remoteOff (x.sget a).toNat n) (x.active w.laneW m)) :
    ∃ v : Lanes, exec (.rldv d' a' m n) s = .next (completed ((flushPosted s r).modRow r
        (fun y => y.produce { dest := .vec d (x.active w.laneW m) v })) r) ∧
      ∀ j : Fin 64, (x.active w.laneW m).getLsbD j = true →
        v[j] = memWord (flushPosted s r).mem (winKey g (remoteOff (x.sget a).toNat n j)) := by
  have hneed : (ctxOf s r x w d a b).needS a false 1 = .ok () := needS_ready ha _ _
  have hdst : (ctxOf s r x w d a b).needVDst d = .ok () := needVDst_full hd
  have hposted : (ctxOf s r x w d a b).needPosted = .ok () := needPosted_ready (hc.posted hL)
  refine ⟨_, ?_, fun j hj => remoteLoad_getElem (r := r) (x := x) (d := d) (a := a) (b := b) hr hg j hj⟩
  rw [exec_rldv, execRldv, issue_ready hi]
  simp only [ctxOf_a, hneed, ctxOf_d, hdst, exceptOkBind, ctxOf_act, remoteUnit_eq, remoteGuard_clear hr hc, ctxOf_s, ctxOf_r,
    remoteAddrs_isEmpty hL, hposted, remoteBad_none hr hg, Bool.false_eq_true, if_false, Option.map_none, ofExcept_ok,
    applyAct_done]

theorem needSources_store (hv : SourcesReady x [d] e) : (ctxOf s r x w d a b).needSources [⟨d, modBit x.hints 19, 0⟩] = .ok e :=
  needSources_ready hv

theorem execRstv_idle (hi : Issues s r x w accRep false (fVec d') (fSca a') fNone d a b) (ha : x.scalarReady a)
    (hL : x.active w.laneW m = 0) (hv : SourcesReady x [d] e) :
    exec (.rstv d' a' m n) s = .next (completed (s.setRow r (afterPop x e)) r) := by
  have hneed : (ctxOf s r x w d a b).needS a false 1 = .ok () := needS_ready ha _ _
  rw [exec_rstv, execRstv, issue_ready hi]
  simp only [ctxOf_a, hneed, ctxOf_d, ctxOf_td, needSources_store hv, exceptOkBind, ctxOf_act, remoteUnit_eq, remoteAddrs_eq_nil hL,
    remoteGuard_nil, ctxOf_s, ctxOf_r, ctxOf_x, List.isEmpty_nil, if_true, ofExcept_ok, applyAct_done]

/-- One posted write of the lanes of a mask that all name one band. -/
def postedAt (g : Band) (mk : Mask) (f : Nat → Int) (up : Nat → Nat) (op : Option AtomOp) (u v : Lanes) : Posted :=
  ⟨g.core, g.id, (maskLanes mk).map (fun i =>
    ⟨g.wbase + (f i).toNat, targOf ((up i * 2 ^ 20 : Nat) + f i), op, laneAt u i, laneAt v i⟩)⟩

theorem postLanes_cons {c : Ctx} {q : RemoteAddr} {l : List RemoteAddr} {op : Option AtomOp} {u v : Lanes} :
    postLanes c (q :: l) op u v = ⟨(remotePlace c q).1, remoteBandId c q, (q :: l).map (fun p =>
      ⟨(remotePlace c p).2, p.targ, op, laneAt u p.lane, laneAt v p.lane⟩)⟩ := rfl

theorem postLanes_reached {mk : Mask} {f : Nat → Int} {up : Nat → Nat} {op : Option AtomOp} {u v : Lanes}
    (hr : Reaches s w (fun _ => g) up mk) (hmk : mk ≠ 0) :
    postLanes (ctxOf s r x w d a b) (remoteAddrs mk f up) op u v = postedAt g mk f up op u v := by
  have hlanes : (remoteAddrs mk f up).map (fun p => (⟨(remotePlace (ctxOf s r x w d a b) p).2, p.targ, op, laneAt u p.lane,
      laneAt v p.lane⟩ : RemoteLane)) = (postedAt g mk f up op u v).lanes := by
    simp only [remoteAddrs, List.map_map, postedAt]
    refine List.map_congr_left (fun i hi => ?_)
    simp only [Function.comp, remotePlace_reached hr (mem_maskLanes.1 hi), RemoteAddr.targ]
  obtain ⟨i, l, hl⟩ := List.exists_cons_of_ne_nil (mt maskLanes_eq_nil_iff.1 hmk)
  have hi : mk.getLsbD i = true := mem_maskLanes.1 (by simp [hl])
  have hcons : remoteAddrs mk f up = ⟨i, f i, up i⟩ :: l.map (fun i => ⟨i, f i, up i⟩) := by simp [remoteAddrs, hl]
  rw [hcons, postLanes_cons, ← hcons, hlanes, remotePlace_reached hr hi, remoteBandId_reached hr hi]
  rfl

theorem execRstv_ready (hi : Issues s r x w accRep false (fVec d') (fSca a') fNone d a b) (ha : x.scalarReady a)
    (hL : x.active w.laneW m ≠ 0) (hv : SourcesReady x [d] e)
    (hr : Reaches s w (fun _ => g) (fun _ => (x.sget a).toNat / 2 ^ 20) (x.active w.laneW m))
    (hc : AccessClear s x w (fun _ => g) (fun _ => decide ((x.sget a).toNat / 2 ^ 20 = w.bandIx)) .write 4
      (remoteOff (x.sget a).toNat n) (x.active w.laneW m)) :
    exec (.rstv d' a' m n) s = .next (completed ((settleAtoms (s.setRow r (afterPop x e)) r).modRow r (fun y =>
      { y with posted := y.posted ++ [postedAt g (x.active w.laneW m) (remoteOff (x.sget a).toNat n)
        (fun _ => (x.sget a).toNat / 2 ^ 20) none (vecValue x e d) (vecValue x e d)] })) r) := by
  have hneed : (ctxOf s r x w d a b).needS a false 1 = .ok () := needS_ready ha _ _
  rw [exec_rstv, execRstv, issue_ready hi]
  simp only [ctxOf_a, hneed, ctxOf_d, ctxOf_td, needSources_store hv, exceptOkBind, ctxOf_act, remoteUnit_eq,
    remoteGuard_clear hr hc, remoteAddrs_isEmpty hL, ctxOf_s, ctxOf_r, ctxOf_x, Bool.false_eq_true, if_false,
    afterSteps_free (hc.posted hL), postLanes_reached hr hL, ofExcept_ok, applyAct_done]

end Sys2Proof.Machine
end

section
/-! SUPPORT. The performing of a posted write (R238 to R240). -/
namespace Sys2Proof.Machine

variable {s : State} {r : RowId} {x : Row} {g : CoreId}

/-- What a lane of a posted write leaves in its word at core g: the value stored, or that of its operation. -/
def RemoteLane.result (j : RemoteLane) (m : Memory) (g : CoreId) : Word :=
  match j.op with
  | none => j.b
  | some f => atomNew f (memWord m (sideKey g.toNat j.off)) j.b j.c

/-- Memory with a lane of a posted write performed at core g. -/
def RemoteLane.store (j : RemoteLane) (m : Memory) (g : CoreId) : Memory :=
  memWrite m (sideKey g.toNat j.off) (leBytes 4 (j.result m g).toNat)

theorem performLane_good {j : RemoteLane} (h : s.badWord (sideKey g.toNat j.off) = false) :
    performLane s g j = ({ s with mem := j.store s.mem g }, false) := by
  simp only [performLane, h, Bool.false_eq_true, if_false, RemoteLane.store, RemoteLane.result, rowStore4]
  cases j.op <;> rfl

theorem performLanes_good {l : List RemoteLane} (h : ∀ j ∈ l, s.badWord (sideKey g.toNat j.off) = false) :
    performLanes s g l = ({ s with mem := l.foldl (fun m j => j.store m g) s.mem }, none) := by
  induction l generalizing s with
  | nil => rfl
  | cons j l ih =>
    have hrest := ih (s := { s with mem := j.store s.mem g }) (fun k hk => h k (List.mem_cons_of_mem _ hk))
    simp only [performLanes, performLane_good (h j List.mem_cons_self), hrest, List.foldl_cons, Bool.false_eq_true, if_false]

theorem posted_blocked_iff {p : Posted} : p.blocked s = true ↔ ∃ j ∈ p.lanes,
    (∃ k, sbBlocker s p.core j.off (j.off + 4) true = some k) ∨ ∃ w, s.band? p.band = some w ∧ Band.gone s w = true := by
  have hword (j : RemoteLane) : (wordHold s ⟨p.band, p.core, j.off⟩).isSome = true ↔
      (∃ k, sbBlocker s p.core j.off (j.off + 4) true = some k) ∨ ∃ w, s.band? p.band = some w ∧ Band.gone s w = true := by
    simp only [wordHold]
    cases sbBlocker s p.core j.off (j.off + 4) true with
    | some k => simp
    | none => simp [Option.any_eq_true]
  simp only [Posted.blocked, wordsHold, Posted.words, List.findSome?_isSome_iff, List.mem_map,
    exists_exists_and_eq_and, hword]

theorem exec_remoteWritePerform_blocked {p : Posted} {l : List Posted} (hx : s.row? r = some x) (hp : x.posted = p :: l)
    (hb : p.blocked s = true) : exec (.remoteWritePerform r) s = .next s := by
  simp [execRemoteWritePerform, hx, hp, hb, eventNext]

/-- The oldest posted write, held back by nothing and of good words, is performed. -/
theorem exec_remoteWritePerform_free {p : Posted} {l : List Posted} (hx : s.row? r = some x) (hp : x.posted = p :: l)
    (hb : p.blocked s = false) (hgood : ∀ j ∈ p.lanes, s.badWord (sideKey p.core.toNat j.off) = false)
    (hbusy : ∀ w ∈ s.bands, w.busy (s.setRow r { x with posted := l }) = true) :
    exec (.remoteWritePerform r) s = .next { s.setRow r { x with posted := l } with
      mem := p.lanes.foldl (fun m j => j.store m p.core) s.mem } := by
  have hperf := performLanes_good (s := s.setRow r { x with posted := l }) (g := p.core) (l := p.lanes) hgood
  generalize ht : ({ s.setRow r { x with posted := l } with
    mem := p.lanes.foldl (fun m j => j.store m p.core) (s.setRow r { x with posted := l }).mem } : State) = t at hperf
  have hrow : t.row? r = some { x with posted := l } := by subst ht; exact row?_setRow_self hx _
  have hsweep : sweepBands t = t := sweepBands_busy (by subst ht; exact hbusy)
  simp only [exec_remoteWritePerform, execRemoteWritePerform, hx, hp, hb, Bool.false_eq_true, if_false, hperf, hrow,
    reportParity, setRow_same hrow, hsweep]
  rw [← ht, State.setRow_mem]

end Sys2Proof.Machine
end

section
/-! PROOF. The statement about remote loads, remote stores and posted writes. -/
open Sys2Proof Sys2Proof.Machine
namespace Sys2Proof.Proofs

/-- Settles O14: the lanes of a remote access all reach the band that the address names, so its checks are met; a posted
write that nothing holds back is performed lane by lane. -/
theorem remoteResult : Obligations.RemoteResult := by
  refine ⟨?access, ?perform⟩
  case access =>
    intro s r x w g d a p q o m n e hi hq L A f own
    refine ⟨fun hL => ⟨fun hp => execRldv_idle hi hq hL hp, fun hv => execRstv_idle hi hq hL hv⟩,
      fun hL hnb hband hgone => ⟨fun t ht hp hc hg => ?_, fun hv hc => ?_⟩⟩
    · subst ht
      exact execRldv_ready hi hq hL hp (fun _ _ => ⟨hnb, hband, hgone⟩) hc hg
    · exact execRstv_ready hi hq hL hv (fun _ _ => ⟨hnb, hband, hgone⟩) hc
  case perform =>
    intro s r x p l hx hp away
    refine ⟨fun ⟨j, hj, hheld⟩ => ?_, ?_⟩
    · exact exec_remoteWritePerform_blocked hx hp (posted_blocked_iff.2 ⟨j, hj, hheld.symm⟩)
    · intro haway hfree hgood hbusy key
      have hb : p.blocked s = false := by
        refine Bool.eq_false_iff.2 (fun hblocked => ?_)
        obtain ⟨j, hj, ⟨k, hk⟩ | hgone⟩ := posted_blocked_iff.1 hblocked
        · simp [hfree j hj] at hk
        · exact haway hgone
      exact exec_remoteWritePerform_free hx hp hb hgood hbusy

end Sys2Proof.Proofs
end

section
/-! SUPPORT. What an atomic combines (R240), and the issue of ATOM and RATOM (R240, R241). -/
namespace Sys2Proof.Machine

variable {s : State} {r : RowId} {x : Row} {w : Band} {g : Nat → Band} {d' a' b' d a b : Reg} {m : MReg} {op : AtomOp}
  {ord : BitVec 2} {e : Option Entry}

/-! ### One step by its operation -/

theorem atomNew_minI32 (u v c : Word) : (atomNew .minI32 u v c).toInt = min u.toInt v.toInt := by
  simp only [atomNew, BitVec.slt_iff_toInt_lt]
  split <;> omega

theorem atomNew_maxI32 (u v c : Word) : (atomNew .maxI32 u v c).toInt = max u.toInt v.toInt := by
  simp only [atomNew, BitVec.slt_iff_toInt_lt]
  split <;> omega

/-! ### Sources, orders and steps of an atomic -/

theorem casSource_regs (tb : Bool) : (casSource op d tb).map VSrc.reg = if op = .cas then [d] else [] := by
  unfold casSource
  split <;> rfl

theorem needSources_atomic (hv : SourcesReady x ([a, b] ++ if op = .cas then [d] else []) e) (tb : Bool) :
    (ctxOf s r x w d a b).needSources ([⟨a, false, 1⟩, ⟨b, false, 2⟩] ++ casSource op d tb) = .ok e := by
  refine needSources_ready ?_
  rw [List.map_append, casSource_regs]
  exact hv

/-- No PARITY of the row's posted writes is in the way of an atomic with release ordering (R403). -/
def ReleasesQuietly (s : State) (r : RowId) (ord : BitVec 2) : Prop :=
  ord.getLsbD 1 = true → ∀ y, (flushPosted s r).row? r = some y → y.ctl.parityDue = none

theorem releases_quiet (h : ReleasesQuietly s r ord) : (ctxOf s r x w d a b).releases ord = .ok () := by
  unfold Ctx.releases
  split
  · next ho =>
      cases hy : (flushPosted s r).row? r with
      | none => simp [Ctx.performed, hy, Except.map]
      | some y => simp [Ctx.performed, hy, h ho y hy, Except.map]
  · rfl

theorem vecValue_register (h : d.toNat < 28) : vecValue x e d = x.vget d := by
  have hne (k : Reg) (hk : 28 ≤ k.toNat) : d ≠ k := fun hd => by subst hd; omega
  simp only [vecValue, hne 28 (by decide), hne 30 (by decide), hne 31 (by decide), if_false]

theorem targOf_natCast (n : Nat) : targOf (n : Int) = BitVec.ofNat 64 n := BitVec.ofInt_natCast 64 n

/-- What lane i of an atomic does at offset k of its target core. -/
def atomLane (x : Row) (e : Option Entry) (a b d : Reg) (op : AtomOp) (k i : Nat) : RemoteLane :=
  ⟨k, BitVec.ofNat 64 (laneAt (vecValue x e a) i).toNat, some op, laneAt (vecValue x e b) i, laneAt (vecValue x e d) i⟩

/-- The address that lane i of an atomic forms. -/
def atomAddr (x : Row) (e : Option Entry) (a : Reg) (i : Nat) : Nat := (laneAt (vecValue x e a) i).toNat

/-! ### ATOM -/

theorem execAtom_ready (hi : Issues s r x w accRep false (fVec d') (fVec a') (fVec b') d a b)
    (hv : SourcesReady x ([a, b] ++ if op = .cas then [d] else []) e) (hd : x.vFull d = true) (hreg : d.toNat < 28)
    (hL : x.active w.laneW m ≠ 0) (ho : ReleasesQuietly s r ord)
    (hc : LocalClear s x w .update 4 (fun i => (atomAddr x e a i : Int)) (x.active w.laneW m))
    (hg : WordsGood (flushPosted (s.setRow r (afterPop x e)) r) (fun _ => w) (fun i => (atomAddr x e a i : Int))
      (x.active w.laneW m)) (sc : Bool) :
    exec (.atom d' a' b' m ord sc op) s = .next (completed ((flushPosted (s.setRow r (afterPop x e)) r).modRow r (fun y =>
      y.produce { dest := .vec d (x.active w.laneW m) zeroLanes, todo := (maskLanes (x.active w.laneW m)).map (fun i =>
        ⟨i, w.core, w.id, atomLane x e a b d op (w.wbase + atomAddr x e a i) i⟩) })) r) := by
  have hdst : (ctxOf s r x w d a b).needVDst d = .ok () := needVDst_full hd
  have hguard := localGuard_clear (r := r) (d := d) (a := a) (b := b) hc
  have hempty := laneAddrs_isEmpty (fun i => (atomAddr x e a i : Int)) hL
  have hsteps : atomSteps op (vecValue x e b) (x.vget d) (((ctxOf s r x w d a b).places (laneAddrs (x.active w.laneW m)
        (fun i => (atomAddr x e a i : Int)))).map (fun q => (q.lane, w.core, w.id, q.core, targOf q.off))) =
      (maskLanes (x.active w.laneW m)).map (fun i =>
        ⟨i, w.core, w.id, atomLane x e a b d op (w.wbase + atomAddr x e a i) i⟩) := by
    simp only [atomSteps, Ctx.places, laneAddrs, List.map_map]
    refine List.map_congr_left (fun i _ => ?_)
    simp [atomLane, atomAddr, Ctx.coreOff, targOf_natCast, vecValue_register hreg]
  simp only [atomAddr] at hguard hempty hsteps hg
  simp only [exec_atom, execAtom, issue_ready hi, ctxOf_a, ctxOf_b, ctxOf_d, ctxOf_td, needSources_atomic hv, exceptOkBind, hdst,
    ctxOf_act, ctxOf_x, hguard, hempty, Bool.false_eq_true, if_false, releases_quiet ho, ctxOf_s, ctxOf_r, ctxOf_band,
    firstBad_none hg, hsteps, ofExcept_ok, applyAct_done, atomProducer, atomAddr]

theorem execAtom_idle (hi : Issues s r x w accRep false (fVec d') (fVec a') (fVec b') d a b)
    (hv : SourcesReady x ([a, b] ++ if op = .cas then [d] else []) e) (hd : x.vFull d = true)
    (hL : x.active w.laneW m = 0) (sc : Bool) :
    exec (.atom d' a' b' m ord sc op) s = .next (completed (s.setRow r (afterPop x e)) r) := by
  have hdst : (ctxOf s r x w d a b).needVDst d = .ok () := needVDst_full hd
  have hguard := localGuard_clear (r := r) (d := d) (a := a) (b := b)
    (accessClear_idle (s := s) (x := x) (w := w) (fun _ => w) (fun _ => true) .update 4 (fun _ => 0))
  rw [laneAddrs_eq_nil _ rfl] at hguard
  simp only [exec_atom, execAtom, issue_ready hi, ctxOf_a, ctxOf_b, ctxOf_d, ctxOf_td, needSources_atomic hv, exceptOkBind, hdst,
    ctxOf_act, ctxOf_x, laneAddrs_eq_nil _ hL, hguard, List.isEmpty_nil, if_true, ctxOf_s, ctxOf_r, ofExcept_ok, applyAct_done]

/-! ### RATOM -/

/-- The offset that lane i of an RATOM forms, and the index of the band. -/
def ratomOff (x : Row) (e : Option Entry) (a : Reg) (i : Nat) : Int := ((atomAddr x e a i % 2 ^ 20 : Nat) : Int)
def ratomUp (x : Row) (e : Option Entry) (a : Reg) (i : Nat) : Nat := atomAddr x e a i / 2 ^ 20

theorem ratom_targ (i : Nat) :
    targOf ((ratomUp x e a i * 2 ^ 20 : Nat) + ratomOff x e a i) = BitVec.ofNat 64 (atomAddr x e a i) := by
  rw [ratomOff, ratomUp, ← Int.natCast_add, Nat.div_add_mod', targOf_natCast]

theorem ratomAddrs_eq (mk : Mask) : (maskLanes mk).map (fun i =>
    (⟨i, ((laneAt (vecValue x e a) i).toNat % 2 ^ 20 : Nat), (laneAt (vecValue x e a) i).toNat / 2 ^ 20⟩ : RemoteAddr)) =
      remoteAddrs mk (ratomOff x e a) (ratomUp x e a) := rfl

theorem execRatom_returns (hi : Issues s r x w accRep false (fVec d') (fVec a') (fVec b') d a b)
    (hv : SourcesReady x ([a, b] ++ if op = .cas then [d] else []) e) (hd : x.vFull d = true)
    (hL : x.active w.laneW m ≠ 0) (ho : ReleasesQuietly s r ord)
    (hr : Reaches s w g (ratomUp x e a) (x.active w.laneW m))
    (hc : AccessClear s x w g (fun i => decide (ratomUp x e a i = w.bandIx)) .update 4 (ratomOff x e a) (x.active w.laneW m)) :
    exec (.ratom d' a' b' m ord true op) s = .next (completed ((flushPosted (s.setRow r (afterPop x e)) r).modRow r (fun y =>
      y.produce { dest := .vec d (x.active w.laneW m) zeroLanes, todo := (maskLanes (x.active w.laneW m)).map (fun i =>
        ⟨i, (g i).core, (g i).id, atomLane x e a b d op ((g i).wbase + atomAddr x e a i % 2 ^ 20) i⟩) })) r) := by
  have hdst : (ctxOf s r x w d a b).needVDst d = .ok () := needVDst_full hd
  have hposted : (ctxOf s r x w d a b).needPosted = .ok () := needPosted_ready (hc.posted hL)
  have hsteps : atomSteps op (vecValue x e b) (vecValue x e d) ((remoteAddrs (x.active w.laneW m) (ratomOff x e a)
        (ratomUp x e a)).map (fun q => (q.lane, (remotePlace (ctxOf s r x w d a b) q).1, remoteBandId (ctxOf s r x w d a b) q,
          (remotePlace (ctxOf s r x w d a b) q).2, q.targ))) =
      (maskLanes (x.active w.laneW m)).map (fun i =>
        ⟨i, (g i).core, (g i).id, atomLane x e a b d op ((g i).wbase + atomAddr x e a i % 2 ^ 20) i⟩) := by
    simp only [atomSteps, remoteAddrs, List.map_map]
    refine List.map_congr_left (fun i hi => ?_)
    have hi := mem_maskLanes.1 hi
    simp only [Function.comp, remotePlace_reached hr hi, remoteBandId_reached hr hi, RemoteAddr.targ, ratom_targ, atomLane]
    rfl
  simp only [exec_ratom, execRatom, Bool.not_true, Bool.false_and, Bool.false_eq_true, if_false, if_true, issue_ready hi, ctxOf_a,
    ctxOf_b, ctxOf_d, ctxOf_td, needSources_atomic hv, exceptOkBind, hdst, ctxOf_act, ctxOf_x, ratomAddrs_eq,
    remoteGuard_clear hr hc, remoteAddrs_isEmpty hL, hposted, releases_quiet ho, ctxOf_s, ctxOf_r, hsteps, ofExcept_ok,
    applyAct_done, atomProducer]

/-- The updates that an RATOM without RET posts, one for each lane. -/
def ratomPosts (g : Nat → Band) (x : Row) (e : Option Entry) (a b d : Reg) (op : AtomOp) (mk : Mask) : List Posted :=
  (maskLanes mk).map (fun i =>
    ⟨(g i).core, (g i).id, [atomLane x e a b d op ((g i).wbase + atomAddr x e a i % 2 ^ 20) i]⟩)

theorem ratomPosts_eq (hr : Reaches s w g (ratomUp x e a) mk) :
    (remoteAddrs mk (ratomOff x e a) (ratomUp x e a)).map (fun q =>
      postLanes (ctxOf s r x w d a b) [q] (some op) (vecValue x e b) (vecValue x e d)) = ratomPosts g x e a b d op mk := by
  simp only [remoteAddrs, List.map_map, ratomPosts]
  refine List.map_congr_left (fun i hi => ?_)
  have hi := mem_maskLanes.1 hi
  simp only [Function.comp, postLanes_cons, remotePlace_reached hr hi, remoteBandId_reached hr hi, List.map_cons, List.map_nil,
    RemoteAddr.targ, ratom_targ, atomLane]
  rfl

/-- The field D of an RATOM without RET: a compare-and-swap reads it (R240). -/
def ratomField (op : AtomOp) (d : Reg) : FieldUse := if op = .cas then fVec d else fNone

theorem ratomField_eq : (if !false && op != .cas then fNone else fVec d) = ratomField op d := by
  cases op <;> rfl

theorem execRatom_posts (hi : Issues s r x w accRep false (ratomField op d') (fVec a') (fVec b') d a b)
    (hv : SourcesReady x ([a, b] ++ if op = .cas then [d] else []) e)
    (hL : x.active w.laneW m ≠ 0) (ho : ReleasesQuietly s r ord)
    (hr : Reaches s w g (ratomUp x e a) (x.active w.laneW m))
    (hc : AccessClear s x w g (fun i => decide (ratomUp x e a i = w.bandIx)) .update 4 (ratomOff x e a) (x.active w.laneW m)) :
    exec (.ratom d' a' b' m ord false op) s = .next (completed ((flushPosted (s.setRow r (afterPop x e)) r).modRow r (fun y =>
      { y with posted := y.posted ++ ratomPosts g x e a b d op (x.active w.laneW m) })) r) := by
  have hposted : (ctxOf s r x w d a b).needPosted = .ok () := needPosted_ready (hc.posted hL)
  simp only [exec_ratom, execRatom, ratomField_eq, issue_ready hi, ctxOf_a,
    ctxOf_b, ctxOf_d, ctxOf_td, needSources_atomic hv, exceptOkBind, ctxOf_act, ctxOf_x, ratomAddrs_eq, Bool.false_eq_true, if_false,
    remoteGuard_clear hr hc, remoteAddrs_isEmpty hL, hposted, releases_quiet ho, ctxOf_s, ctxOf_r, ratomPosts_eq hr, ofExcept_ok,
    applyAct_done]

theorem execRatom_idle (ret : Bool)
    (hi : Issues s r x w accRep false (if ret then fVec d' else ratomField op d') (fVec a') (fVec b') d a b)
    (hv : SourcesReady x ([a, b] ++ if op = .cas then [d] else []) e) (hd : ret = true → x.vFull d = true)
    (hL : x.active w.laneW m = 0) :
    exec (.ratom d' a' b' m ord ret op) s = .next (completed (s.setRow r (afterPop x e)) r) := by
  have hfield : (if !ret && op != .cas then fNone else fVec d') = if ret then fVec d' else ratomField op d' := by
    cases ret with
    | false => exact ratomField_eq
    | true => rfl
  simp only [exec_ratom, execRatom, hfield, issue_ready hi, ctxOf_a,
    ctxOf_b, ctxOf_d, ctxOf_td, needSources_atomic hv, exceptOkBind, ctxOf_act, ctxOf_x, ratomAddrs_eq,
    remoteAddrs_eq_nil hL, remoteGuard_nil, List.isEmpty_nil, if_true, ctxOf_s, ctxOf_r]
  split
  · next h =>
      rw [needVDst_full (c := ctxOf s r x w d a b) (hd h)]
      rfl
  · rfl

end Sys2Proof.Machine
end

section
/-! SUPPORT. The steps of returning atomics, made by the turns of their row, before its next access, or before they complete
(R240, R403). -/
namespace Sys2Proof.Machine

variable {s : State} {r : RowId} {x y : Row} {p : Producer} {t : AtomStep} {l : List AtomStep} {pre ps : List Producer}

/-! ### One step -/

/-- The key of the word of a step. -/
def AtomStep.key (t : AtomStep) : Nat := sideKey t.core.toNat t.what.off

/-- The state with a step made at its word. -/
def AtomStep.made (s : State) (t : AtomStep) : State := { s with mem := t.what.store s.mem t.core }

theorem stepAtom_good {d : Reg} {mk : Mask} {v : Lanes} (hb : s.badWord t.key = false) (hd : p.dest = .vec d mk v)
    (hl : t.lane < 64) : stepAtom s p t =
      (t.made s, { p with dest := .vec d mk (v.set t.lane (memWord s.mem t.key) hl) }, none) := by
  have hbad : s.badWord (sideKey t.core.toNat t.what.off) = false := hb
  simp only [stepAtom, hbad, Bool.false_eq_true, if_false, hd, hl, dite_true, performLane_good hbad]
  rfl

theorem stepAtom_bad (hb : s.badWord t.key = true) : stepAtom s p t = (s, p, some t.what.targ) := by
  have hbad : s.badWord (sideKey t.core.toNat t.what.off) = true := hb
  simp only [stepAtom, hbad, if_true]

theorem stepAtom_todo (m : List AtomStep) : stepAtom s { p with todo := m } t =
    ((stepAtom s p t).1, { (stepAtom s p t).2.1 with todo := m }, (stepAtom s p t).2.2) := by
  simp only [stepAtom]
  split
  · rfl
  · obtain ⟨dest, _, _, _, _, _⟩ := p
    cases dest <;> rfl

/-- The steps that a producer still records do not matter to those that are made. -/
theorem stepAtoms_todo (m : List AtomStep) : stepAtoms s { p with todo := m } l = stepAtoms s p l := by
  induction l generalizing s p with
  | nil => rfl
  | cons t l ih => simp only [stepAtoms, stepAtom_todo, ih]

/-! ### All steps of one atomic, in order -/

/-- Each lane returns what its word held when its last step was made; lanes without a step keep what they held. -/
theorem stepAtoms_good {d : Reg} {mk : Mask} {v : Lanes} (h : ∀ j ∈ l, s.badWord j.key = false ∧ j.lane < 64)
    (hd : p.dest = .vec d mk v) : ∃ u : Lanes,
      stepAtoms s p l = (l.foldl AtomStep.made s, { p with dest := .vec d mk u, todo := [] }, none) ∧
      (∀ i : Fin 64, (∀ z ∈ l, z.lane ≠ i.val) → u[i] = v[i]) ∧
      ∀ (i : Fin 64) (l1 l2 : List AtomStep) (j : AtomStep), l = l1 ++ j :: l2 → j.lane = i.val →
        (∀ z ∈ l2, z.lane ≠ i.val) → u[i] = memWord (l1.foldl AtomStep.made s).mem j.key := by
  induction l generalizing s p v with
  | nil => exact ⟨v, by rw [← hd]; rfl, fun _ _ => rfl, fun i l1 l2 j hl => by simp at hl⟩
  | cons t l ih =>
    obtain ⟨hbad, hlane⟩ := h t List.mem_cons_self
    obtain ⟨u, hsteps, hkeep, hlast⟩ := ih (s := t.made s)
      (p := { p with dest := .vec d mk (v.set t.lane (memWord s.mem t.key) hlane) })
      (fun j hj => h j (List.mem_cons_of_mem _ hj)) rfl
    refine ⟨u, ?_, fun i hi => ?_, fun i l1 l2 j hl hj hrest => ?_⟩
    · simp only [stepAtoms, stepAtom_good hbad hd hlane, hsteps, List.foldl_cons, firstOf]
    · rw [hkeep i (fun z hz => hi z (List.mem_cons_of_mem _ hz))]
      exact Vector.getElem_set_ne _ _ (hi t List.mem_cons_self)
    · cases l1 with
      | nil =>
        obtain ⟨rfl, rfl⟩ := List.cons.inj hl
        rw [hkeep i hrest]
        simp [← hj]
      | cons k l1 =>
        obtain ⟨rfl, rfl⟩ := List.cons.inj hl
        exact hlast i l1 l2 j rfl hj hrest

/-- R239, R240: what a row whose one producer is an atomic owes is performed by the steps of that atomic. -/
theorem flushPosted_atomic {d : Reg} {mk : Mask} {v : Lanes} (hy : s.row? r = some y) (hposted : y.posted = [])
    (hprods : y.prods = [p]) (h : ∀ j ∈ p.todo, s.badWord j.key = false ∧ j.lane < 64) (hd : p.dest = .vec d mk v) :
    ∃ u : Lanes, flushPosted s r =
        (p.todo.foldl AtomStep.made s).setRow r { y with prods := [{ p with dest := .vec d mk u, todo := [] }] } ∧
      ∀ (i : Fin 64) (l1 l2 : List AtomStep) (j : AtomStep), p.todo = l1 ++ j :: l2 → j.lane = i.val →
        (∀ z ∈ l2, z.lane ≠ i.val) → u[i] = memWord (l1.foldl AtomStep.made s).mem j.key := by
  obtain ⟨u, hsteps, -, hlast⟩ := stepAtoms_good h hd
  refine ⟨u, ?_, hlast⟩
  simp only [flushPosted, hy, performOwed, hposted, performPosted, hprods, finishAtoms, hsteps, firstOf, Row.dueParity]

/-! ### A turn of a row (R240) -/

theorem stepFirst_first (hpre : ∀ q ∈ pre, q.todo = []) (hp : p.todo = t :: l) : stepFirst s (pre ++ p :: ps) =
    if (wordHold s t.word).isSome then (s, pre ++ p :: ps, none)
    else ((stepAtom s p t).1, pre ++ { (stepAtom s p t).2.1 with todo := l } :: ps, (stepAtom s p t).2.2) := by
  induction pre with
  | nil => simp only [List.nil_append, stepFirst, hp]
  | cons q pre ih =>
    have hq : q.todo = [] := hpre q List.mem_cons_self
    simp only [List.cons_append, stepFirst, hq, ih (fun k hk => hpre k (List.mem_cons_of_mem _ hk))]
    split <;> rfl

theorem atomTurn_held (hx : s.row? r = some x) (hprods : x.prods = pre ++ p :: ps) (hpre : ∀ q ∈ pre, q.todo = [])
    (hp : p.todo = t :: l) (hw : wordHold s t.word ≠ none) : atomTurn s r = s := by
  have hsome : (wordHold s t.word).isSome = true := Option.isSome_iff_ne_none.2 hw
  simp only [atomTurn, hx, hprods, stepFirst_first hpre hp, hsome, if_true, reportParity]
  rw [← hprods]
  exact setRow_same hx

/-- The row with the first step left of its oldest atomic made. -/
def Row.stepped (x : Row) (pre ps : List Producer) (q : Producer) (l : List AtomStep) : Row :=
  { x with prods := pre ++ { q with todo := l } :: ps }

theorem atomTurn_free (hx : s.row? r = some x) (hprods : x.prods = pre ++ p :: ps) (hpre : ∀ q ∈ pre, q.todo = [])
    (hp : p.todo = t :: l) (hw : wordHold s t.word = none) : atomTurn s r =
      reportParity (stepAtom s p t).1 r (x.stepped pre ps (stepAtom s p t).2.1 l) false (stepAtom s p t).2.2 := by
  simp only [atomTurn, hx, hprods, stepFirst_first hpre hp, hw, Option.isSome_none, Bool.false_eq_true, if_false]
  rfl

theorem atomTurn_good {d : Reg} {mk : Mask} {v : Lanes} (hx : s.row? r = some x) (hprods : x.prods = pre ++ p :: ps)
    (hpre : ∀ q ∈ pre, q.todo = []) (hp : p.todo = t :: l) (hw : wordHold s t.word = none) (hb : s.badWord t.key = false)
    (hd : p.dest = .vec d mk v) (hl : t.lane < 64) : atomTurn s r = (t.made s).setRow r
      (x.stepped pre ps { p with dest := .vec d mk (v.set t.lane (memWord s.mem t.key) hl) } l) := by
  rw [atomTurn_free hx hprods hpre hp hw, stepAtom_good hb hd hl]
  rfl

/-- R403: the PARITY of a running row is due at its next boundary. -/
theorem reportParity_running (hx : x.status = .running) (o : Option Dword) :
    reportParity s r x false o = s.setRow r (x.dueParity o) := by
  cases o <;> simp [reportParity, hx, Row.dueParity]

theorem dueParity_some (a : Dword) :
    x.dueParity (some a) = { x with ctl := { x.ctl with parityDue := some (x.ctl.parityDue.getD (6, a)) } } := by
  cases hx : x.ctl.parityDue with
  | none => simp only [Row.dueParity, hx, Option.getD_none]
  | some q =>
    simp only [Row.dueParity, hx, Option.getD_some]
    rw [← hx]

/-! ### Steps made before a completion (R221, R240) -/

@[simp] theorem badWord_setRow (k : Nat) : (s.setRow r y).badWord k = s.badWord k := rfl

theorem performLane_setRow (g : CoreId) (j : RemoteLane) :
    performLane (s.setRow r y) g j = ((performLane s g j).1.setRow r y, (performLane s g j).2) := by
  cases hb : s.badWord (sideKey g.toNat j.off) with
  | true => simp only [performLane, badWord_setRow, hb, if_true]
  | false =>
    simp only [performLane, badWord_setRow, hb, Bool.false_eq_true, if_false]
    cases j.op <;> rfl

theorem stepAtom_setRow : stepAtom (s.setRow r y) p t = ((stepAtom s p t).1.setRow r y, (stepAtom s p t).2) := by
  cases hb : s.badWord (sideKey t.core.toNat t.what.off) with
  | true => simp only [stepAtom, badWord_setRow, hb, if_true]
  | false => simp only [stepAtom, badWord_setRow, hb, Bool.false_eq_true, if_false, performLane_setRow, State.setRow_mem]

theorem stepAtoms_setRow : stepAtoms (s.setRow r y) p l = ((stepAtoms s p l).1.setRow r y, (stepAtoms s p l).2) := by
  induction l generalizing s p with
  | nil => rfl
  | cons t l ih => simp only [stepAtoms, stepAtom_setRow, ih]

theorem finishAtoms_setRow : finishAtoms (s.setRow r y) ps = ((finishAtoms s ps).1.setRow r y, (finishAtoms s ps).2) := by
  induction ps generalizing s with
  | nil => rfl
  | cons p ps ih => simp only [finishAtoms, stepAtoms_setRow, ih]

theorem firstOf_none (o : Option Dword) : firstOf none o = o := rfl

theorem firstOf_assoc (u v o : Option Dword) : firstOf (firstOf u v) o = firstOf u (firstOf v o) := by cases u <;> rfl

theorem finishAtoms_first (hpre : ∀ q ∈ pre, q.todo = []) : finishAtoms s (pre ++ p :: ps) =
    ((finishAtoms (stepAtoms s p p.todo).1 ps).1, pre ++ (stepAtoms s p p.todo).2.1 :: (finishAtoms (stepAtoms s p p.todo).1 ps).2.1,
      firstOf (stepAtoms s p p.todo).2.2 (finishAtoms (stepAtoms s p p.todo).1 ps).2.2) := by
  induction pre with
  | nil => rfl
  | cons q pre ih =>
    have hq : stepAtoms s q q.todo = (s, q, none) := by
      have hdone : q.todo = [] := hpre q List.mem_cons_self
      obtain ⟨_, _, _, _, _, _⟩ := q
      subst hdone
      rfl
    simp only [List.cons_append, finishAtoms, hq, ih (fun k hk => hpre k (List.mem_cons_of_mem _ hk)), firstOf_none]

/-- All steps of a row's atomics are the first step left, and then the steps left after it. -/
theorem finishAtoms_stepped (hpre : ∀ q ∈ pre, q.todo = []) (hp : p.todo = t :: l) : finishAtoms s (pre ++ p :: ps) =
    ((finishAtoms (stepAtom s p t).1 (pre ++ { (stepAtom s p t).2.1 with todo := l } :: ps)).1,
      (finishAtoms (stepAtom s p t).1 (pre ++ { (stepAtom s p t).2.1 with todo := l } :: ps)).2.1,
      firstOf (stepAtom s p t).2.2
        (finishAtoms (stepAtom s p t).1 (pre ++ { (stepAtom s p t).2.1 with todo := l } :: ps)).2.2) := by
  rw [finishAtoms_first hpre, finishAtoms_first hpre, hp]
  simp only [stepAtoms, stepAtoms_todo, firstOf_assoc]

theorem dueParity_setProds (o : Option Dword) : ({ x with prods := ps } : Row).dueParity o = { x.dueParity o with prods := ps } := by
  simp only [Row.dueParity]
  split <;> rfl

theorem dueParity_dueParity (u v : Option Dword) : (x.dueParity u).dueParity v = x.dueParity (firstOf u v) := by
  cases u with
  | none => rfl
  | some a =>
    cases v with
    | none => rfl
    | some b => simp [dueParity_some, firstOf]

@[simp] theorem dueParity_status (o : Option Dword) : (x.dueParity o).status = x.status := by unfold Row.dueParity; split <;> rfl
@[simp] theorem dueParity_prods (o : Option Dword) : (x.dueParity o).prods = x.prods := by unfold Row.dueParity; split <;> rfl

theorem endSteps_running (hx : s.row? r = some x) (hrun : x.status = .running) : endSteps s r =
    (finishAtoms s x.prods).1.setRow r { x.dueParity (finishAtoms s x.prods).2.2 with prods := (finishAtoms s x.prods).2.1 } := by
  simp only [endSteps, hx]
  rw [reportParity_running (by exact hrun), dueParity_setProds]

/-- The row after a turn of its atomics: the first step left is made, and its failure is due. -/
def turnedRow (s : State) (x : Row) (pre ps : List Producer) (p : Producer) (t : AtomStep) (l : List AtomStep) : Row :=
  (x.stepped pre ps (stepAtom s p t).2.1 l).dueParity (stepAtom s p t).2.2

theorem atomTurn_running (hx : s.row? r = some x) (hprods : x.prods = pre ++ p :: ps)
    (hpre : ∀ q ∈ pre, q.todo = []) (hp : p.todo = t :: l) (hrun : x.status = .running) (hw : wordHold s t.word = none) :
    atomTurn s r = (stepAtom s p t).1.setRow r (turnedRow s x pre ps p t l) := by
  rw [atomTurn_free hx hprods hpre hp hw, reportParity_running (by exact hrun), turnedRow]

theorem stepAtom_row : (stepAtom s p t).1.row? r = s.row? r := by rw [stepAtom_frame]; rfl

/-- The turns of a row make steps that its completions would make before them. -/
theorem endSteps_atomTurn (hx : s.row? r = some x) (hprods : x.prods = pre ++ p :: ps) (hpre : ∀ q ∈ pre, q.todo = [])
    (hp : p.todo = t :: l) (hrun : x.status = .running) (hw : wordHold s t.word = none) :
    endSteps (atomTurn s r) r = endSteps s r := by
  have hrow : (atomTurn s r).row? r = some (turnedRow s x pre ps p t l) := by
    rw [atomTurn_running hx hprods hpre hp hrun hw]
    exact row?_setRow_self (stepAtom_row.trans hx) _
  have hturned : (turnedRow s x pre ps p t l).prods = pre ++ { (stepAtom s p t).2.1 with todo := l } :: ps := by
    simp [turnedRow, Row.stepped]
  rw [endSteps_running hrow (by simpa [turnedRow, Row.stepped] using hrun), hturned, endSteps_running hx hrun, hprods,
    finishAtoms_stepped hpre hp, atomTurn_running hx hprods hpre hp hrun hw, finishAtoms_setRow, setRow_setRow]
  simp only [turnedRow, dueParity_dueParity, Row.stepped, dueParity_setProds]

theorem wordsHold_eq_none_iff {m : List FarWord} : wordsHold s m = none ↔ ∀ k ∈ m, wordHold s k = none := by
  simp [wordsHold, List.findSome?_eq_none_iff]

theorem stepsHeld_of_row (hx : s.row? r = some x) : stepsHeld s r = (wordsHold s x.stepWords).isSome := by
  simp only [stepsHeld, hx]

theorem stepsHeld_atomTurn (hx : s.row? r = some x) (hprods : x.prods = pre ++ p :: ps) (hpre : ∀ q ∈ pre, q.todo = [])
    (hp : p.todo = t :: l) (hrun : x.status = .running) (hw : wordsHold s x.stepWords = none) :
    stepsHeld (atomTurn s r) r = false := by
  have hfree := wordsHold_eq_none_iff.1 hw
  have hfirst : wordHold s t.word = none := hfree _ (by simp [Row.stepWords, hprods, hp])
  have hrow : (atomTurn s r).row? r = some (turnedRow s x pre ps p t l) := by
    rw [atomTurn_running hx hprods hpre hp hrun hfirst]
    exact row?_setRow_self (stepAtom_row.trans hx) _
  have hleft : wordsHold s (turnedRow s x pre ps p t l).stepWords = none := by
    refine wordsHold_eq_none_iff.2 (fun k hk => hfree k ?_)
    simp only [Row.stepWords, turnedRow, Row.stepped, dueParity_prods, hprods, List.flatMap_append, List.flatMap_cons,
      List.mem_append, hp, List.map_cons, List.mem_cons] at hk ⊢
    tauto
  rw [stepsHeld_of_row hrow, atomTurn_running hx hprods hpre hp hrun hfirst, stepAtom_frame, Option.isSome_eq_false_iff,
    Option.isNone_iff_eq_none]
  exact hleft

theorem exec_producerComplete_held (hx : s.row? r = some x) (h : wordsHold s x.stepWords ≠ none) (n : Nat) :
    exec (.producerComplete r n) s = .next s := by
  have hheld : stepsHeld s r = true := by rw [stepsHeld_of_row hx]; exact Option.isSome_iff_ne_none.2 h
  simp only [exec_producerComplete, execProducerComplete, hheld, if_true, eventNext]

/-- R221, R240: it does not matter to a completion whether a turn has made the first step left. -/
theorem exec_producerComplete_atomTurn (hx : s.row? r = some x) (hprods : x.prods = pre ++ p :: ps)
    (hpre : ∀ q ∈ pre, q.todo = []) (hp : p.todo = t :: l) (hrun : x.status = .running)
    (hw : wordsHold s x.stepWords = none) (n : Nat) :
    exec (.producerComplete r n) s = exec (.producerComplete r n) (atomTurn s r) := by
  have hfirst : wordHold s t.word = none := wordsHold_eq_none_iff.1 hw _ (by simp [Row.stepWords, hprods, hp])
  have hnow : stepsHeld s r = false := by rw [stepsHeld_of_row hx, hw]; rfl
  simp only [exec_producerComplete, execProducerComplete, hnow, stepsHeld_atomTurn hx hprods hpre hp hrun hw,
    endSteps_atomTurn hx hprods hpre hp hrun hfirst, Bool.false_eq_true, if_false]

end Sys2Proof.Machine
end

section
/-! PROOF. The statement about atomics. -/
open Sys2Proof Sys2Proof.Machine
namespace Sys2Proof.Proofs

/-- Settles O15: an atomic whose checks are met records one step, or posts one update, for each active lane; the first step
left is made by a turn, and the steps of one atomic in order are a fold over them. -/
theorem atomicResult : Obligations.AtomicResult := by
  refine ⟨?operations, ?issue, ?turns⟩
  case operations =>
    exact fun u v c => ⟨rfl, rfl, rfl, rfl, rfl, atomNew_minI32 u v c, atomNew_maxI32 u v c, rfl⟩
  case issue =>
    intro s r x w g d a b p q o m ord sc f e L A B D t what D0 ok idle returns posts
    refine ⟨fun hi hv hp hreg => ⟨fun hL => ?_, fun hL => ?_, fun hL ho hc hg => ?_⟩, fun hr hc hL ho => ⟨fun hi hv hp hreg => ?_,
      fun hf hi hv => ?_, fun hi hv => ?_⟩, fun hL => ⟨fun hf hi hv => ?_, fun hi hv => ?_⟩, ?steps⟩
    · exact execAtom_idle hi hv hp hL sc
    · exact execRatom_idle true hi hv (fun _ => hp) hL
    · exact execAtom_ready hi hv hp hreg hL ho hc hg sc
    · exact execRatom_returns hi hv hp hL ho hr hc
    · have hfield : ratomField f d = fNone := if_neg hf
      refine ⟨_, execRatom_posts (op := f) (d' := d) (by rw [hfield]; exact hi) (by rw [if_neg hf]; exact hv) hL ho hr hc, ?_, ?_⟩
      · rw [ratomPosts, List.map_map]
        rfl
      · rw [ratomPosts, List.map_map]
        rfl
    · exact execRatom_posts (op := .cas) hi hv hL ho hr hc
    · have hfield : ratomField f d = fNone := if_neg hf
      exact fun _ => execRatom_idle (op := f) (d' := d) false (by rw [hfield]; exact hi) (by rw [if_neg hf]; exact hv) nofun hL
    · exact fun _ => execRatom_idle (op := .cas) false hi hv nofun hL
    case steps =>
      intro u y k v l c key new hy hprods hd hk hgood
      have hnew : new = AtomStep.made := by
        funext z j
        simp only [new, AtomStep.made, RemoteLane.store, RemoteLane.result, rowStore4]
        cases j.what.op <;> rfl
      rw [hnew]
      obtain ⟨hbad, hlane⟩ := hgood c (by simp [hk])
      refine ⟨fun hw => ⟨_, atomTurn_good (pre := []) hy hprods (by simp) hk hw hbad hd hlane, fun i => ?_⟩, fun hposted => ?_⟩
      · simp only [Fin.getElem_fin, Vector.getElem_set, eq_comm (a := c.lane)]
        rfl
      · exact flushPosted_atomic hy hposted hprods hgood hd
  case turns =>
    intro s r x pre ps p t l hx hprods hpre hp key
    refine ⟨fun hw => atomTurn_held hx hprods hpre hp hw, fun d mk v i f hd hlane hop hw hb => ?_, fun hrun hw hb => ?_,
      fun hrun hw n => exec_producerComplete_atomTurn hx hprods hpre hp hrun hw n, fun hw n => exec_producerComplete_held hx hw n⟩
    · rw [atomTurn_good hx hprods hpre hp hw hb hd (hlane ▸ i.isLt)]
      simp only [AtomStep.made, RemoteLane.store, RemoteLane.result, hop, hlane]
      rfl
    · rw [atomTurn_running hx hprods hpre hp hrun hw, turnedRow, stepAtom_bad hb, dueParity_some]
      rfl

end Sys2Proof.Proofs
end

section
/-! SUPPORT. Cross-lane and mask instructions whose operands are ready (R242 to R248). -/
namespace Sys2Proof.Machine

variable {s : State} {r : RowId} {x : Row} {w : Band} {d' a' b' d a b : Reg} {k m : MReg} {e : Option Entry} {ta tb : Bool}

/-! ### Moves between lanes (R242, R244, R245, R247) -/

theorem moveLanes_ready {l : List VSrc} (sc : Option Bool) (mk : Mask) (f : Option Entry → Fin 64 → Word)
    (hv : SourcesReady x (l.map VSrc.reg) e) (hb : sc.isSome = true → x.scalarReady b) (hd : destReady s x d) :
    moveLanes (ctxOf s r x w d a b) l sc mk f = .ok (.done (writeVec s r (afterPop x e) d mk (Vector.ofFn (f e)))) := by
  have hsrc := needSources_ready (c := ctxOf s r x w d a b) hv
  have hdst : (ctxOf s r x w d a b).needDest d = .ok () := needDest_ready hd
  cases sc with
  | none => simp only [moveLanes, parityFirst_ok, exceptOkBind, hsrc, ctxOf_d, hdst, ctxOf_s, ctxOf_r, ctxOf_x]
  | some tb =>
    have hsca : (ctxOf s r x w d a b).needS b tb 2 = .ok () := needS_ready (hb rfl) tb 2
    simp only [moveLanes, ctxOf_b, hsca, parityFirst_ok, exceptOkBind, hsrc, ctxOf_d, hdst, ctxOf_s, ctxOf_r, ctxOf_x]

theorem execVshfl_ready {f : BitVec 2} (hi : Issues s r x w accRep false (fVec d') (fVec a') (fVec b') d a b)
    (hv : SourcesReady x [a, b] e) (hd : destReady s x d) : exec (.vshfl d' a' b' m ta tb f) s =
      .next (completed (writeVec s r (afterPop x e) d (x.active w.laneW m) (Vector.ofFn (fun i =>
        laneAt (vecValue x e a) (shuffleLane f w.laneW i (laneAt (vecValue x e b) i).toNat)))) r) := by
  rw [exec_vshfl, execVshfl, issue_ready hi, moveLanes_ready _ _ _ hv (by simp) hd]
  rfl

theorem execVbcst_ready (hi : Issues s r x w accRep false (fVec d') (fVec a') (fSca b') d a b)
    (hv : SourcesReady x [a] e) (hb : x.scalarReady b) (hd : destReady s x d) : exec (.vbcst d' a' b' m ta tb) s =
      .next (completed (writeVec s r (afterPop x e) d (x.active w.laneW m) (Vector.ofFn (fun _ =>
        laneAt (vecValue x e a) ((x.sget b).toNat % w.laneW)))) r) := by
  rw [exec_vbcst, execVbcst, issue_ready hi, moveLanes_ready _ _ _ hv (fun _ => hb) hd]
  rfl

theorem execVcprs_ready (hi : Issues s r x w accRep false (fVec d') (fVec a') fNone d a b)
    (hv : SourcesReady x [a] e) (hd : destReady s x d) : exec (.vcprs d' a' m ta) s =
      .next (completed (writeVec s r (afterPop x e) d (laneMask (maskLanes (x.active w.laneW m)).length) (Vector.ofFn (fun i =>
        laneAt (vecValue x e a) ((maskLanes (x.active w.laneW m)).getD i 64)))) r) := by
  rw [exec_vcprs, execVcprs, issue_ready hi, moveLanes_ready _ _ _ hv (by simp) hd]
  rfl

theorem execVexpd_ready (hi : Issues s r x w accRep false (fVec d') (fVec a') fNone d a b)
    (hv : SourcesReady x [a] e) (hd : destReady s x d) : exec (.vexpd d' a' m ta) s =
      .next (completed (writeVec s r (afterPop x e) d (x.active w.laneW m) (Vector.ofFn (fun i =>
        laneAt (vecValue x e a) (countBits (x.active w.laneW m).toNat i)))) r) := by
  rw [exec_vexpd, execVexpd, issue_ready hi, moveLanes_ready _ _ _ hv (by simp) hd]
  rfl

theorem execVtos_ready {sx : Bool} (hi : Issues s r x w accRep false (fSca d') (fVec a') (fSca b') d a b)
    (hv : SourcesReady x [a] e) (hb : x.scalarReady b) (hd : x.sFull d = true) : exec (.vtos d' a' b' ta tb sx) s =
      .next (completed (s.setRow r ((afterPop x e).sset d
        (if sx then (laneAt (vecValue x e a) ((x.sget b).toNat % w.laneW)).signExtend 64
         else (laneAt (vecValue x e a) ((x.sget b).toNat % w.laneW)).setWidth 64))) r) := by
  have hsca : (ctxOf s r x w d a b).needS b tb 2 = .ok () := needS_ready hb tb 2
  have hsrc : (ctxOf s r x w d a b).needSources [⟨a, ta, 1⟩] = .ok e := needSources_ready hv
  have hdst : (ctxOf s r x w d a b).needSDst d = .ok () := needSDst_full hd
  rw [exec_vtos, execVtos, issue_ready hi]
  simp only [ctxOf_a, ctxOf_b, ctxOf_d, hsca, parityFirst_ok, exceptOkBind, hsrc, hdst]
  rfl

theorem execStov_ready (hi : Issues s r x w accRep false (fVec d') (fSca a') (fSca b') d a b)
    (ha : x.scalarReady a) (hb : x.scalarReady b) (hd : destReady s x d) : exec (.stov d' a' b' m ta tb) s =
      .next (completed (writeVec s r x d (x.active w.laneW m &&& (1#64 <<< ((x.sget b).toNat % w.laneW)))
        (Vector.ofFn (fun _ => (x.sget a).setWidth 32))) r) := by
  have hsca : (ctxOf s r x w d a b).needS a ta 1 = .ok () := needS_ready ha ta 1
  have hscb : (ctxOf s r x w d a b).needS b tb 2 = .ok () := needS_ready hb tb 2
  have hdst : (ctxOf s r x w d a b).needDest d = .ok () := needDest_ready hd
  have hval : Vector.ofFn (fun _ : Fin 64 => (x.sget a).setWidth 32) = Vector.replicate 64 ((x.sget a).setWidth 32) := by
    ext i hi
    simp
  rw [exec_stov, execStov, issue_ready hi, hval]
  simp only [ctxOf_a, ctxOf_b, ctxOf_d, hsca, hscb, parityFirst_ok, exceptOkBind, hdst]
  rfl

/-! ### Reductions and scans (R243) -/

theorem execVred_ready {op : RedOp} {ty : RedTy} (hi : Issues s r x w accRep false (fSca d') (fVec a') fNone d a b)
    (hv : SourcesReady x [a] e) (hd : x.sFull d = true) : exec (.vred d' a' m ta op ty) s =
      .next (completed (s.setRow r ((afterPop x e).produce
        { dest := .sca d
            (if ty = .i32 then (reduceLanes op ty x.fp.ftz (x.active w.laneW m) (vecValue x e a) w.laneW).1.signExtend 64
             else (reduceLanes op ty x.fp.ftz (x.active w.laneW m) (vecValue x e a) w.laneW).1.setWidth 64)
          raises := redRaises ty
          fl := (reduceLanes op ty x.fp.ftz (x.active w.laneW m) (vecValue x e a) w.laneW).2 })) r) := by
  have hsrc : (ctxOf s r x w d a b).needSources [⟨a, ta, 1⟩] = .ok e := needSources_ready hv
  have hdst : (ctxOf s r x w d a b).needSDst d = .ok () := needSDst_full hd
  rw [exec_vred, execVred, issue_ready hi]
  simp only [ctxOf_a, ctxOf_d, exceptOkBind, hsrc, hdst]
  rfl

theorem execVscan_ready {op : RedOp} {ty : RedTy} (hi : Issues s r x w accRep false (fVec d') (fVec a') fNone d a b)
    (hv : SourcesReady x [a] e) (hd : x.vFull d = true) : exec (.vscan d' a' m ta op ty) s =
      .next (completed (s.setRow r ((afterPop x e).produce
        { dest := .vec d (x.active w.laneW m) (Vector.ofFn (fun i =>
            (scanLanes op ty x.fp.ftz (x.active w.laneW m) (vecValue x e a) w.laneW).1.getD i 0))
          raises := redRaises ty
          fl := (scanLanes op ty x.fp.ftz (x.active w.laneW m) (vecValue x e a) w.laneW).2 })) r) := by
  have hsrc : (ctxOf s r x w d a b).needSources [⟨a, ta, 1⟩] = .ok e := needSources_ready hv
  have hdst : (ctxOf s r x w d a b).needVDst d = .ok () := needVDst_full hd
  rw [exec_vscan, execVscan, issue_ready hi]
  simp only [ctxOf_a, ctxOf_d, exceptOkBind, hsrc, hdst]
  rfl

/-! ### Masks (R246, R248) -/

theorem execMpopc_ready {f : PopFn} (hi : Issues s r x w accRep false (fSca d') (fMsk k) fNone d a b) (hd : x.sFull d = true) :
    exec (.mpopc d' k m f) s = .next (completed (s.setRow r (x.sset d
      (BitVec.ofNat 64 (popValue f (x.mget k &&& x.active w.laneW m) w.laneW)))) r) := by
  have hdst : (ctxOf s r x w d a b).needSDst d = .ok () := needSDst_full hd
  rw [exec_mpopc, execMpopc, issue_ready hi]
  simp only [ctxOf_d, hdst, exceptOkBind]
  rfl

theorem execMmovsMS_ready (hi : Issues s r x w accRep false (fSca d') (fMsk k) fNone d a b) (hd : x.sFull d = true) :
    exec (.mmovsMS d' k) s = .next (completed (s.setRow r (x.sset d (x.mget k &&& laneMask w.laneW))) r) := by
  have hdst : (ctxOf s r x w d a b).needSDst d = .ok () := needSDst_full hd
  rw [exec_mmovsMS, execMmovsMS, issue_ready hi]
  simp only [ctxOf_d, hdst, exceptOkBind]
  rfl

theorem execMmovsSM_ready (hi : Issues s r x w accRep false (fMsk k) (fSca a') fNone d a b) (ha : x.scalarReady a) :
    exec (.mmovsSM k a' ta) s = .next (completed (s.setRow r (x.mset k (x.sget a &&& laneMask w.laneW))) r) := by
  have hsca : (ctxOf s r x w d a b).needS a ta 1 = .ok () := needS_ready ha ta 1
  rw [exec_mmovsSM, execMmovsSM, issue_ready hi]
  simp only [ctxOf_a, hsca, exceptOkBind]
  rfl

theorem execMlog_ready {n : MReg} {f : MaskOp} (hi : Issues s r x w accRep false (fMsk k) (fMsk m) (fMsk n) d a b) :
    exec (.mlog k m n f) s = .next (completed (s.setRow r
      (x.mset k (laneMask w.laneW &&& maskLogic f (x.mget m) (x.mget n)))) r) := by
  rw [exec_mlog, execMlog, issue_ready hi, BitVec.and_comm]
  rfl

end Sys2Proof.Machine
end

section
/-! SUPPORT. The tree of a reduction (R92): its one value sums its leaves, or is the least of them. -/
namespace Sys2Proof.Machine

variable {f : Word → Word → Word × Flags}

/-! ### One level -/

theorem redLevel_length : ∀ l : List Word, (redLevel f l).1.length = (l.length + 1) / 2
  | [] => rfl
  | [_] => by simp [redLevel]
  | u :: v :: l => by simp only [redLevel, List.length_cons, redLevel_length l]; omega

theorem redLevel_flags (hf : ∀ u v, (f u v).2 = 0) : ∀ l : List Word, (redLevel f l).2 = 0
  | [] => rfl
  | [_] => rfl
  | u :: v :: l => by simp [redLevel, hf, redLevel_flags hf l]

theorem redLevel_sum (hf : ∀ u v, (f u v).1 = u + v) : ∀ l : List Word, (redLevel f l).1.sum = l.sum
  | [] => rfl
  | [_] => rfl
  | u :: v :: l => by simp only [redLevel, hf, List.sum_cons, redLevel_sum hf l, add_assoc]

/-- A combination that takes the least of two words in an order. -/
structure TakesLeast (f : Word → Word → Word × Flags) (le : Word → Word → Bool) : Prop where
  takes : ∀ u v, (f u v).1 = u ∨ (f u v).1 = v
  left : ∀ u v, le (f u v).1 u = true
  right : ∀ u v, le (f u v).1 v = true
  refl : ∀ u, le u u = true
  trans : ∀ u v z, le u v = true → le v z = true → le u z = true

/-- Every value of list m is one of l, and below every value of l lies one of m. -/
def Covers (le : Word → Word → Bool) (m l : List Word) : Prop := (∀ u ∈ m, u ∈ l) ∧ ∀ v ∈ l, ∃ u ∈ m, le u v = true

theorem redLevel_covers {le : Word → Word → Bool} (h : TakesLeast f le) : ∀ l : List Word, Covers le (redLevel f l).1 l
  | [] => ⟨fun _ hu => hu, fun _ hv => nomatch hv⟩
  | [v] => ⟨fun _ hu => hu, fun u hu => ⟨u, hu, h.refl u⟩⟩
  | u :: v :: l => by
    obtain ⟨hin, hbelow⟩ := redLevel_covers h l
    refine ⟨fun z hz => ?_, fun z hz => ?_⟩
    · rcases List.mem_cons.1 hz with rfl | hz
      · rcases h.takes u v with hu | hv
        · simp [hu]
        · simp [hv]
      · exact List.mem_cons_of_mem _ (List.mem_cons_of_mem _ (hin z hz))
    · rcases List.mem_cons.1 hz with rfl | hz
      · exact ⟨_, List.mem_cons_self, h.left z v⟩
      · rcases List.mem_cons.1 hz with rfl | hz
        · exact ⟨_, List.mem_cons_self, h.right u z⟩
        · obtain ⟨y, hy, hle⟩ := hbelow z hz
          exact ⟨y, List.mem_cons_of_mem _ hy, hle⟩

/-! ### All levels -/

/-- Enough levels leave one value. -/
theorem redTree_single {n : Nat} {l : List Word} (h0 : l ≠ []) (hn : l.length ≤ 2 ^ n) : ∃ v, (redTree f n l).1 = [v] := by
  induction n generalizing l with
  | zero =>
    have : 0 < l.length := List.length_pos_iff.2 h0
    exact List.length_eq_one_iff.1 (by simp only [redTree]; omega)
  | succ n ih =>
    have : 0 < l.length := List.length_pos_iff.2 h0
    have hlen := redLevel_length (f := f) l
    exact ih (List.length_pos_iff.1 (by omega)) (by rw [Nat.pow_succ] at hn; omega)

theorem redTree_flags (hf : ∀ u v, (f u v).2 = 0) (n : Nat) (l : List Word) : (redTree f n l).2 = 0 := by
  induction n generalizing l with
  | zero => rfl
  | succ n ih => simp [redTree, redLevel_flags hf, ih]

theorem redTree_sum (hf : ∀ u v, (f u v).1 = u + v) (n : Nat) (l : List Word) : (redTree f n l).1.sum = l.sum := by
  induction n generalizing l with
  | zero => rfl
  | succ n ih => simp only [redTree, ih, redLevel_sum hf]

theorem redTree_covers {le : Word → Word → Bool} (h : TakesLeast f le) (n : Nat) (l : List Word) :
    Covers le (redTree f n l).1 l := by
  induction n generalizing l with
  | zero => exact ⟨fun _ hu => hu, fun v hv => ⟨v, hv, h.refl v⟩⟩
  | succ n ih =>
    obtain ⟨hin, hbelow⟩ := ih (redLevel f l).1
    obtain ⟨hin1, hbelow1⟩ := redLevel_covers h l
    refine ⟨fun u hu => hin1 u (hin u hu), fun v hv => ?_⟩
    obtain ⟨y, hy, hyv⟩ := hbelow1 v hv
    obtain ⟨z, hz, hzy⟩ := hbelow y hy
    exact ⟨z, hz, h.trans z y v hzy hyv⟩

/-! ### The integer combinations (R92) -/

theorem takesLeast_of_key {le : Word → Word → Bool} (key : Word → Int) (hf : ∀ u v, (f u v).1 = if key v < key u then v else u)
    (hle : ∀ u v, le u v = true ↔ key u ≤ key v) : TakesLeast f le := by
  refine ⟨fun u v => ?_, fun u v => ?_, fun u v => ?_, fun u => (hle u u).2 le_rfl,
    fun u v z huv hvz => (hle u z).2 (((hle u v).1 huv).trans ((hle v z).1 hvz))⟩ <;> rw [hf]
  · exact (ite_eq_or_eq _ _ _).symm
  · rw [hle]
    split <;> omega
  · rw [hle]
    split <;> omega

theorem takesLeast_minI32 : TakesLeast (redOp .min .i32) (fun u v => u.sle v) :=
  takesLeast_of_key BitVec.toInt (fun u v => by simp only [redOp, BitVec.slt_iff_toInt_lt]) (fun u v => BitVec.sle_iff_toInt_le)

theorem takesLeast_maxI32 : TakesLeast (redOp .max .i32) (fun u v => v.sle u) :=
  takesLeast_of_key (fun u => -u.toInt) (fun u v => by simp only [redOp, BitVec.slt_iff_toInt_lt, neg_lt_neg_iff])
    (fun u v => by rw [BitVec.sle_iff_toInt_le, neg_le_neg_iff])

theorem takesLeast_minN32 : TakesLeast (redOp .min .n32) (fun u v => u.ule v) :=
  takesLeast_of_key (fun u => u.toNat) (fun u v => by simp only [redOp, BitVec.ult_iff_toNat_lt, Int.ofNat_lt])
    (fun u v => by rw [BitVec.ule_iff_toNat_le, Int.ofNat_le])

theorem takesLeast_maxN32 : TakesLeast (redOp .max .n32) (fun u v => v.ule u) :=
  takesLeast_of_key (fun u => -u.toNat)
    (fun u v => by simp only [redOp, BitVec.ult_iff_toNat_lt, neg_lt_neg_iff, Int.ofNat_lt])
    (fun u v => by rw [BitVec.ule_iff_toNat_le, neg_le_neg_iff, Int.ofNat_le])

end Sys2Proof.Machine
end

section
/-! SUPPORT. Integer reductions and scans of the lanes of a mask (R92 to R94, R243). -/
namespace Sys2Proof.Machine

variable {op : RedOp} {ty : RedTy} {ftz : Bool} {mk : Mask} {v : Lanes} {w : Nat} {x : Row} {m : MReg}

/-! ### Active lanes and leaves -/

theorem active_lt {i : Nat} (h : (x.active w m).getLsbD i = true) : i < w := by
  simp only [Row.active, BitVec.getLsbD_and, Bool.and_eq_true, laneMask, BitVec.getLsbD_ofNat, Nat.testBit_two_pow_sub_one,
    decide_eq_true_eq] at h
  exact h.2.2

/-- A type of integers: its combinations raise no flag. -/
def IntegerTy (ty : RedTy) : Prop := ty = .i32 ∨ ty = .n32

/-- The leaf that lane i gives: its word where it is active, else the identity. -/
def leafAt (op : RedOp) (ty : RedTy) (mk : Mask) (v : Lanes) (i : Nat) : Word :=
  if mk.getLsbD i then laneAt v i else redIdentity op ty

theorem redLeaves_int (hty : IntegerTy ty) : redLeaves op ty ftz mk v w = (List.range w).map (leafAt op ty mk v) := by
  rcases hty with rfl | rfl <;> rfl

theorem redOp_flags (hty : IntegerTy ty) (a b : Word) : (redOp op ty a b).2 = 0 := by
  rcases hty with rfl | rfl <;> cases op <;> rfl

theorem redOp_add (hty : IntegerTy ty) (a b : Word) : (redOp .add ty a b).1 = a + b := by
  rcases hty with rfl | rfl <;> rfl

/-- At the lane widths of R18 the tree of integers leaves one value, of all the leaves. -/
theorem reduceLanes_int (hty : IntegerTy ty) (hw : w ∈ [16, 32, 64]) : ∃ z,
    (redTree (redOp op ty) 6 ((List.range w).map (leafAt op ty mk v))).1 = [z] ∧ reduceLanes op ty ftz mk v w = (z, 0) := by
  have hbound : w ≠ 0 ∧ w ≤ 2 ^ 6 := by
    simp only [List.mem_cons, List.not_mem_nil, or_false] at hw
    omega
  obtain ⟨z, hz⟩ := redTree_single (f := redOp op ty) (n := 6) (l := (List.range w).map (leafAt op ty mk v))
    (by simp [hbound.1]) (by simpa using hbound.2)
  refine ⟨z, hz, ?_⟩
  have hfl := redTree_flags (redOp_flags (op := op) hty) 6 ((List.range w).map (leafAt op ty mk v))
  simp only [reduceLanes, redLeaves_int hty, hz, hfl, List.headD_cons]

/-! ### Sums -/

/-- The words of the lanes that p chooses, added in lane order. -/
theorem foldl_add_lanes (p : Fin 64 → Prop) [DecidablePred p] (g : Fin 64 → Word) :
    (List.finRange 64).foldl (fun t i => if p i then t + g i else t) 0 = ∑ i : Fin 64, if p i then g i else 0 := by
  have hfold (l : List (Fin 64)) (t : Word) :
      l.foldl (fun t i => if p i then t + g i else t) t = t + (l.map (fun i => if p i then g i else 0)).sum := by
    induction l generalizing t with
    | nil => simp
    | cons i l ih =>
      rw [List.foldl_cons, ih, List.map_cons, List.sum_cons, ← add_assoc]
      split <;> simp
  rw [hfold, zero_add, ← List.ofFn_eq_map, List.sum_ofFn]

theorem leafAt_add (hty : IntegerTy ty) (i : Fin 64) : leafAt .add ty mk v i = if mk.getLsbD i.val = true then v[i] else 0 := by
  rw [leafAt, laneAt_fin]
  rcases hty with rfl | rfl <;> rfl

/-- A sum of leaves is that of the active lanes among them. -/
theorem sum_leafAt (hty : IntegerTy ty) {n : Nat} (hn : n ≤ 64) : ∑ j ∈ Finset.range n, leafAt .add ty mk v j =
    (List.finRange 64).foldl (fun t (j : Fin 64) => if j.val < n ∧ mk.getLsbD j.val = true then t + v[j] else t) 0 := by
  have hchosen (j : Fin 64) : (if j.val < n ∧ mk.getLsbD j.val = true then v[j] else 0) =
      if j.val ∈ Finset.range n then leafAt .add ty mk v j else 0 := by
    rw [leafAt_add hty, ite_and]
    simp only [Finset.mem_range]
  rw [foldl_add_lanes, Finset.sum_congr rfl (fun j _ => hchosen j),
    Fin.sum_univ_eq_sum_range (fun j => if j ∈ Finset.range n then leafAt .add ty mk v j else 0), Finset.sum_ite_mem,
    Finset.inter_eq_right.2 (Finset.range_mono hn)]

theorem width_bounds (hw : w ∈ [16, 32, 64]) : 0 < w ∧ w ≤ 64 := by
  simp only [List.mem_cons, List.not_mem_nil, or_false] at hw
  omega

/-- VRED.ADD of integers adds the active lanes. -/
theorem reduceLanes_add (hty : IntegerTy ty) (hw : w ∈ [16, 32, 64]) (hmk : ∀ i, mk.getLsbD i = true → i < w) :
    reduceLanes .add ty ftz mk v w =
      ((List.finRange 64).foldl (fun t (i : Fin 64) => if mk.getLsbD i.val then t + v[i] else t) 0, 0) := by
  obtain ⟨z, hz, hr⟩ := reduceLanes_int (op := .add) (mk := mk) (v := v) (ftz := ftz) hty hw
  have hsum := redTree_sum (redOp_add hty) 6 ((List.range w).map (leafAt .add ty mk v))
  have hlt (i : Fin 64) : (i.val < w ∧ mk.getLsbD i.val = true) ↔ mk.getLsbD i.val = true := and_iff_right_of_imp (hmk i)
  have hleaves : ((List.range w).map (leafAt .add ty mk v)).sum = ∑ j ∈ Finset.range w, leafAt .add ty mk v j := rfl
  rw [hz, List.sum_singleton, hleaves, sum_leafAt hty (width_bounds hw).2] at hsum
  rw [hr, hsum]
  simp only [hlt]

/-! ### Least values -/

/-- VRED.MIN and VRED.MAX of integers: the value of an active lane that is below all of them, or the identity if there is none. -/
theorem reduceLanes_least {le : Word → Word → Bool} (h : TakesLeast (redOp op ty) le)
    (htop : ∀ u, le (redIdentity op ty) u = true → u = redIdentity op ty) (hty : IntegerTy ty) (hw : w ∈ [16, 32, 64])
    (hmk : ∀ i, mk.getLsbD i = true → i < w) : ∃ z, reduceLanes op ty ftz mk v w = (z, 0) ∧
      (∀ i : Fin 64, mk.getLsbD i = true → le z v[i] = true) ∧
      ((∃ i : Fin 64, mk.getLsbD i = true ∧ z = v[i]) ∨ (mk = 0 ∧ z = redIdentity op ty)) := by
  obtain ⟨z, hz, hr⟩ := reduceLanes_int (op := op) (mk := mk) (v := v) (ftz := ftz) hty hw
  obtain ⟨hin, hbelow⟩ := redTree_covers h 6 ((List.range w).map (leafAt op ty mk v))
  rw [hz] at hin hbelow
  have hleaf (i : Fin 64) (hi : mk.getLsbD i = true) : leafAt op ty mk v i = v[i] := by rw [leafAt, if_pos hi, laneAt_fin]
  have hle (i : Fin 64) (hi : mk.getLsbD i = true) : le z v[i] = true := by
    obtain ⟨u, hu, hle⟩ := hbelow _ (List.mem_map.2 ⟨i.val, List.mem_range.2 (hmk i hi), hleaf i hi⟩)
    rwa [List.mem_singleton.1 hu] at hle
  refine ⟨z, hr, hle, ?_⟩
  obtain ⟨j, hj, hzj⟩ := List.mem_map.1 (hin z (List.mem_singleton.2 rfl))
  have hj64 : j < 64 := (List.mem_range.1 hj).trans_le (width_bounds hw).2
  by_cases hact : mk.getLsbD j = true
  · exact .inl ⟨⟨j, hj64⟩, hact, hzj.symm.trans (hleaf ⟨j, hj64⟩ hact)⟩
  have hzid : z = redIdentity op ty := by rw [← hzj, leafAt, if_neg hact]
  by_cases hsome : ∃ i : Fin 64, mk.getLsbD i = true
  · obtain ⟨i, hi⟩ := hsome
    exact .inl ⟨i, hi, hzid.trans (htop _ (hzid ▸ hle i hi)).symm⟩
  · refine .inr ⟨BitVec.eq_of_getLsbD_eq (fun i hi => ?_), hzid⟩
    simpa using fun hon => hsome ⟨⟨i, hi⟩, hon⟩

/-- The identity of a minimum or maximum of integers lies above every word. -/
theorem identity_extreme {u : Word} :
    ((0x7FFFFFFF#32).sle u = true → u = 0x7FFFFFFF) ∧ ((0xFFFFFFFF#32).ule u = true → u = 0xFFFFFFFF) ∧
    (u.sle (0x80000000#32) = true → u = 0x80000000) ∧ (u.ule (0#32) = true → u = 0) := by
  refine ⟨fun h => ?_, fun h => ?_, fun h => ?_, fun h => ?_⟩
  · rw [BitVec.sle_iff_toInt_le] at h
    exact BitVec.eq_of_toInt_eq (le_antisymm (Int.le_of_lt_add_one (BitVec.toInt_lt (x := u))) h)
  · rw [BitVec.ule_iff_toNat_le] at h
    exact BitVec.eq_of_toNat_eq (le_antisymm (Nat.le_of_lt_succ u.isLt) h)
  · rw [BitVec.sle_iff_toInt_le] at h
    exact BitVec.eq_of_toInt_eq (le_antisymm h (BitVec.le_toInt u))
  · rw [BitVec.ule_iff_toNat_le] at h
    exact BitVec.eq_of_toNat_eq (Nat.le_zero.1 h)

/-! ### The scan of integers -/

/-- The sums of the n words that end in each lane. -/
def windowSums (h : Nat → Word) (w n : Nat) : List Word :=
  (List.range w).map (fun i => ∑ j ∈ Finset.Ico (i + 1 - n) (i + 1), h j)

/-- A step at distance n doubles the window. -/
theorem scanStep_windowSums (h : Nat → Word) (n : Nat) :
    scanStep (redOp .add .i32) mk n (windowSums h w n) = (windowSums h w (2 * n), 0) := by
  have hat {i : Nat} (hi : i < w) : (windowSums h w n).getD i 0 = ∑ j ∈ Finset.Ico (i + 1 - n) (i + 1), h j := by
    simp [windowSums, hi]
  have hflags (l : List (Word × Flags)) (hl : ∀ p ∈ l, p.2 = 0) : l.foldl (fun a p => a ||| p.2) 0 = 0 := by
    induction l with
    | nil => rfl
    | cons p l ih => rw [List.foldl_cons, hl p List.mem_cons_self]; exact ih (fun q hq => hl q (List.mem_cons_of_mem _ hq))
  refine Prod.ext ?_ (hflags _ fun p hp => ?_)
  · simp only [scanStep, List.map_map, windowSums, List.length_map, List.length_range]
    refine List.map_congr_left fun i hi => ?_
    have hi := List.mem_range.1 hi
    change (if i < n then _ else _ : Word × Flags).1 = _
    split
    · next hlt =>
      rw [← windowSums, hat hi, Nat.sub_eq_zero_of_le (by omega), Nat.sub_eq_zero_of_le (by omega)]
    · next hge =>
      rw [← windowSums, hat hi, hat (i := i - n) (by omega), redOp_add (.inl rfl), add_comm,
        show i - n + 1 = i + 1 - n by omega, Finset.sum_Ico_consecutive _ (by omega) (by omega)]
      congr 2
      omega
  · obtain ⟨i, -, rfl⟩ := List.mem_map.1 hp
    split
    · rfl
    · change (if _ then (0 : Flags) else 0) = 0
      exact ite_self _

/-- VSCAN.ADD.I32: lane i holds the sum of the active lanes up to i. -/
theorem scanLanes_add (hw : w ∈ [16, 32, 64]) :
    scanLanes .add .i32 ftz mk v w = (windowSums (leafAt .add .i32 mk v) w w, 0) := by
  have hone : redLeaves .add .i32 ftz mk v w = windowSums (leafAt .add .i32 mk v) w 1 := by
    rw [redLeaves_int (.inl rfl)]
    exact List.map_congr_left fun i _ => by simp
  simp only [List.mem_cons, List.not_mem_nil, or_false] at hw
  rcases hw with rfl | rfl | rfl <;>
    simp [scanLanes, hone, scanStep_windowSums, List.filter]

theorem scanLanes_add_getD (hw : w ∈ [16, 32, 64]) (i : Fin 64) (hi : i.val < w) :
    (scanLanes .add .i32 ftz mk v w).1.getD i 0 = (List.finRange 64).foldl
      (fun t (j : Fin 64) => if j ≤ i ∧ mk.getLsbD j.val = true then t + v[j] else t) 0 := by
  have hle (j : Fin 64) : j.val < i.val + 1 ↔ j ≤ i := Nat.lt_succ_iff
  have hsum := sum_leafAt (ty := .i32) (mk := mk) (v := v) (.inl rfl) i.isLt
  simp only [Nat.succ_eq_add_one, hle] at hsum
  rw [scanLanes_add hw, ← hsum]
  simp [windowSums, hi, Nat.sub_eq_zero_of_le (Nat.succ_le_of_lt hi)]

end Sys2Proof.Machine
end

section
/-! SUPPORT. The FP32 sums and scans at lane width 16 that R94, R95 and R97 fix, and the lane that VSHFL reads (R242). -/
namespace Sys2Proof.Machine

variable {op : RedOp} {ty : RedTy} {ftz : Bool} {mk : Mask} {v : Lanes} {w : Nat}

theorem redRaises_int (hty : IntegerTy ty) : redRaises ty = false := by rcases hty with rfl | rfl <;> rfl

/-! ### Leaves of FP32 -/

/-- The leaf of an active lane that holds an FP32 word. -/
def floatLeaf (ftz : Bool) (u : Word) : Word := redCanon .f32 (ftzWord ftz u)

theorem redLeaves_f32 : redLeaves op .f32 ftz mk v w =
    (List.range w).map (fun i => if mk.getLsbD i then floatLeaf ftz (laneAt v i) else redIdentity op .f32) := rfl

/-- The lanes of the worked example of R95. -/
def exampleLane (i : Nat) : Word := if i = 0 then 0x4B800000 else if i = 2 ∨ i = 3 then 0x3F800000 else 0

/-- The worked example of R95. -/
theorem reduceLanes_example (h : ∀ i : Fin 64, i.val < 16 → v[i] = exampleLane i) :
    reduceLanes .add .f32 ftz (BitVec.ofNat 64 (2 ^ 16 - 1)) v 16 = (0x4B800001, 0) := by
  have hleaves : redLeaves .add .f32 ftz (BitVec.ofNat 64 (2 ^ 16 - 1)) v 16 = (List.range 16).map exampleLane := by
    rw [redLeaves_f32]
    refine List.map_congr_left fun i hi => ?_
    have hi := List.mem_range.1 hi
    have hlane : laneAt v i = exampleLane i := (laneAt_fin v ⟨i, by omega⟩).trans (h ⟨i, by omega⟩ hi)
    rw [hlane]
    clear hlane
    cases ftz <;> decide +revert
  rw [reduceLanes, hleaves]
  decide

/-! ### A NaN alone in lane 0 (R94) -/

theorem floatLeaf_nan {u : Word} (h : 0x7F800000 < (u &&& 0x7FFFFFFF).toNat) : floatLeaf ftz u = 0x7FC00000 := by
  have hlow : (u &&& 0x7FFFFFFF).toNat = u.toNat % 2 ^ 31 := by
    rw [BitVec.toNat_and]
    exact Nat.and_two_pow_sub_one_eq_mod u.toNat 31
  rw [hlow] at h
  have hexp : u.toNat / 2 ^ 23 % 256 ≠ 0 := by omega
  have hnan : unpack .f32 u.toNat = .nan := by
    have hc : u.toNat % (2 * 2 ^ 31) % 2 ^ 31 = u.toNat % 2 ^ 31 := by omega
    have he : u.toNat % 2 ^ 31 / 2 ^ 23 = 255 := by omega
    have hfr : u.toNat % 2 ^ 31 % 2 ^ 23 ≠ 0 := by omega
    simp only [unpack, Fmt.signBit, Fmt.eb, Fmt.fb, Fmt.hasInf, Nat.reduceAdd, hc, he, hfr]
    rfl
  simp only [floatLeaf, redCanon, ftzWord, hexp, decide_false, Bool.and_false, Bool.false_eq_true, if_false, hnan, FVal.isNan,
    if_true]
  rfl

/-- A step of the scan leaves lane 0, and takes no flag of an inactive lane. -/
theorem scanStep_lane0 {f : Word → Word → Word × Flags} {d : Nat} (hd : 0 < d) (l : List Word) :
    (scanStep f 1 d l).1.getD 0 0 = l.getD 0 0 ∧ (scanStep f 1 d l).2 = 0 := by
  refine ⟨?_, ?_⟩
  · cases l with
    | nil => rfl
    | cons u l => simp [scanStep, hd, List.range_succ_eq_map]
  · have hflags (i : Nat) : (if i < d then (l.getD i 0, (0 : Flags)) else
        let n := f (l.getD i 0) (l.getD (i - d) 0)
        (n.1, if (1 : Mask).getLsbD i then n.2 else 0)).2 = 0 := by
      split
      · rfl
      · have hoff : (1 : Mask).getLsbD i = false := by simp; omega
        exact if_neg (by simp only [hoff, Bool.false_eq_true, not_false_eq_true])
    have hor (fl : Flags) : fl ||| 0 = fl := BitVec.or_zero
    simp only [scanStep, List.foldl_map, hflags, hor]
    exact List.foldl_fixed _

theorem scanLanes_lane0 : (scanLanes op ty ftz 1 v w).1.getD 0 0 = (redLeaves op ty ftz 1 v w).getD 0 0 ∧
    (scanLanes op ty ftz 1 v w).2 = 0 := by
  have hfold (ds : List Nat) (hds : ∀ d ∈ ds, 0 < d) (acc : List Word × Flags) (hacc : acc.2 = 0) :
      let out := ds.foldl (fun acc d => let (l, fl) := scanStep (redOp op ty) 1 d acc.1; (l, acc.2 ||| fl)) acc
      out.1.getD 0 0 = acc.1.getD 0 0 ∧ out.2 = 0 := by
    induction ds generalizing acc with
    | nil => exact ⟨rfl, hacc⟩
    | cons d ds ih =>
      obtain ⟨hl, hfl⟩ := scanStep_lane0 (f := redOp op ty) (hds d List.mem_cons_self) acc.1
      obtain ⟨hl', hfl'⟩ := ih (fun d hd => hds d (List.mem_cons_of_mem _ hd))
        ((scanStep (redOp op ty) 1 d acc.1).1, acc.2 ||| (scanStep (redOp op ty) 1 d acc.1).2) (by rw [hacc, hfl]; rfl)
      exact ⟨hl'.trans hl, hfl'⟩
  refine hfold _ (fun d hd => ?_) _ rfl
  have := List.mem_of_mem_filter hd
  simp only [List.mem_cons, List.not_mem_nil, or_false] at this
  omega

theorem scanLanes_nan (h : 0x7F800000 < (v[0] &&& 0x7FFFFFFF).toNat) :
    (scanLanes op .f32 ftz 1 v 16).1.getD 0 0 = 0x7FC00000 := by
  rw [scanLanes_lane0.1, ← floatLeaf_nan (ftz := ftz) h]
  have hlane : laneAt v 0 = v[0] := laneAt_fin v 0
  rw [← hlane]
  rfl

/-! ### Roundings of inactive lanes (R97) -/

/-- The lanes whose sums round in inactive lanes only. -/
def roundingLane (i : Nat) : Word :=
  if i = 1 then 0xBF800000 else if i = 2 then 0x3F800000 else if i = 4 then 0x30800000 else 0

theorem scanLanes_rounding (h : ∀ i : Fin 64, i.val < 5 → v[i] = roundingLane i) :
    (scanLanes .add .f32 false (BitVec.ofNat 64 (2 ^ 5 - 1)) v 16).2 = 0 ∧
    (scanLanes .add .f32 false (BitVec.ofNat 64 (2 ^ 5 - 1)) v 16).1.getD 1 0 = 0xBF800000 ∧
    (scanLanes .add .f32 false (BitVec.ofNat 64 (2 ^ 5 - 1)) v 16).1.getD 2 0 = 0 ∧
    (scanLanes .add .f32 false (BitVec.ofNat 64 (2 ^ 5 - 1)) v 16).1.getD 4 0 = 0x30800000 := by
  have hleaves : redLeaves .add .f32 false (BitVec.ofNat 64 (2 ^ 5 - 1)) v 16 =
      (List.range 16).map (fun i => if i < 5 then roundingLane i else 0x80000000) := by
    rw [redLeaves_f32]
    refine List.map_congr_left fun i hi => ?_
    have hi := List.mem_range.1 hi
    by_cases hlt : i < 5
    · have hlane : laneAt v i = roundingLane i := (laneAt_fin v ⟨i, by omega⟩).trans (h ⟨i, by omega⟩ hlt)
      rw [hlane]
      clear hlane hi
      decide +revert
    · have hoff : (BitVec.ofNat 64 (2 ^ 5 - 1)).getLsbD i = false := by
        rw [BitVec.getLsbD_ofNat, Nat.testBit_two_pow_sub_one]
        simp [hlt]
      rw [hoff, if_neg hlt]
      rfl
  rw [scanLanes, hleaves]
  decide

/-! ### The lane that VSHFL reads (R242) -/

theorem laneAt_eq {i : Nat} {j : Fin 64} (h : i = j.val) : laneAt v i = v[j] := by
  subst h
  exact laneAt_fin v j

theorem shuffleLane_down {i b j : Nat} (h : (j : Int) = if (i : Int) - b < 0 then (i : Int) else i - b) :
    shuffleLane 2 w i b = j := by
  change (if i < b then i else i - b) = j
  split at h <;> split <;> omega

end Sys2Proof.Machine
end

section
/-! PROOF. Moves between lanes, reductions, scans and masks (R92 to R97, R242 to R248). -/
open Sys2Proof Sys2Proof.Machine
namespace Sys2Proof.Proofs

/-- Settles O11: part (1) is the issue of each instruction with its operands ready; part (2) holds because a tree of
integers sums its leaves or takes their least, and each step of the scan doubles the window that a lane holds. -/
theorem laneMoveResult : Obligations.LaneMoveResult := by
  unfold Obligations.LaneMoveResult
  refine ⟨fun s r x w d a b p q o k m n ta tb sx f rp ry pf mf e => ?_, fun s r x w d a b p q o m ta tb e hw => ?_⟩
  · refine ⟨fun hi hv hd => execVshfl_ready hi hv hd, fun hi hv hb hd => execVbcst_ready hi hv hb hd,
      fun hi hv => ⟨fun hd => ⟨execVcprs_ready hi hv hd, execVexpd_ready hi hv hd⟩, fun hd => execVscan_ready hi hv hd⟩,
      fun hi hv hd => execVred_ready hi hv hd, fun hi hv hb hd => execVtos_ready hi hv hb hd, ?_, ?_,
      fun hi ha => execMmovsSM_ready hi ha, ?_⟩
    · rintro hi ha hb hd rfl
      exact execStov_ready hi ha hb hd
    · refine fun hi hd => ⟨?_, execMmovsMS_ready hi hd⟩
      rw [execMpopc_ready hi hd]
      cases pf <;> rfl
    · intro hi
      rw [execMlog_ready hi]
      cases mf <;> rfl
  · have hmk (i : Nat) (h : (x.active w.laneW m).getLsbD i = true) : i < w.laneW := active_lt h
    refine ⟨fun hi hv hd => ⟨?_, ?_, ?_, ?_⟩, fun hi hv hd => ⟨?_, ?_, ?_, ?_, ?_, ?_, ?_⟩, fun hi hv hd => ⟨?_, ?_, ?_⟩⟩
    · exact ⟨_, execVshfl_ready hi hv hd, fun i j _ h => laneAt_eq (by rw [laneAt_fin]; exact h.symm)⟩
    · exact ⟨_, execVshfl_ready hi hv hd, fun i j _ h => laneAt_eq (by rw [laneAt_fin]; exact h.symm)⟩
    · exact ⟨_, execVshfl_ready hi hv hd, fun i j _ h => laneAt_eq (by rw [laneAt_fin]; exact shuffleLane_down h)⟩
    · exact ⟨_, execVshfl_ready hi hv hd, fun i j _ h => laneAt_eq (by rw [laneAt_fin]; exact h.symm)⟩
    · rw [execVred_ready hi hv hd, reduceLanes_add (.inl rfl) hw hmk, if_pos rfl, redRaises_int (.inl rfl)]
    · rw [execVred_ready hi hv hd, reduceLanes_add (.inr rfl) hw hmk, if_neg (by decide), redRaises_int (.inr rfl)]
    · obtain ⟨z, hz, hle, hmem⟩ := reduceLanes_least takesLeast_minI32 (fun _ => identity_extreme.1) (.inl rfl) hw hmk
      exact ⟨z, by rw [execVred_ready hi hv hd, hz, if_pos rfl]; rfl, hle, hmem⟩
    · obtain ⟨z, hz, hle, hmem⟩ := reduceLanes_least takesLeast_minN32 (fun _ => identity_extreme.2.1) (.inr rfl) hw hmk
      exact ⟨z, by rw [execVred_ready hi hv hd, hz, if_neg (by decide)]; rfl, hle, hmem⟩
    · obtain ⟨z, hz, hle, hmem⟩ := reduceLanes_least takesLeast_maxI32 (fun _ => identity_extreme.2.2.1) (.inl rfl) hw hmk
      exact ⟨z, by rw [execVred_ready hi hv hd, hz, if_pos rfl]; rfl, hle, hmem⟩
    · obtain ⟨z, hz, hle, hmem⟩ := reduceLanes_least takesLeast_maxN32 (fun _ => identity_extreme.2.2.2) (.inr rfl) hw hmk
      exact ⟨z, by rw [execVred_ready hi hv hd, hz, if_neg (by decide)]; rfl, hle, hmem⟩
    · intro hw16 hL hA
      rw [execVred_ready hi hv hd, hL, hw16, reduceLanes_example hA, if_neg (by decide)]
      rfl
    · refine ⟨Vector.ofFn (fun i => (scanLanes .add .i32 x.fp.ftz (x.active w.laneW m) (vecValue x e q) w.laneW).1.getD i 0), ?_,
        fun i hi => ?_⟩
      · rw [execVscan_ready hi hv hd]
        congr 5
        exact congrArg (fun p : List Word × Flags => p.2) (scanLanes_add hw)
      · rw [← scanLanes_add_getD (ftz := x.fp.ftz) hw i (hmk i hi)]
        exact Vector.getElem_ofFn i.isLt
    · intro rp hw16 hL hnan
      refine ⟨_, _, execVscan_ready hi hv hd, ?_, ?_⟩
      · rw [hL, hw16]
        exact (Vector.getElem_ofFn _).trans (scanLanes_nan hnan)
      · rw [hL]
        exact scanLanes_lane0.2
    · intro hw16 hL hftz h0 h1 h2 h3 h4
      have hlanes (i : Fin 64) (hi : i.val < 5) : (vecValue x e q)[i] = roundingLane i := by
        obtain ⟨i, hi64⟩ := i
        have : i = 0 ∨ i = 1 ∨ i = 2 ∨ i = 3 ∨ i = 4 := by simp only at hi; omega
        rcases this with rfl | rfl | rfl | rfl | rfl
        exacts [h0, h1, h2, h3, h4]
      obtain ⟨hfl, hv1, hv2, hv4⟩ := scanLanes_rounding hlanes
      refine ⟨_, by rw [execVscan_ready hi hv hd, hL, hw16, hftz, hfl]; rfl, ?_, ?_, ?_⟩
      · exact (Vector.getElem_ofFn _).trans hv1
      · exact (Vector.getElem_ofFn _).trans hv2
      · exact (Vector.getElem_ofFn _).trans hv4

end Sys2Proof.Proofs
end

section
/-! SUPPORT. What the distributor's reads leave as it was (R103, R116, R128, R354, R358). -/
namespace Sys2Proof.Machine

variable {s t u : State} {q : Requester}

/-- Two states that differ at most in the errors of lines and words, in what walks cache and in what links count. -/
def ReadFrame (s t : State) : Prop := AccessFrame s t ∧ t.mem = s.mem

theorem ReadFrame.refl : ReadFrame s s := ⟨.refl, rfl⟩

theorem ReadFrame.trans (h : ReadFrame s t) (g : ReadFrame t u) : ReadFrame s u := ⟨h.1.trans g.1, g.2.trans h.2⟩

theorem ReadFrame.launches (h : ReadFrame s t) : t.launches = s.launches := by
  obtain ⟨⟨_, _, _, _, _, _, _, _, _, rfl⟩, -⟩ := h
  rfl

theorem ReadFrame.rows (h : ReadFrame s t) : t.rows = s.rows := by
  obtain ⟨⟨_, _, _, _, _, _, _, _, _, rfl⟩, -⟩ := h
  rfl

theorem ReadFrame.dist (h : ReadFrame s t) : t.dist = s.dist := by
  obtain ⟨⟨_, _, _, _, _, _, _, _, _, rfl⟩, -⟩ := h
  rfl

theorem ReadFrame.fst {α : Type} {p : State × α} {x : α} (hp : ReadFrame s p.1) (h : p = (t, x)) : ReadFrame s t := by
  rw [h] at hp
  exact hp

theorem readAddr_reads (a : Dword) (n : Nat) : ReadFrame s (readAddr s q a n).1 := by
  have hwalk : ReadFrame s (walked s q .read a n) := ⟨walked_access _ _ _, walked_mem _ _ _⟩
  have hnote : ReadFrame (walked s q .read a n) (noteReads (walked s q .read a n) q .read a n) :=
    ⟨noteReads_access _ _ _, noteReads_mem _ _ _⟩
  unfold readAddr
  simp only []
  split
  · split
    · exact hwalk
    · exact hwalk.trans hnote
  · exact hwalk.trans hnote

theorem readLines_reads (a : Dword) (l : List (Nat × Nat)) : ReadFrame s (readLines s q a l).1 := by
  induction l generalizing s with
  | nil => exact .refl
  | cons p l ih =>
    have hfirst : ReadFrame s (readAddr s q (a + dw p.1) p.2).1 := readAddr_reads _ _
    simp only [readLines]
    split
    · next h => exact hfirst.fst h
    · next h =>
      split
      · next hl => exact (hfirst.fst h).trans (ih.fst hl)
      · next hl => exact (hfirst.fst h).trans (ih.fst hl)

theorem distRead_reads (l : Launch) (a : Dword) (n : Nat) : ReadFrame s (distRead s l a n).1 := by
  have hlines : ReadFrame s (readLines s (distRequester s l.asid) a (pieces a n)).1 := readLines_reads _ _
  unfold distRead
  split
  · next h => exact hlines.fst h
  · next h => exact hlines.fst h

/-- A table that is read only where the launch has one. -/
theorem distRead_ite_reads {l : Launch} {a : Dword} {n : Nat} {c : Prop} [Decidable c] :
    ReadFrame s (if c then (s, .ok []) else distRead s l a n : State × Except Byte (List Byte)).1 := by
  split
  · exact .refl
  · exact distRead_reads _ _ _

theorem readTables_reads (l : Launch) : ReadFrame s (readTables s l).1 := by
  unfold readTables
  split
  next u p hp =>
  have hpcs : ReadFrame s u := distRead_ite_reads.fst hp
  split
  · exact hpcs
  split
  next v a ha =>
  have hargs : ReadFrame s v := hpcs.trans (distRead_ite_reads.fst ha)
  split
  · exact hargs
  split
  next w g hg =>
  have hregions : ReadFrame s w := hargs.trans (distRead_ite_reads.fst hg)
  split
  · exact hregions
  · exact hregions

theorem readPhys_reads (pa n : Nat) : ReadFrame s (readPhys s pa n).1 := by
  have hnote (l : List Nat) : ReadFrame s (l.foldl (fun s a => if a < hbmEnd then noteLineRead s a else s) s) := by
    refine List.foldlRecOn l _ .refl (fun t h a _ => h.trans ?_)
    split
    · exact ⟨noteLineRead_access a, noteLineRead_mem a⟩
    · exact .refl
  unfold readPhys
  simp only []
  split
  · exact hnote _
  · split
    · exact hnote _
    · split <;> exact hnote _

end Sys2Proof.Machine
end

section
/-! SUPPORT. Queues: the polling of a head, and its acceptance or rejection (R352 to R358). -/
namespace Sys2Proof.Machine

variable {s t u : State} {q p : BitVec 4} {c : BitVec 2} {bs : List Byte} {st : Byte} {l : Launch} {f : LaunchQueue → LaunchQueue}

/-! ### The record of a queue -/

theorem queue_modQueue_self : (s.modQueue q f).queue q = f (s.queue q) := by simp [State.queue, State.modQueue]

theorem queue_modQueue_other (h : p ≠ q) : (s.modQueue q f).queue p = s.queue p := by
  have hne : q.toNat ≠ p.toNat := fun e => h (BitVec.eq_of_toNat_eq e).symm
  simp [State.queue, State.modQueue, hne]

theorem ReadFrame.queue (h : ReadFrame s t) : t.queue p = s.queue p := by rw [State.queue, h.dist, State.queue]

/-- The record of an error of a head block (R352). -/
def headError (k : LaunchQueue) (st : Byte) (src : Nat) : Dword := dw (2 ^ 63 + k.head.toNat * 2 ^ 32 + src * 2 ^ 8 + st.toNat)

theorem modQueue_modQueue (g : LaunchQueue → LaunchQueue) : (s.modQueue q f).modQueue q g = s.modQueue q (fun k => g (f k)) := by
  simp [State.modQueue]

/-- The queue past a head block that is rejected. -/
def LaunchQueue.rejected (v : Dword) (k : LaunchQueue) : LaunchQueue :=
  { k with err0 := v, err1 := 0, nerr := if k.nerr = BitVec.allOnes 32 then k.nerr else k.nerr + 1 }.pass

theorem rejected_head {v : Dword} {k : LaunchQueue} :
    (k.rejected v).head = BitVec.ofNat 12 ((k.head.toNat + 1) % max 1 k.ring) := rfl

/-- The queue past a head block that is accepted. -/
def LaunchQueue.passed (k : LaunchQueue) : LaunchQueue := { k with nacc := k.nacc + 1 }.pass

/-- A head block is rejected: the failure is recorded and counted, and an interrupt may be raised. -/
theorem rejectHead_eq (src : Nat) : ∃ m, rejectHead s q st src = ({ s with mgmt := m } : State).modQueue q
      (LaunchQueue.rejected (headError (s.queue q) st src)) := by
  have herr : dw (2 ^ 63 + (s.queue q).head.toNat * 2 ^ 32 + 0 * 2 ^ 16 + src * 2 ^ 8 + st.toNat) = headError (s.queue q) st src := by
    rw [Nat.zero_mul, Nat.add_zero, headError]
  have hrec : ∃ m, recordError s q st src 0 (s.queue q).head.toNat 0 =
      ({ s with mgmt := m } : State).modQueue q (fun k => { k with err0 := headError (s.queue q) st src, err1 := 0 }) := by
    rw [recordError, herr]
    split
    · exact ⟨s.mgmt, rfl⟩
    · exact ⟨{ s.mgmt with msix := s.mgmt.msix ++ [q.toNat] }, rfl⟩
  obtain ⟨m, hm⟩ := hrec
  refine ⟨m, ?_⟩
  rw [rejectHead, hm, countError, modQueue_modQueue, modQueue_modQueue]
  rfl

/-- The state once a head block has been accepted as launch l. -/
def acceptHead (s : State) (q : BitVec 4) (l : Launch) : State :=
  (({ s with launches := s.launches ++ [l], dist := { s.dist with accepted := s.dist.accepted + 1 } } : State).modQueue q
    LaunchQueue.passed).bump

/-! ### What becomes of a head block -/

theorem takeHead_unread (h : readPhys s ((s.queue q).entryPa (s.queue q).head.toNat) 256 = (t, .error st)) :
    takeHead s q = rejectHead t q st 2 := by rw [takeHead, h]

theorem takeHead_refused (h : readPhys s ((s.queue q).entryPa (s.queue q).head.toNat) 256 = (t, .ok bs))
    (hb : blockCheck t (launchOf t q bs) = some st) : takeHead s q = rejectHead t q st 0 := by
  rw [takeHead, h]
  simp only [hb]

theorem takeHead_accepted (h : readPhys s ((s.queue q).entryPa (s.queue q).head.toNat) 256 = (t, .ok bs))
    (hb : blockCheck t (launchOf t q bs) = none) (ht : readTables t (launchOf t q bs) = (u, .ok l)) (hl : launchCheck l = none) :
    takeHead s q = acceptHead u q l := by
  rw [takeHead, h]
  simp only [hb, ht, hl]
  rfl

/-- A head block is rejected or accepted, once what the distributor reads of it has been read. -/
theorem takeHead_cases : ∃ t, ReadFrame s t ∧
    ((∃ st src, takeHead s q = rejectHead t q st src) ∨ ∃ l, takeHead s q = acceptHead t q l) := by
  have hphys : ReadFrame s (readPhys s ((s.queue q).entryPa (s.queue q).head.toNat) 256).1 := readPhys_reads _ _
  unfold takeHead
  split
  · next hr => exact ⟨_, hphys.fst hr, .inl ⟨_, _, rfl⟩⟩
  next t bs hr =>
  simp only []
  split
  · exact ⟨_, hphys.fst hr, .inl ⟨_, _, rfl⟩⟩
  have htables : ReadFrame s (readTables t (launchOf t q bs)).1 := (hphys.fst hr).trans (readTables_reads _)
  split
  · next ht => exact ⟨_, htables.fst ht, .inl ⟨_, _, rfl⟩⟩
  next u l ht =>
  split
  · exact ⟨_, htables.fst ht, .inl ⟨_, _, rfl⟩⟩
  · exact ⟨_, htables.fst ht, .inr ⟨_, rfl⟩⟩

/-- A head block is past: the queues but its own, memory and rows are as they were. -/
structure PassedHead (s z : State) (q : BitVec 4) : Prop where
  rr : z.dist.rr = s.dist.rr
  mem : z.mem = s.mem
  rows : z.rows = s.rows
  head : (z.queue q).head = BitVec.ofNat 12 (((s.queue q).head.toNat + 1) % max 1 (s.queue q).ring)
  others : ∀ p, p ≠ q → z.queue p = s.queue p

variable {z : State}

theorem PassedHead.of_read (h : ReadFrame s t) (g : PassedHead t z q) : PassedHead s z q where
  rr := g.rr.trans (congrArg Distributor.rr h.dist)
  mem := g.mem.trans h.2
  rows := g.rows.trans h.rows
  head := by rw [g.head, h.queue]
  others p hp := (g.others p hp).trans h.queue

theorem rejectHead_passed (src : Nat) : PassedHead s (rejectHead s q st src) q := by
  obtain ⟨m, hz⟩ := rejectHead_eq (s := s) (q := q) (st := st) src
  rw [hz]
  exact ⟨rfl, rfl, rfl, by rw [queue_modQueue_self, rejected_head]; rfl, fun _ hp => queue_modQueue_other hp⟩

theorem acceptHead_queue : (acceptHead s q l).queue q = (s.queue q).passed := by
  rw [acceptHead]
  exact queue_modQueue_self

theorem acceptHead_passed : PassedHead s (acceptHead s q l) q :=
  ⟨rfl, rfl, rfl, by rw [acceptHead_queue]; rfl, fun _ hp => by rw [acceptHead]; exact queue_modQueue_other hp⟩

theorem takeHead_passed : PassedHead s (takeHead s q) q := by
  obtain ⟨t, ht, ⟨st, src, h⟩ | ⟨l, h⟩⟩ := takeHead_cases (s := s) (q := q)
  · exact h ▸ .of_read ht (rejectHead_passed src)
  · exact h ▸ .of_read ht acceptHead_passed

theorem rejectHead_unaccepted (src : Nat) : (rejectHead s q st src).launches = s.launches ∧
    ((rejectHead s q st src).queue q).nacc = (s.queue q).nacc ∧
    ((rejectHead s q st src).queue q).err0 = headError (s.queue q) st src := by
  obtain ⟨m, hz⟩ := rejectHead_eq (s := s) (q := q) (st := st) src
  rw [hz]
  rw [queue_modQueue_self]
  exact ⟨rfl, rfl, rfl⟩

theorem headError_block (k : LaunchQueue) (st : Byte) : headError k st 0 = dw (2 ^ 63 + k.head.toNat * 2 ^ 32 + st.toNat) := by
  rw [headError, Nat.zero_mul, Nat.add_zero]

/-- What a rejection leaves, after the reads of the distributor. -/
theorem rejectHead_read (h : ReadFrame s t) (src : Nat) : (rejectHead t q st src).launches = s.launches ∧
    ((rejectHead t q st src).queue q).nacc = (s.queue q).nacc ∧
    ((rejectHead t q st src).queue q).err0 = headError (s.queue q) st src := by
  rw [← h.launches, ← h.queue]
  exact rejectHead_unaccepted src

theorem acceptHead_counted : (acceptHead s q l).launches = s.launches ++ [l] ∧
    ((acceptHead s q l).queue q).nacc = (s.queue q).nacc + 1 ∧ ((acceptHead s q l).queue q).err0 = (s.queue q).err0 := by
  rw [acceptHead_queue]
  exact ⟨rfl, rfl, rfl⟩

/-- What an acceptance leaves, after the reads of the distributor. -/
theorem acceptHead_read (h : ReadFrame s t) : (acceptHead t q l).launches = s.launches ++ [l] ∧
    ((acceptHead t q l).queue q).nacc = (s.queue q).nacc + 1 ∧ ((acceptHead t q l).queue q).err0 = (s.queue q).err0 := by
  rw [← h.launches, ← h.queue]
  exact acceptHead_counted

/-! ### The head that is next -/

theorem bestQueue_mem {l : List (BitVec 4)} (h : bestQueue s l = some q) : q ∈ l := by
  induction l with
  | nil => nomatch h
  | cons p l ih =>
    simp only [bestQueue] at h
    split at h
    · exact Option.some.inj h ▸ List.mem_cons_self
    · next k hk =>
      split at h
      · exact List.mem_cons_of_mem _ (ih (hk.trans h))
      · exact Option.some.inj h ▸ List.mem_cons_self

theorem nextHead_ready (h : nextHead s = some (q, c)) : headReady s q = true := by
  obtain ⟨d, -, hd⟩ := List.exists_of_findSome?_eq_some h
  obtain ⟨p, hp, he⟩ := Option.map_eq_some_iff.1 hd
  have hmem := (List.mem_filter.1 (bestQueue_mem hp)).2
  simp only [Prod.mk.injEq] at he
  rw [he.1, Bool.and_eq_true] at hmem
  exact hmem.2

theorem headReady_ring (h : headReady s q = true) : max 1 (s.queue q).ring = (s.queue q).ring := by
  simp only [headReady, Bool.and_eq_true, bne_iff_ne] at h
  omega

/-! ### Turns of the distributor -/

theorem exec_eventSlotPoll_held (h : pollHeld s q = true) : exec (.eventSlotPoll q) s = .next s := by
  rw [exec_eventSlotPoll, execEventSlotPoll]
  simp only [h, Bool.or_true, if_true]
  rfl

theorem exec_eventSlotPoll_read {v : State} {a b : Bool} (hen : (s.queue q).en = true) (hring : (s.queue q).ring ≠ 0)
    (hheld : pollHeld s q = false) (hcount : (s.queue q).count ≠ 0)
    (hr : readPhys s ((s.queue q).entryPa (s.queue q).head.toNat) 256 = (t, .ok bs))
    (h0 : waitMet t (BitVec.ofNat 6 (fld (bytesDw bs 0) 61 56)) (bytesDw bs 14) (bytesDw bs 15) = (u, .ok a))
    (h1 : waitMet u (BitVec.ofNat 6 (fld (bytesDw bs 0) 61 56)) (bytesDw bs 16) (bytesDw bs 17) = (v, .ok b)) :
    exec (.eventSlotPoll q) s = .next (v.modQueue q (fun k => { k with ready := a && b, failing := false })) := by
  rw [exec_eventSlotPoll, execEventSlotPoll]
  simp only [hen, hring, hheld, hcount, hr, h0, h1, Bool.not_true, decide_false, Bool.or_self, Bool.false_eq_true, if_false]

theorem waitMet_none {asid : BitVec 6} {n : Dword} : waitMet s asid 0 n = (s, .ok true) := if_pos rfl

theorem waitMet_read {asid : BitVec 6} {a n : Dword} (ha : a ≠ 0) (hok : slotAddrOk a = true)
    (hr : readAddr s (distRequester s asid) a 8 = (t, .ok bs)) : waitMet s asid a n = (t, .ok (decide (n.toNat ≤ leNat bs))) := by
  rw [waitMet, if_neg ha, hok, hr]
  rfl

theorem exec_launchAccept_head (hlen : s.launches.length < 64) (hboot : s.mgmt.bootState = 1) (hq : nextHead s = some (q, c)) :
    exec .launchAccept s =
      .next (if headHeld s q = true then s else takeHead { s with dist := { s.dist with rr := c + 1 } } q) := by
  have hroom : ¬ 64 ≤ s.launches.length := Nat.not_le.2 hlen
  rw [exec_launchAccept, execLaunchAccept]
  simp only [hroom, hboot, hq, decide_false, ne_eq, not_true_eq_false, Bool.or_self, Bool.false_eq_true, if_false]
  split <;> rfl

end Sys2Proof.Machine
end

section
/-! SUPPORT. The leasing of a band without regions, and the placement of a launch (R137, R143, R214, R362, R363). -/
namespace Sys2Proof.Machine

variable {s t : State} {l : Launch} {g : Run} {i : Nat}

/-! ### The rows of a run -/

theorem findRow_append_none {m n : List (RowId × Row)} {r : RowId} (h : findRow m r = none) : findRow (m ++ n) r = findRow n r := by
  induction m with
  | nil => rfl
  | cons p m ih =>
    by_cases hp : p.1 = r
    · simp [findRow, hp] at h
    · simp only [findRow, hp, if_false] at h
      simp only [List.cons_append, findRow, hp, if_false, ih h]

theorem findRow_map_name {f : Nat → RowId} {X : Nat → Row} {ns : List Nat} (hmem : i ∈ ns)
    (hinj : ∀ j ∈ ns, f j = f i → j = i) :
    findRow (ns.map (fun j => (f j, X j))) (f i) = some (X i) := by
  induction ns with
  | nil => nomatch hmem
  | cons n ns ih =>
    by_cases hn : n = i
    · simp [findRow, hn]
    · have hne : f n ≠ f i := fun e => hn (hinj n List.mem_cons_self e)
      simp only [List.map_cons, findRow, hne, if_false]
      exact ih ((List.mem_cons.1 hmem).resolve_left (Ne.symm hn)) (fun j hj => hinj j (List.mem_cons_of_mem _ hj))

/-- The name of row i of a run. -/
def ReservedRun.rowName (g : Run) (i : Nat) : RowId := ⟨g.core, g.pane, BitVec.ofNat 7 (g.row0 + i)⟩

theorem rowName_inj {j : Nat} (hi : g.row0 + i < 128) (hj : g.row0 + j < 128) (h : g.rowName j = g.rowName i) : j = i := by
  have hrow := congrArg (fun r => r.prow.toNat) h
  simp only [ReservedRun.rowName, BitVec.toNat_ofNat, Nat.reducePow] at hrow
  omega

/-- Row i of a band that is leased without regions runs at once. -/
theorem leaseBand_row {k ix : Nat} {chain : Option Nat} {prev next : Option Run} (hreg : l.nreg = 0) (hrows : g.row0 + g.height ≤ 96)
    (hfree : s.row? (g.rowName i) = none) (hi : i < g.height) : ∃ (u : State) (wid : Dword) (links : Links),
    (leaseBand s l k ix chain g prev next).row? (g.rowName i) =
      some ((startRow s l s.nextId (g.rowName i) i l.laneW (l.pcOf i) wid l.sregs links .staging).staged u (g.rowName i)) := by
  refine ⟨_, _, _, (stageNext_last_row (x := startRow s l s.nextId (g.rowName i) i l.laneW (l.pcOf i) (l.wid k ix + dw i) l.sregs
    (rowLinks g prev next i) .staging) (Nat.le_of_eq hreg) ?_).trans (congrArg some (if_pos rfl))⟩
  refine (findRow_append_none hfree).trans (findRow_map_name (f := g.rowName) (X := fun j => startRow s l s.nextId (g.rowName j) j
    l.laneW (l.pcOf j) (l.wid k ix + dw j) l.sregs (rowLinks g prev next j) .staging) (List.mem_range.2 hi) fun j hj h => ?_)
  have hj := List.mem_range.1 hj
  exact rowName_inj (by omega) (by omega) h

theorem leaseBand_mem {k ix : Nat} {chain : Option Nat} {prev next : Option Run} (hreg : l.nreg = 0) :
    (leaseBand s l k ix chain g prev next).mem = memClear s.mem (sideKey g.core.toNat g.wbase) g.wsize := by
  rw [leaseBand, stageNext_last (Nat.le_of_eq hreg)]
  rfl

theorem leaseRuns_single {n : Nat} : ∃ k ix chain prev next, leaseRuns l n none [g] s = leaseBand s l k ix chain g prev next :=
  ⟨_, _, _, _, _, rfl⟩

theorem memClear_cleared {m : Memory} {lo n k : Nat} (hlo : lo ≤ k) (hhi : k < lo + n) : memGet (memClear m lo n) k = 0 :=
  memGet_filter_dropped (fun a => decide (a < lo) || decide (lo + n ≤ a)) (by simp; omega)

/-! ### What a row holds at its start (R214) -/

variable {b ix lw : Nat} {pc wid : Dword} {k : Links} {st : RowStatus} {r : RowId}

theorem startRow_sget (j : Reg) : (startRow s l b r ix lw pc wid l.sregs k st).sget j =
    if 1 ≤ j.toNat ∧ j.toNat ≤ 15 then l.args.getD (j.toNat - 1) 0 else 0 := by
  by_cases h0 : j = 0
  · subst h0
    rfl
  have hpos : 1 ≤ j.toNat := Nat.pos_of_ne_zero fun e => h0 (BitVec.eq_of_toNat_eq e)
  rw [Row.sget, if_neg h0]
  have hcond : (j.toNat = 0 ∨ 15 < j.toNat) ↔ ¬ (1 ≤ j.toNat ∧ j.toNat ≤ 15) := by omega
  simp only [startRow, Launch.sregs, Vector.getElem_ofFn, hcond, ite_not]

theorem startRow_vget {sv : Vector Dword 32} {j : Reg} (hj : j.toNat < 28) :
    (startRow s l b r ix lw pc wid sv k st).vget j = zeroLanes := by simp [Row.vget, startRow, hj]

theorem startRow_mget {sv : Vector Dword 32} (j : MReg) :
    (startRow s l b r ix lw pc wid sv k st).mget j = if j = 0 then laneMask lw else 0 := by
  have hj : j = 0 ↔ 0 = j.toNat := ⟨fun e => e ▸ rfl, fun e => BitVec.eq_of_toNat_eq e.symm⟩
  simp only [Row.mget, startRow, Vector.getElem_set, Vector.getElem_replicate, hj]

/-! ### SKEIN_PLACE (R362) -/

theorem exec_skeinPlace_runs {runs : List Run} (hk : s.launch? l.id = some l) (hp : placeRuns s l = some runs)
    (hc : ∀ c ∈ s.conts, contPlace s c = none) (ha : ∀ a ∈ launchesAhead s l, placeRuns s a = none) :
    exec (.skeinPlace l.id) s = .next (leaseRuns l (l.nextSkein * l.nbs) none runs (s.modLaunch l.id (fun j => { j with
      nextSkein := j.nextSkein + (if l.gang then l.skeins else l.group), waited := 0, reserved := [] }))) := by
  have hconts : s.conts.any (fun c => (contPlace s c).isSome) = false := by simpa using hc
  have hahead : (launchesAhead s l).any (fun a => (placeRuns s a).isSome) = false := by simpa using ha
  rw [exec_skeinPlace, execSkeinPlace, hk]
  simp only [hconts, hahead, hp, Bool.or_self, Bool.false_eq_true, if_false]

end Sys2Proof.Machine
end

section
/-! SUPPORT. Reservations, and the bands in their way (R364, R368, R420). -/
namespace Sys2Proof.Machine

variable {s : State} {k l : Launch} {runs : List Run}

/-- A launch due to reserve stands before launch k in the queue for a cluster. -/
def StandsBefore (s : State) (k j : Launch) : Prop :=
  j.id ≠ k.id ∧ reserveDue s j = true ∧ (k.waited < j.waited ∨ (j.waited = k.waited ∧ j.id < k.id))

/-- Such a launch would reserve in a cluster of these runs. -/
def Rivals (s : State) (k : Launch) (runs : List Run) : Prop :=
  ∃ j ∈ s.launches, StandsBefore s k j ∧ ∃ a ∈ (reserveWish s j).1, ∃ r ∈ runs, clusterOf r.core = clusterOf a.core

/-- A launch that is due reserves the runs it may have, unless there are rivals. -/
theorem reserveFor_wish (hdue : reserveDue s k = true) (hne : runs ≠ []) (hw : reserveWish s k = (runs, true)) :
    (¬ Rivals s k runs → reserveFor s k = .next (requestBlockers (s.modLaunch k.id (fun j => { j with reserved := runs })) k.id)) ∧
    (Rivals s k runs → reserveFor s k = .next s) := by
  have hany : s.launches.any (fun j => j.id != k.id && reserveDue s j && queuesBefore j k
      && (reserveWish s j).1.any (fun a => runs.any (fun r => clusterOf r.core == clusterOf a.core))) = true ↔ Rivals s k runs := by
    simp [Rivals, StandsBefore, queuesBefore, and_assoc]
  have hempty : runs.isEmpty = false := List.isEmpty_eq_false_iff.2 hne
  simp only [reserveFor, reserveNow, hw, hdue, hempty, Bool.not_false, Bool.true_and, ← List.not_any_eq_all_not]
  refine ⟨fun h => ?_, fun h => ?_⟩
  · rw [Bool.eq_false_of_not_eq_true (fun e => h (hany.1 e))]
    rfl
  · rw [hany.2 h]
    rfl

theorem reserveWish_one (hg : k.gang = false) (hr : reserveNext s k [] false = some runs)
    (hfree : ∀ r ∈ runs, reservedByOther s k (clusterOf r.core) = false) : reserveWish s k = (runs, true) := by
  have hall : runs.all (fun x => !reservedByOther s k (clusterOf x.core)) = true := by simpa using hfree
  simp only [reserveWish, hg, Bool.false_eq_true, if_false, hr, hall]

theorem reserveWish_gang (hg : k.gang = true) (hr : reserveAll s k (k.skeins / k.group) [] = .ok runs) :
    reserveWish s k = (runs, true) := by simp only [reserveWish, hg, if_true, hr]

theorem exec_skeinReservation_one (hk : s.launch? k.id = some k) (hg : k.gang = false) :
    exec (.skeinReservation k.id) s = reserveFor s k := by
  rw [exec_skeinReservation, execSkeinReservation, hk]
  simp only [hg, Bool.false_eq_true, if_false]

theorem exec_gangReservation_gang (hk : s.launch? k.id = some k) (hg : k.gang = true) :
    exec (.gangReservation k.id) s = reserveFor s k := by
  rw [exec_gangReservation, execGangReservation, hk]
  simp only [hg, if_true]

theorem blocks_iff {b : Band} : blocks s l b = true ↔ b.resident s = true ∧ b.preempt = none ∧
    (∃ r ∈ l.reserved, r.meets b = true) ∧ ∃ j, s.launch? b.launch = some j ∧ j.preemptible = true ∧ j.prio < l.prio := by
  simp only [blocks, Bool.and_eq_true, Option.isNone_iff_eq_none, List.any_eq_true, and_assoc]
  cases s.launch? b.launch <;> simp

theorem requestBlockers_none (hl : s.launch? k.id = some l) (h : ∀ b ∈ s.bands, blocks s l b = false) :
    requestBlockers s k.id = s := by
  have hnone : s.bands.filter (blocks s l) = [] := List.filter_eq_nil_iff.2 fun b hb => by simp [h b hb]
  simp only [requestBlockers, hl, hnone, List.foldl_nil, ite_self]

theorem requestBlockers_refused (hl : s.launch? k.id = some l)
    (h : ∃ b ∈ s.bands, blocks s l b = true ∧ (canPreempt s b = false ∨ unitReduces s b = true)) : requestBlockers s k.id = s := by
  obtain ⟨b, hb, hblocks, hno⟩ := h
  have hall : (s.bands.filter (blocks s l)).all (fun b => canPreempt s b && !unitReduces s b) = false :=
    List.all_eq_false.2 ⟨b, List.mem_filter.2 ⟨hb, hblocks⟩, by rcases hno with h | h <;> simp [h]⟩
  simp only [requestBlockers, hl, hall, Bool.false_and, Bool.false_eq_true, if_false]

theorem reserveDue_iff : reserveDue s k = true ↔
    k.ended = false ∧ k.nextSkein < k.skeins ∧ k.reserved = [] ∧ 2 ^ 16 ≤ k.waited ∧
    ∀ b ∈ s.bands, b.launch = k.id → b.hostHeld = true → b.preempt ≠ some .saved := by
  simp only [reserveDue, wantsPlace, State.bandsOf, Band.isHeld, reserveAfter, Bool.and_eq_true, Bool.not_eq_true', decide_eq_true_eq,
    List.isEmpty_iff, List.any_filter, List.any_eq_false, beq_iff_eq, not_and]
  constructor
  · rintro ⟨⟨⟨⟨hend, hskein⟩, hheld⟩, hres⟩, hwait⟩
    exact ⟨hend, hskein, hres, of_decide_eq_true hwait, hheld⟩
  · rintro ⟨hend, hskein, hres, hwait, hheld⟩
    exact ⟨⟨⟨⟨hend, hskein⟩, hheld⟩, hres⟩, decide_eq_true hwait⟩

end Sys2Proof.Machine
end

section
/-! PROOF. How a launch is accepted and its skeins placed (R352 to R368). -/
open Sys2Proof Sys2Proof.Machine
namespace Sys2Proof.Proofs

/-- Settles O50: a head block passes the queue whether it is rejected or accepted, and what the distributor reads of it
leaves memory, rows and launches; a row is found under its name among the rows of its run. -/
theorem launchPlacement : Obligations.LaunchPlacement := by
  unfold Obligations.LaunchPlacement
  refine ⟨fun s t u v q c bs a b l => ⟨exec_eventSlotPoll_held, exec_eventSlotPoll_read, fun _ _ => waitMet_none,
    fun _ _ _ => waitMet_read, fun hlen hboot hq hheld => ?_, fun hlen hboot hq hheld => ?_⟩,
    fun s k runs hk => ⟨fun hp hc ha => ?_, ⟨?_, ?_⟩, reserveDue_iff⟩⟩
  · rw [exec_launchAccept_head hlen hboot hq, if_pos hheld]
  · have hpass : PassedHead _ (takeHead { s with dist := { s.dist with rr := c + 1 } } q) q := takeHead_passed
    have hring : max 1 (s.queue q).ring = (s.queue q).ring := headReady_ring (nextHead_ready hq)
    refine ⟨_, by rw [exec_launchAccept_head hlen hboot hq, hheld]; rfl, hpass.rr, hpass.mem, hpass.rows, ?_, hpass.others,
      fun st hr => ?_, fun hr => ⟨fun st hb => ?_, fun hb ht hl => ?_⟩⟩
    · rw [hpass.head]
      exact congrArg (fun n => BitVec.ofNat 12 (((s.queue q).head.toNat + 1) % n)) hring
    · rw [takeHead_unread hr]
      exact rejectHead_read ((readPhys_reads _ _).fst hr) 2
    · rw [takeHead_refused hr hb, ← headError_block]
      exact rejectHead_read ((readPhys_reads _ _).fst hr) 0
    · rw [takeHead_accepted hr hb ht hl]
      exact acceptHead_read (s := { s with dist := { s.dist with rr := c + 1 } })
        (((readPhys_reads _ _).fst hr).trans ((readTables_reads _).fst ht))
  · refine ⟨exec_skeinPlace_runs hk hp hc ha, ?_⟩
    rintro g rfl hreg - hrows - hfree i hi
    have hfree' : (s.modLaunch k.id (fun j => { j with
        nextSkein := j.nextSkein + (if k.gang then k.skeins else k.group), waited := 0, reserved := [] })).row? (g.rowName i) = none :=
      hfree i hi
    obtain ⟨n, ix, chain, prev, next, hlease⟩ := leaseRuns_single (l := k) (g := g) (n := k.nextSkein * k.nbs)
    obtain ⟨u, wid, links, hrow⟩ := leaseBand_row hreg hrows hfree' hi
    rw [hlease]
    refine ⟨_, hrow, rfl, rfl, rfl, rfl, ?_, fun j h1 h15 => ?_, fun j h16 => ?_, fun j hj => ?_, ?_, fun j hj => ?_, rfl, rfl,
      fun n hn => ?_⟩
    · exact (startRow_sget 0).trans (if_neg (by decide))
    · exact (startRow_sget j).trans (if_pos ⟨h1, h15⟩)
    · exact (startRow_sget j).trans (if_neg (by omega))
    · exact startRow_vget hj
    · exact (startRow_mget 0).trans (if_pos rfl)
    · exact (startRow_mget j).trans (if_neg hj)
    · rw [leaseBand_mem hreg]
      exact memClear_cleared (by simp only [sideKey]; omega) (by simp only [sideKey]; omega)
  · intro hdue hne
    refine ⟨fun hg hr hfree => ?_, fun hg hr => ?_⟩
    · rw [exec_skeinReservation_one hk hg]
      exact reserveFor_wish hdue hne (reserveWish_one hg hr hfree)
    · rw [exec_gangReservation_gang hk hg]
      exact reserveFor_wish hdue hne (reserveWish_gang hg hr)
  · intro l hl
    exact ⟨fun b _ => blocks_iff, requestBlockers_none hl, requestBlockers_refused hl⟩

end Sys2Proof.Proofs
end

section
/-! SUPPORT. What an instruction of a row leaves of the rest of the machine, whatever it does: complete, wait or trap (R11). -/
namespace Sys2Proof.Machine

variable {s t u v : State} {r : RowId} {x y z : Row} {w : Band} {P Q : Row → Prop}

/-! ### Rows that differ in control only -/

/-- Row y has the registers, flags, ports, matrix state, mask stack and batches of row x. -/
structure SameParts (x y : Row) : Prop where
  regs : y.regs = x.regs
  fp : y.fp = x.fp
  north : y.north = x.north
  south : y.south = x.south
  mx : y.mx = x.mx
  stack : y.stack = x.stack
  cls : y.cls = x.cls

theorem SameParts.refl : SameParts x x := ⟨rfl, rfl, rfl, rfl, rfl, rfl, rfl⟩

theorem SameParts.trans (h : SameParts x y) (g : SameParts y z) : SameParts x z :=
  ⟨g.regs.trans h.regs, g.fp.trans h.fp, g.north.trans h.north, g.south.trans h.south, g.mx.trans h.mx, g.stack.trans h.stack,
    g.cls.trans h.cls⟩

theorem retireRow_parts (n : Nat) : SameParts x (retireRow x n) := by
  unfold retireRow
  simp only []
  split <;> exact ⟨rfl, rfl, rfl, rfl, rfl, rfl, rfl⟩

theorem seePace_parts {g : CoreId} : SameParts x (Row.seePace s g x) := by
  simp only [Row.seePace]
  generalize pacegWord s g = word
  exact ⟨rfl, rfl, rfl, rfl, rfl, rfl, rfl⟩

theorem waitRow_parts (n : Nat) (d : Dom) : SameParts x (waitRow x n d) := ⟨rfl, rfl, rfl, rfl, rfl, rfl, rfl⟩

theorem waitAt_parts (n : Nat) (d : Dom) : SameParts x (waitAt s r x n d) := by
  unfold waitAt
  split
  · exact (waitRow_parts n d).trans seePace_parts
  · exact waitRow_parts n d

theorem ctl_parts (c : RowCtl) : SameParts x { x with ctl := c } := ⟨rfl, rfl, rfl, rfl, rfl, rfl, rfl⟩

theorem owed_parts (l : List Posted) (ps : List Producer) : SameParts x { x with posted := l, prods := ps } :=
  ⟨rfl, rfl, rfl, rfl, rfl, rfl, rfl⟩

theorem trappedRow_parts (cause detail : Byte) (code : BitVec 14) (targ : Dword) :
    SameParts x.leaveWait (trappedRow s r x cause detail code targ) := by
  unfold trappedRow
  exact (ctl_parts _).trans seePace_parts

theorem leaveWait_stamped (n : Nat) : SameParts x.leaveWait (stamped x n).leaveWait := by
  cases hw : x.ctl.wait with
  | none =>
    simp only [Row.leaveWait, stamped, hw]
    exact ctl_parts _
  | some wait =>
    simp only [Row.leaveWait, stamped, hw]
    split <;> exact ⟨rfl, rfl, rfl, rfl, rfl, rfl, rfl⟩

theorem dueParity_parts (o : Option Dword) : SameParts x (x.dueParity o) := by
  unfold Row.dueParity
  split <;> exact ⟨rfl, rfl, rfl, rfl, rfl, rfl, rfl⟩

/-! ### States in which one row differs -/

/-- From s to t row r has come to satisfy P; the other rows, the bands, the commands and the clusters are as they were. -/
structure Framed (s t : State) (r : RowId) (P : Row → Prop) : Prop where
  row : ∃ y, t.row? r = some y ∧ P y
  others : ∀ q, q ≠ r → t.row? q = s.row? q
  bands : t.bands = s.bands
  cmds : t.cmds = s.cmds
  clusters : t.clusters = s.clusters

theorem Framed.parts (h : Framed s t r P) : (∃ y, t.row? r = some y ∧ P y) ∧ (∀ q, q ≠ r → t.row? q = s.row? q) ∧
    t.bands = s.bands ∧ t.cmds = s.cmds ∧ t.clusters = s.clusters := ⟨h.row, h.others, h.bands, h.cmds, h.clusters⟩

theorem Framed.refl (hx : s.row? r = some x) (h : P x) : Framed s s r P := ⟨⟨x, hx, h⟩, fun _ _ => rfl, rfl, rfl, rfl⟩

theorem Framed.trans (h : Framed s t r P) (g : ∀ y, t.row? r = some y → P y → Framed t u r Q) : Framed s u r Q := by
  obtain ⟨y, hy, hp⟩ := h.row
  have hu := g y hy hp
  exact ⟨hu.row, fun q hq => (hu.others q hq).trans (h.others q hq), hu.bands.trans h.bands, hu.cmds.trans h.cmds,
    hu.clusters.trans h.clusters⟩

theorem Framed.imp (h : Framed s t r P) (g : ∀ y, P y → Q y) : Framed s t r Q :=
  h.trans fun y hy hp => .refl hy (g y hp)

theorem framed_setRow (hx : s.row? r = some x) (h : P y) : Framed s (s.setRow r y) r P :=
  ⟨⟨y, row?_setRow_self hx y, h⟩, fun _ hq => row?_setRow_other hq y, rfl, rfl, rfl⟩

theorem framed_modRow {f : Row → Row} (hx : s.row? r = some x) (h : P (f x)) : Framed s (s.modRow r f) r P := by
  rw [modRow_eq hx]
  exact framed_setRow hx h

theorem framed_mem {m : Memory} {l : List Nat} (hx : s.row? r = some x) (h : P x) :
    Framed s { s with mem := m, badWords := l } r P := ⟨⟨x, hx, h⟩, fun _ _ => rfl, rfl, rfl, rfl⟩

theorem framed_completed (hx : s.row? r = some x) : Framed s (completed s r) r (SameParts x) :=
  (framed_modRow (f := fun y => retireRow y (s.stampAt r)) hx (retireRow_parts _)).trans fun _ hy hp =>
    ⟨⟨_, hy, hp⟩, fun _ _ => rfl, rfl, rfl, rfl⟩

theorem performOwed_parts : SameParts x (performOwed s x).2 := by
  unfold performOwed
  exact (owed_parts _ _).trans (dueParity_parts _)

theorem framed_flushPosted (hx : s.row? r = some x) : Framed s (flushPosted s r) r (SameParts x) := by
  refine ⟨⟨_, flushPosted_row hx, performOwed_parts⟩, fun _ hq => flushPosted_row_other hq, ?_, ?_, ?_⟩ <;> rw [flushPosted_eq hx]

theorem settleAtoms_eq (hx : s.row? r = some x) : settleAtoms s r = { s with
    mem := (finishAtoms s x.prods).1.mem
    rows := replaceRow s.rows r (performSteps s x).2 } := by
  have h : (performSteps s x).1 = { s with mem := (finishAtoms s x.prods).1.mem } := finishAtoms_frame s x.prods
  simp only [settleAtoms, hx, State.setRow]
  rw [h]

theorem framed_settleAtoms (hx : s.row? r = some x) : Framed s (settleAtoms s r) r (SameParts x) := by
  have hparts : SameParts x (performSteps s x).2 := by
    unfold performSteps
    exact (owed_parts _ _).trans (dueParity_parts _)
  rw [settleAtoms_eq hx]
  exact ⟨⟨_, findRow_replaceRow_self hx, hparts⟩, fun _ hq => findRow_replaceRow_other hq, rfl, rfl, rfl⟩

/-- A stop leaves the row as it was, or as it is once it is out of its WAIT (R165). -/
theorem framed_stop (hx : s.row? r = some x) (hwf : s.mem.wf = true) {stop : Stop} (h : applyAct r s x (.stop stop) = .next t) :
    Framed s t r (fun y => SameParts x y ∨ SameParts x.leaveWait y) ∧ ∀ k, untraced r.core k → memGet t.mem k = memGet s.mem k := by
  cases stop with
  | wait n d =>
    rw [applyAct_wait, Host.Outcome.next.injEq] at h
    subst h
    exact ⟨framed_setRow hx (.inl (waitAt_parts _ _)), fun _ _ => rfl⟩
  | trap cause detail code targ =>
    rw [applyAct_trap, Host.Outcome.next.injEq] at h
    subst h
    refine ⟨?_, (takeTrap_mem _ _ _ _ hwf).2⟩
    obtain ⟨m, d, ht⟩ := takeTrap_frame (s := s) (r := r) (x := stamped x (s.stampAt r)) cause detail code targ
    rw [trapped, ht]
    exact ⟨⟨_, row?_setRow_self hx _, .inr ((leaveWait_stamped _).trans (trappedRow_parts _ _ _ _))⟩,
      fun _ hq => row?_setRow_other hq _, rfl, rfl, rfl⟩

/-! ### Bodies -/

theorem bind_ok {α β : Type} {m : Except Stop α} {f : α → Except Stop β} {b : β} (h : (m >>= f) = .ok b) :
    ∃ v, m = .ok v ∧ f v = .ok b := by
  cases m with
  | error e => nomatch h
  | ok v => exact ⟨v, rfl, h⟩

/-- What a body gives, where it does not stop, is a state of which Q holds. -/
def Yields (k : Except Stop Act) (Q : State → Prop) : Prop := ∀ a, k = .ok a → (∃ e, a = .stop e) ∨ ∃ t, a = .done t ∧ Q t

variable {α : Type} {q : State → Prop}

theorem Yields.bind {m : Except Stop α} {f : α → Except Stop Act} (h : ∀ v, m = .ok v → Yields (f v) q) : Yields (m >>= f) q := by
  cases m with
  | error e => exact fun a ha => nomatch ha
  | ok v => exact h v rfl

theorem Yields.error {e : Stop} : Yields (.error e) q := fun _ h => nomatch h

theorem Yields.stop {e : Stop} : Yields (.ok (.stop e)) q := fun _ h => .inl ⟨e, (Except.ok.inj h).symm⟩

theorem Yields.done (h : q t) : Yields (.ok (.done t)) q := fun _ ha => .inr ⟨t, (Except.ok.inj ha).symm, h⟩

theorem Yields.ite {c : Prop} [Decidable c] {k l : Except Stop Act} (hk : c → Yields k q) (hl : ¬ c → Yields l q) :
    Yields (if c then k else l) q := by
  split
  · exact hk ‹_›
  · exact hl ‹_›

/-- A check that stops where it fails. -/
theorem check_ok {β : Type} {c : Prop} [Decidable c] {e : Stop} {f : Unit → Except Stop β} {b : β}
    (h : (if c then (.error e >>= f) else f ()) = .ok b) : f () = .ok b := by
  split at h
  · nomatch h
  · exact h

theorem Yields.check {c : Prop} [Decidable c] {e : Stop} {f : Unit → Except Stop Act} (h : Yields (f ()) q) :
    Yields (if c then (.error e >>= f) else f ()) q := fun _ ha => h _ (check_ok ha)

/-- The fields of the repeat that is due are stepped (R51). -/
structure Stepped (x : Row) (fd fa fb : FieldUse) (d a b : Reg) : Prop where
  fieldD : stepped fd (repSteps x.hints).1 x.repix.toNat = some d
  fieldA : stepped fa (repSteps x.hints).2.1 x.repix.toNat = some a
  fieldB : stepped fb (repSteps x.hints).2.2 x.repix.toNat = some b

theorem prologue_ok {acc : Accept} {pw : Bool} {fd fa fb : FieldUse} {c : Ctx} (h : prologue s r x w acc pw fd fa fb = .ok c) :
    ∃ d a b, Stepped x fd fa fb d a b ∧ c = ctxOf s r x w d a b := by
  unfold prologue at h
  simp only [] at h
  split at h
  · nomatch h
  split at h
  · nomatch h
  split at h
  · nomatch h
  split at h
  · exact ⟨_, _, _, ⟨‹_›, ‹_›, ‹_›⟩, (Except.ok.inj h).symm⟩
  · nomatch h

/-- An instruction stops, is passed over, or completes with what its body gives. -/
theorem issue_yields {acc : Accept} {fd fa fb : FieldUse} {body : Ctx → Except Stop Act} (he : Executes s r x w)
    (hskip : q s) (hbody : ∀ d a b, Stepped x fd fa fb d a b → Yields (body (ctxOf s r x w d a b)) q)
    (h : issue s acc fd fa fb body = .next t) : (∃ e, applyAct r s x (.stop e) = .next t) ∨ ∃ u, q u ∧ t = completed u r := by
  unfold issue issueWith at h
  simp only [he.active, he.row, he.band] at h
  split at h
  · exact .inr ⟨s, hskip, (Host.Outcome.next.inj h).symm⟩
  split at h
  · exact .inl ⟨_, h⟩
  next c hc =>
  obtain ⟨d, a, b, hsteps, rfl⟩ := prologue_ok hc
  cases hb : body (ctxOf s r x w d a b) with
  | error e => exact .inl ⟨e, by simpa [hb] using h⟩
  | ok act =>
    rw [hb, ofExcept_ok] at h
    rcases hbody d a b hsteps act hb with ⟨e, rfl⟩ | ⟨u, rfl, hu⟩
    · exact .inl ⟨e, h⟩
    · exact .inr ⟨u, hu, (Host.Outcome.next.inj h).symm⟩

/-! ### Rows and memory together -/

/-- From s to t row r has come to satisfy P, and memory outside the keys of f is that of s or of v. -/
def Leaves (s v : State) (r : RowId) (P : Row → Prop) (f : State → Nat → Prop) (t : State) : Prop :=
  Framed s t r P ∧ ∃ u, (u = s ∨ u = v) ∧ ∀ k, ¬ f u k → memGet t.mem k = memGet u.mem k

/-- The row of an instruction whose body leaves P satisfies P, memory outside the trace buffer and the keys of f is that of s or of v. -/
theorem issue_leaves {acc : Accept} {fd fa fb : FieldUse} {body : Ctx → Except Stop Act} {f : State → Nat → Prop}
    (he : Executes s r x w) (hwf : s.mem.wf = true) (hsame : P x) (hwait : P x.leaveWait) (hparts : ∀ y z, P y → SameParts y z → P z)
    (hbody : ∀ d a b, Stepped x fd fa fb d a b → Yields (body (ctxOf s r x w d a b)) (Leaves s v r P f))
    (h : issue s acc fd fa fb body = .next t) :
    Framed s t r P ∧ ∃ u, (u = s ∨ u = v) ∧ ∀ k, untraced r.core k → ¬ f u k → memGet t.mem k = memGet u.mem k := by
  have hs : Leaves s v r P f s := ⟨.refl he.row hsame, s, .inl rfl, fun _ _ => rfl⟩
  rcases issue_yields he hs hbody h with ⟨e, hstop⟩ | ⟨u, ⟨hframed, m, hm, hmem⟩, rfl⟩
  · obtain ⟨hrow, hmem⟩ := framed_stop he.row hwf hstop
    exact ⟨hrow.imp fun y hy => hy.elim (hparts x y hsame) (hparts x.leaveWait y hwait), s, .inl rfl, fun k hk _ => hmem k hk⟩
  · refine ⟨hframed.trans fun y hy hp => (framed_completed hy).imp fun z hz => hparts y z hp hz, m, hm, fun k _ hk => ?_⟩
    rw [completed, State.bump_mem, State.modRow_mem]
    exact hmem k hk

end Sys2Proof.Machine
end

section
/-! SUPPORT. What loads, stores and atomics leave of the rest of the machine (R232 to R241). -/
namespace Sys2Proof.Machine

variable {s b : State} {r : RowId} {x y z : Row} {w : Band} {c : Ctx} {e : Option Entry} {f : State → Nat → Prop}

/-! ### The row -/

/-- Row y holds the registers, masks, flags, matrix state, mask stack, south port and batches of row x, and its north port, perhaps
without its head entry. -/
def KeptRow (x y : Row) : Prop :=
  y.regs.s = x.regs.s ∧ y.regs.v = x.regs.v ∧ y.regs.m = x.regs.m ∧ y.fp = x.fp ∧
    (y.north = x.north ∨ y.north = x.pop.north) ∧ y.south = x.south ∧ y.mx = x.mx ∧ y.stack = x.stack ∧ y.cls = x.cls

theorem keptRow_refl : KeptRow x x := ⟨rfl, rfl, rfl, rfl, .inl rfl, rfl, rfl, rfl, rfl⟩

theorem keptRow_leaveWait : KeptRow x x.leaveWait := by
  obtain ⟨n, h⟩ := leaveWait_frame (x := x)
  rw [h]
  exact ⟨rfl, rfl, rfl, rfl, .inl rfl, rfl, rfl, rfl, rfl⟩

theorem keptRow_afterPop : KeptRow x (afterPop x e) := by
  cases e with
  | none => exact keptRow_refl
  | some n => exact ⟨rfl, rfl, rfl, rfl, .inr rfl, rfl, rfl, rfl, rfl⟩

theorem KeptRow.parts (h : KeptRow x y) (g : SameParts y z) : KeptRow x z := by
  rw [KeptRow, g.regs, g.fp, g.north, g.south, g.mx, g.stack, g.cls]
  exact h

theorem KeptRow.posted (h : KeptRow x y) (l : List Posted) : KeptRow x { y with posted := l } := h

theorem KeptRow.produce (h : KeptRow x y) (p : Producer) : KeptRow x (y.produce p) := by
  unfold Row.produce
  simp only []
  split
  · exact h
  · rw [Row.markS]
    split <;> exact h

/-! ### The state before the effect -/

/-- State b is s with at most the head entry of row r's north port popped. -/
structure PoppedState (s b : State) (r : RowId) (x : Row) : Prop where
  framed : Framed s b r (KeptRow x)
  mem : b.mem = s.mem
  flushed : (flushPosted b r).mem = (flushPosted s r).mem
  settled : (settleAtoms b r).mem = (settleAtoms s r).mem

theorem performLanes_setRow (g : CoreId) (l : List RemoteLane) :
    performLanes (s.setRow r y) g l = ((performLanes s g l).1.setRow r y, (performLanes s g l).2) := by
  induction l generalizing s with
  | nil => rfl
  | cons j l ih => simp only [performLanes, performLane_setRow, ih]

theorem performPosted_setRow (l : List Posted) :
    performPosted (s.setRow r y) l = ((performPosted s l).1.setRow r y, (performPosted s l).2) := by
  induction l generalizing s with
  | nil => rfl
  | cons p l ih => simp only [performPosted, performLanes_setRow, ih]

theorem popped_refl (hx : s.row? r = some x) : PoppedState s s r x := ⟨.refl hx keptRow_refl, rfl, rfl, rfl⟩

theorem flushPosted_mem (hx : s.row? r = some x) :
    (flushPosted s r).mem = (finishAtoms (performPosted s x.posted).1 x.prods).1.mem := by simp only [flushPosted, hx]; rfl

theorem afterPop_posted : (afterPop x e).posted = x.posted := by cases e <;> rfl
theorem afterPop_prods : (afterPop x e).prods = x.prods := by cases e <;> rfl

theorem popped_afterPop (hx : s.row? r = some x) : PoppedState s (s.setRow r (afterPop x e)) r x where
  framed := framed_setRow hx keptRow_afterPop
  mem := rfl
  flushed := by
    rw [flushPosted_mem hx, flushPosted_mem (row?_setRow_self hx _), afterPop_posted, afterPop_prods, performPosted_setRow,
      finishAtoms_setRow]
    rfl
  settled := by
    rw [settleAtoms_eq hx, settleAtoms_eq (row?_setRow_self hx _), afterPop_prods, finishAtoms_setRow]
    rfl

theorem afterSteps_ok {t : State} {q : Posted} (h : afterSteps s r x q = .ok t) : t = settleAtoms s r ∨ t = s := by
  unfold afterSteps at h
  split at h
  · exact .inl (Except.ok.inj h).symm
  · split at h
    · nomatch h
    · exact .inr (Except.ok.inj h).symm

variable {v : State} (h : PoppedState s b r x)

include h

theorem PoppedState.leaves : Leaves s v r (KeptRow x) f b := ⟨h.framed, s, .inl rfl, fun k _ => by rw [h.mem]⟩

theorem PoppedState.framed_flush : Framed s (flushPosted b r) r (KeptRow x) :=
  h.framed.trans fun _ hy hk => (framed_flushPosted hy).imp fun _ hz => hk.parts hz

/-- The row's posted writes are performed, and then its row changes. -/
theorem PoppedState.leaves_modRow {g : Row → Row} (hg : ∀ y, KeptRow x y → KeptRow x (g y)) :
    Leaves s (flushPosted s r) r (KeptRow x) f ((flushPosted b r).modRow r g) := by
  refine ⟨h.framed_flush.trans fun y hy hk => framed_modRow hy (hg y hk), _, .inr rfl, fun k _ => ?_⟩
  rw [State.modRow_mem, h.flushed]

/-- The row's posted writes are performed, and then bytes are stored. -/
theorem PoppedState.leaves_store {m : Memory} {l : List Nat}
    (hm : ∀ k, ¬ f (flushPosted s r) k → memGet m k = memGet (flushPosted b r).mem k) :
    Leaves s (flushPosted s r) r (KeptRow x) f { flushPosted b r with mem := m, badWords := l } :=
  ⟨h.framed_flush.trans fun _ hy hk => framed_mem hy hk, _, .inr rfl, fun k hk => (hm k hk).trans (by rw [h.flushed])⟩

/-- A write is posted, after the steps of the row's atomics or before them. -/
theorem PoppedState.leaves_post {t : State} {q : Posted} (ha : afterSteps b r x q = .ok t) (l : List Posted) :
    Leaves s (settleAtoms s r) r (KeptRow x) f (t.modRow r (fun y => { y with posted := y.posted ++ l })) := by
  have hpost (u : State) (hu : Framed s u r (KeptRow x)) :
      Framed s (u.modRow r (fun y => { y with posted := y.posted ++ l })) r (KeptRow x) :=
    hu.trans fun y hy hk => framed_modRow hy (hk.posted _)
  rcases afterSteps_ok ha with rfl | rfl
  · have hsettled : Framed s (settleAtoms b r) r (KeptRow x) :=
      h.framed.trans fun _ hy hk => (framed_settleAtoms hy).imp fun _ hz => hk.parts hz
    exact ⟨hpost _ hsettled, _, .inr rfl, fun k _ => by rw [State.modRow_mem, h.settled]⟩
  · exact ⟨hpost _ h.framed, _, .inl rfl, fun k _ => by rw [State.modRow_mem, h.mem]⟩

omit h

/-! ### Loads -/

variable {d' a' b' d a o : Reg} {t : State}

theorem loadBody_yields (hx : s.row? r = some x) (m : MReg) (xs : List Reg) (xv : List VSrc) (addr : Ctx → Option Entry → Nat → Int) :
    Yields (loadBody m xs xv addr (ctxOf s r x w d a o)) (Leaves s (flushPosted s r) r (KeptRow x) f) := by
  unfold loadBody
  refine .bind fun _ _ => .bind fun e _ => .bind fun _ _ => .bind fun _ _ => ?_
  unfold vecLoad
  split
  · exact .done (popped_afterPop hx).leaves
  · exact .done ((popped_afterPop hx).leaves_modRow fun y hy => hy.produce _)

/-! ### Stores -/

theorem needNorth_head {tb : Bool} {n : Entry} (h : c.needNorth tb = .ok n) : c.x.north.fifo.head? = some n := by
  unfold Ctx.needNorth at h
  split at h
  · nomatch h
  split at h
  · nomatch h
  split at h
  · nomatch h
  split at h
  · next hf => rw [hf, List.head?_cons, Except.ok.inj h]
  · split at h
    · nomatch h
    · split at h <;> nomatch h

/-- The entry that the sources take is the head of the north port, where one of them is v28. -/
theorem needSources_entry {l : List VSrc} (h : c.needSources l = .ok e) :
    e = if l.any (fun v => v.reg == 28) then c.x.north.fifo.head? else none := by
  obtain ⟨_, -, h⟩ := bind_ok h
  split at h
  · next hany =>
    obtain ⟨n, hn, h⟩ := bind_ok h
    rw [if_pos hany, needNorth_head hn, ← Except.ok.inj h]
  · next hany => rw [if_neg hany, Except.ok.inj h]


/-- The keys of n bytes at the addresses of the lanes of a mask. -/
def laneKeys (w : Band) (n : Nat) (g : Nat → Int) (mk : Mask) (_ : State) (j : Nat) : Prop :=
  ∃ i, i < 64 ∧ mk.getLsbD i = true ∧ winKey w (g i) ≤ j ∧ j < winKey w (g i) + n

theorem storeBody_yields (hx : s.row? r = some x) (hwf : s.mem.wf = true) (m : MReg) (xs : List Reg) (xv : List VSrc)
    (addr : Ctx → Option Entry → Nat → Int) (g : Nat → Int)
    (haddr : ∀ e, (ctxOf s r x w d a o).needSources (xv ++ [⟨d, modBit x.hints 19, 0⟩]) = .ok e →
      addr (ctxOf s r x w d a o) e = g) :
    Yields (storeBody m xs xv addr (ctxOf s r x w d a o))
      (Leaves s (flushPosted s r) r (KeptRow x) (laneKeys w 4 g (x.active w.laneW m))) := by
  unfold storeBody
  refine .bind fun _ _ => .bind fun e he => .bind fun _ _ => ?_
  unfold vecStore
  split
  · exact .done (popped_afterPop hx).leaves
  simp only []
  split
  · exact .stop
  refine .done ?_
  have hb := popped_afterPop (e := e) hx
  have hmem := flushPosted_wf (s := s.setRow r (afterPop x e)) (r := r) hwf
  rw [haddr e he]
  simp only [ctxOf_s, ctxOf_r, ctxOf_x, ctxOf_band, ctxOf_act, storeLanes_eq]
  refine hb.leaves_store (l := (flushPosted (s.setRow r (afterPop x e)) r).badWords) fun k hk => storeWords_frame _ _ _ hmem ?_
  rintro p hp
  obtain ⟨i, hi, rfl⟩ := List.mem_map.1 hp
  have hon := mem_maskLanes.1 hi
  by_contra hin
  exact hk ⟨i, BitVec.lt_of_getLsbD hon, hon, by simp only at hin; omega, by simp only at hin; omega⟩

/-! ### What each instruction leaves -/

variable {fd fa fb : FieldUse} {acc : Accept} {m : MReg} {n : BitVec 6} {k : BitVec 2} {p : BitVec 4}

theorem Stepped.ofD (h : Stepped x fd fa fb d a o) (v : Reg) : fieldOf fd (repSteps x.hints).1 x v = d := by
  rw [fieldOf, h.fieldD, Option.getD_some]

theorem Stepped.ofA (h : Stepped x fd fa fb d a o) (v : Reg) : fieldOf fa (repSteps x.hints).2.1 x v = a := by
  rw [fieldOf, h.fieldA, Option.getD_some]

theorem Stepped.ofB (h : Stepped x fd fa fb d a o) (v : Reg) : fieldOf fb (repSteps x.hints).2.2 x v = o := by
  rw [fieldOf, h.fieldB, Option.getD_some]

/-- Row r of t is kept, and memory outside the keys of f. -/
def Keeps (s : State) (r : RowId) (x : Row) (f : State → Nat → Prop) (t : State) : Prop :=
  Framed s t r (KeptRow x) ∧ keepsMemory s t r f

theorem Keeps.parts (h : Keeps s r x f t) : ((∃ y, t.row? r = some y ∧ KeptRow x y) ∧ (∀ q, q ≠ r → t.row? q = s.row? q) ∧
    t.bands = s.bands ∧ t.cmds = s.cmds ∧ t.clusters = s.clusters) ∧ keepsMemory s t r f := ⟨h.1.parts, h.2⟩

theorem issue_keeps {body : Ctx → Except Stop Act} (he : Executes s r x w) (hwf : s.mem.wf = true)
    (hbody : ∀ d a o, Stepped x fd fa fb d a o → Yields (body (ctxOf s r x w d a o)) (Leaves s (flushPosted s r) r (KeptRow x) f))
    (h : issue s acc fd fa fb body = .next t) : Keeps s r x f t :=
  issue_leaves he hwf keptRow_refl keptRow_leaveWait (fun _ _ hy hz => hy.parts hz) hbody h

section
variable (he : Executes s r x w) (hwf : s.mem.wf = true)
include he hwf

theorem execLdv_keeps (h : exec (.ldv d' a' m n) s = .next t) : Keeps s r x f t := by
  rw [exec_ldv, execLdv] at h
  refine issue_keeps he hwf (fun _ _ _ _ => ?_) h
  exact loadBody_yields he.row _ _ _ _

theorem execLdvs_keeps (h : exec (.ldvs d' a' b' m n) s = .next t) : Keeps s r x f t := by
  rw [exec_ldvs, execLdvs] at h
  refine issue_keeps he hwf (fun _ _ _ _ => ?_) h
  exact loadBody_yields he.row _ _ _ _

theorem execLdvx_keeps (h : exec (.ldvx d' a' b' m k p) s = .next t) : Keeps s r x f t := by
  rw [exec_ldvx, execLdvx] at h
  refine issue_keeps he hwf (fun _ _ _ _ => ?_) h
  exact loadBody_yields he.row _ _ _ _

theorem execLds_keeps (h : exec (.lds d' a' n) s = .next t) : Keeps s r x f t := by
  rw [exec_lds, execLds] at h
  refine issue_keeps he hwf (fun d a o _ => .bind fun _ _ => .bind fun _ _ => .bind fun _ _ => .done ?_) h
  exact (popped_refl he.row).leaves_modRow fun y hy => hy.produce _

theorem execStv_keeps (h : exec (.stv d' a' m n) s = .next t) : Keeps s r x
    (laneKeys w 4 (fun i => (((x.sget (fieldOf (fSca a') (repSteps x.hints).2.1 x a')).toNat + 4 * n.toNat + 4 * i : Nat) : Int))
      (x.active w.laneW m)) t := by
  rw [exec_stv, execStv] at h
  refine issue_keeps he hwf (fun d a o hs => ?_) h
  rw [hs.ofA]
  exact storeBody_yields he.row hwf _ _ _ _ _ fun _ _ => rfl

theorem execStvs_keeps (h : exec (.stvs d' a' b' m n) s = .next t) : Keeps s r x
    (laneKeys w 4 (fun i => (((x.sget (fieldOf (fSca a') (repSteps x.hints).2.1 x a')).toNat + 4 * n.toNat : Nat) : Int) +
      (x.sget (fieldOf (fSca b') (repSteps x.hints).2.2 x b')).toInt * i) (x.active w.laneW m)) t := by
  rw [exec_stvs, execStvs] at h
  refine issue_keeps he hwf (fun d a o hs => ?_) h
  rw [hs.ofA, hs.ofB]
  exact storeBody_yields he.row hwf _ _ _ _ _ fun _ _ => rfl

/-- The index register of STVX: where it or D is v28, what it reads of the head entry. -/
def indexLanes (x : Row) (d b : Reg) : Lanes := vecValue x (if b = 28 ∨ d = 28 then x.north.fifo.head? else none) b

theorem execStvx_keeps (h : exec (.stvx d' a' b' m k p) s = .next t) : Keeps s r x
    (laneKeys w 4 (fun i => (((x.sget (fieldOf (fSca a') (repSteps x.hints).2.1 x a')).toNat + 4 * p.toNat +
      2 ^ k.toNat * (laneAt (indexLanes x (fieldOf (fVec d') (repSteps x.hints).1 x d')
        (fieldOf (fVec b') (repSteps x.hints).2.2 x b')) i).toNat : Nat) : Int)) (x.active w.laneW m)) t := by
  rw [exec_stvx, execStvx] at h
  refine issue_keeps he hwf (fun d a o hs => ?_) h
  rw [hs.ofA, hs.ofB, hs.ofD]
  refine storeBody_yields he.row hwf _ _ _ _ _ fun e hent => ?_
  have hany : ([⟨o, false, 2⟩] ++ [⟨d, modBit x.hints 19, 0⟩] : List VSrc).any (fun v => v.reg == 28) = true ↔
      o = 28 ∨ d = 28 := by simp
  rw [needSources_entry hent]
  simp only [ctxOf_b, hany]
  rfl

theorem execSts_keeps (h : exec (.sts d' a' n) s = .next t) : Keeps s r x
    (laneKeys w 8 (fun _ => (((x.sget (fieldOf (fSca a') (repSteps x.hints).2.1 x a')).toNat + 8 * n.toNat : Nat) : Int)) 1) t := by
  rw [exec_sts, execSts] at h
  refine issue_keeps he hwf (fun d a o hs => .bind fun _ _ => .bind fun _ _ => .bind fun _ _ => .done ?_) h
  rw [hs.ofA]
  refine (popped_refl he.row).leaves_store fun j hj => ?_
  refine (memGet_memWrite _ _ _ _ (flushPosted_wf hwf)).trans (if_neg ?_)
  rw [leBytes_length]
  rintro ⟨hlo, hhi⟩
  exact hj ⟨0, by decide, by decide, hlo, hhi⟩

theorem execRldv_keeps (h : exec (.rldv d' a' m n) s = .next t) : Keeps s r x f t := by
  rw [exec_rldv, execRldv] at h
  refine issue_keeps he hwf (fun d a o _ => .bind fun _ _ => .bind fun _ _ => .bind fun _ _ => .ite (fun _ => ?_) fun _ => ?_) h
  · exact .done (popped_refl he.row).leaves
  · exact .bind fun _ _ => .done ((popped_refl he.row).leaves_modRow fun y hy => hy.produce _)

theorem execAtom_keeps {q : BitVec 2} {sc : Bool} {op : AtomOp} (h : exec (.atom d' a' b' m q sc op) s = .next t) : Keeps s r x f t := by
  rw [exec_atom, execAtom] at h
  refine issue_keeps he hwf (fun d a o _ => .bind fun e _ => .bind fun _ _ => .bind fun _ _ => .ite (fun _ => ?_) fun _ => ?_) h
  · exact .done (popped_afterPop he.row).leaves
  · refine .bind fun _ _ => ?_
    simp only []
    split
    · exact .stop
    · exact .done ((popped_afterPop he.row).leaves_modRow fun y hy => hy.produce _)

theorem execRatom_keeps {q : BitVec 2} {rt : Bool} {op : AtomOp} (h : exec (.ratom d' a' b' m q rt op) s = .next t) : Keeps s r x f t := by
  rw [exec_ratom, execRatom] at h
  refine issue_keeps he hwf (fun d a o _ => .bind fun e _ => ?_) h
  have hpopped := popped_afterPop (e := e) he.row
  refine .ite (fun _ => .bind fun _ _ => ?_) fun _ => ?_
  all_goals
    refine .bind fun _ _ => .ite (fun _ => .done hpopped.leaves) fun _ => .bind fun _ _ => .bind fun _ _ => ?_
    exact .ite (fun _ => .done (hpopped.leaves_modRow fun y hy => hy.produce _))
      fun _ => .done (hpopped.leaves_modRow fun y hy => hy.posted _)

/-- RSTV makes the steps of the row's atomics, or none where no later one reaches its words. -/
theorem execRstv_keeps (h : exec (.rstv d' a' m n) s = .next t) : Framed s t r (KeptRow x) ∧
    ∃ u, (u = s ∨ u = settleAtoms s r) ∧ ∀ j, untraced r.core j → memGet t.mem j = memGet u.mem j := by
  rw [exec_rstv, execRstv] at h
  have hleaves : Framed s t r (KeptRow x) ∧ ∃ u, (u = s ∨ u = settleAtoms s r) ∧
      ∀ j, untraced r.core j → ¬ False → memGet t.mem j = memGet u.mem j := by
    refine issue_leaves he hwf keptRow_refl keptRow_leaveWait (fun _ _ hy hz => hy.parts hz)
      (fun d a o _ => .bind fun _ _ => .bind fun e _ => .bind fun _ _ => .ite (fun _ => ?_) fun _ => .bind fun v hv => .done ?_) h
    · exact .done (popped_afterPop he.row).leaves
    · exact (popped_afterPop he.row).leaves_post hv _
  obtain ⟨hrow, u, hu, hmem⟩ := hleaves
  exact ⟨hrow, u, hu, fun j hj => hmem j hj not_false⟩

end

end Sys2Proof.Machine
end

section
/-! SUPPORT. What the card instructions leave of the rest of the machine (R314 to R331). -/
namespace Sys2Proof.Machine

variable {s t u : State} {r : RowId} {x y z : Row} {w : Band} {c : Ctx} {P : Row → Prop} {off n k : Nat} {bs : List Byte}

/-! ### The row -/

/-- Row y is x but for scalar register d, its control, what a trap does to its full bits, and flags and PEND where it may raise. -/
def CardRow (d : Reg) (quiet : Prop) (x y : Row) : Prop :=
  (∀ e : Reg, e ≠ d → y.sget e = x.sget e) ∧ x.keepsFull y ∧ y.regs.v = x.regs.v ∧ y.regs.vfull = x.regs.vfull ∧
    y.regs.m = x.regs.m ∧ y.fp = { x.fp with flags := y.fp.flags, pend := y.fp.pend } ∧ (quiet → y.fp = x.fp) ∧
    y.north = x.north ∧ y.south = x.south ∧ y.mx = x.mx ∧ y.stack = x.stack ∧ y.cls = x.cls

variable {d : Reg} {quiet : Prop}

theorem cardRow_refl : CardRow d quiet x x := ⟨fun _ _ => rfl, .inl rfl, rfl, rfl, rfl, rfl, fun _ => rfl, rfl, rfl, rfl, rfl, rfl⟩

theorem cardRow_leaveWait : CardRow d quiet x x.leaveWait := by
  have hfull : x.keepsFull x.leaveWait := .inr rfl
  obtain ⟨n, h⟩ := leaveWait_frame (x := x)
  rw [h] at hfull ⊢
  exact ⟨fun _ _ => rfl, hfull, rfl, rfl, rfl, rfl, fun _ => rfl, rfl, rfl, rfl, rfl, rfl⟩

theorem CardRow.parts (h : CardRow d quiet x y) (g : SameParts y z) : CardRow d quiet x z := by
  have hsget (e : Reg) : z.sget e = y.sget e := Row.sget_congr g.regs
  rw [CardRow, Row.keepsFull, g.regs, g.fp, g.north, g.south, g.mx, g.stack, g.cls]
  simp only [hsget]
  exact h

theorem CardRow.sset (h : CardRow d quiet x y) (v : Dword) : CardRow d quiet x (y.sset d v) := by
  obtain ⟨hs, hrest⟩ := h
  refine ⟨fun e he => (Row.sget_sset_other he).trans (hs e he), ?_⟩
  unfold Row.sset
  split <;> exact hrest

theorem CardRow.raise (hq : ¬ quiet) (h : CardRow d quiet x y) (fl : Flags) : CardRow d quiet x (y.raise fl) := by
  obtain ⟨hs, hf, hv, hvf, hm, hfp, -, hrest⟩ := h
  refine ⟨hs, hf, hv, hvf, hm, ?_, fun hquiet => absurd hquiet hq, hrest⟩
  rw [Row.raise, hfp]

/-! ### Writes of the window -/

theorem sideWrite_wf (hwf : s.mem.wf = true) : (sideWrite s w off bs).mem.wf = true := memWrite_wf _ _ _ hwf

theorem sideWrite_mem (hwf : s.mem.wf = true) (hn : bs.length ≤ n) (hk : ¬ inRange w off n k) :
    memGet (sideWrite s w off bs).mem k = memGet s.mem k :=
  (memGet_memWrite _ _ _ _ hwf).trans (if_neg fun h => hk ⟨h.1, h.2.trans_le (Nat.add_le_add_left hn _)⟩)

theorem sideWrite_framed (hx : s.row? r = some x) (h : P x) : Framed s (sideWrite s w off bs) r P := framed_mem hx h

/-- The row after two writes. -/
theorem sideWrite_twice {off' : Nat} {bs' : List Byte} (hx : s.row? r = some x) :
    Framed s (sideWrite (sideWrite s w off bs) w off' bs') r (fun _ => True) :=
  (sideWrite_framed (P := fun _ => True) hx trivial).trans fun _ hy _ => sideWrite_framed hy trivial

/-! ### What the instruction reads -/

theorem readRange_ok (h : c.readRange off n = .ok bs) : bs = c.bytes off n := by
  obtain ⟨_, -, h⟩ := bind_ok h
  split at h
  · nomatch h
  · exact (Except.ok.inj h).symm

theorem cardHeader_ok (h : c.cardHeader off = .ok bs) : bs = c.bytes off 32 := by
  unfold Ctx.cardHeader at h
  obtain ⟨hd, hr, h⟩ := bind_ok (check_ok (check_ok h))
  exact (Except.ok.inj (check_ok (f := fun _ => .ok hd) h)).symm.trans (readRange_ok hr)

theorem denseArgs_ok {a b : Reg} {g : DenseArgs} (h : c.denseArgs a b = .ok g) :
    g = ⟨fld (c.x.sget a) 19 0, fld (c.x.sget a) 51 32, fld (c.x.sget b) 19 0, c.bytes (fld (c.x.sget b) 19 0) 32⟩ := by
  obtain ⟨_, -, h⟩ := bind_ok h
  obtain ⟨_, -, h⟩ := bind_ok h
  obtain ⟨hd, hh, h⟩ := bind_ok h
  rw [← Except.ok.inj h, cardHeader_ok hh]

theorem mapM_ok {α β : Type} {f : α → Except Stop β} {g : α → β} {l : List α} {m : List β} (h : l.mapM f = .ok m)
    (hg : ∀ a v, f a = .ok v → v = g a) : m = l.map g := by
  induction l generalizing m with
  | nil => exact (Except.ok.inj h).symm
  | cons a l ih =>
    rw [List.mapM_cons] at h
    obtain ⟨v, hv, h⟩ := bind_ok h
    obtain ⟨vs, hvs, h⟩ := bind_ok h
    rw [← Except.ok.inj h, ih hvs, hg a v hv, List.map_cons]

/-! ### CARDCK and MPACK -/

variable {a b : Reg} {ta tb : Bool} {f : State → Nat → Prop}

@[simp] theorem entryCtx_s {d a b : Reg} : (entryCtx s r x y w d a b).s = flushPosted s r := rfl
@[simp] theorem entryCtx_r {d a b : Reg} : (entryCtx s r x y w d a b).r = r := rfl
@[simp] theorem entryCtx_x {d a b : Reg} : (entryCtx s r x y w d a b).x = y := rfl
@[simp] theorem entryCtx_band {d a b : Reg} : (entryCtx s r x y w d a b).band = w := rfl
@[simp] theorem entryCtx_bytes {d a b : Reg} : (entryCtx s r x y w d a b).bytes off n =
    memRead (flushPosted s r).mem (winKey w off) n := rfl

theorem settled_entry (hx : s.row? r = some x) {d a b : Reg} : ∃ y, (flushPosted s r).row? r = some y ∧ SameParts x y ∧
    (ctxOf s r x w d a b).settled = entryCtx s r x y w d a b := by
  obtain ⟨y, hy, hparts⟩ := (framed_flushPosted hx).row
  exact ⟨y, hy, hparts, by simp only [Ctx.settled, ctxOf_s, ctxOf_r, hy, Option.getD_some, entryCtx]⟩

/-- Row r of t is x but for register d, and memory outside the keys of f is kept. -/
def CardKeeps (s : State) (r : RowId) (d : Reg) (quiet : Prop) (x : Row) (f : State → Nat → Prop) (t : State) : Prop :=
  Framed s t r (CardRow d quiet x) ∧ keepsMemory s t r f

theorem CardKeeps.parts (h : CardKeeps s r d quiet x f t) : (∃ y, t.row? r = some y ∧ CardRow d quiet x y) ∧
    (∀ q, q ≠ r → t.row? q = s.row? q) ∧ t.bands = s.bands ∧ t.cmds = s.cmds ∧ t.clusters = s.clusters ∧
    keepsMemory s t r f :=
  ⟨h.1.row, h.1.others, h.1.bands, h.1.cmds, h.1.clusters, h.2⟩

theorem issue_card {body : Ctx → Except Stop Act} {acc : Accept} {fd fa fb : FieldUse} (he : Executes s r x w) (hwf : s.mem.wf = true)
    (hbody : ∀ d' a o y, (flushPosted s r).row? r = some y → SameParts x y →
      (ctxOf s r x w d' a o).settled = entryCtx s r x y w d' a o →
      Yields (body (ctxOf s r x w d' a o)) (Leaves s (flushPosted s r) r (CardRow d quiet x) f))
    (h : issue s acc fd fa fb body = .next t) : CardKeeps s r d quiet x f t := by
  refine issue_leaves he hwf cardRow_refl cardRow_leaveWait (fun _ _ hy hz => hy.parts hz) (fun d' a o _ => ?_) h
  obtain ⟨y, hy, hparts, hc⟩ := settled_entry (w := w) he.row (d := d') (a := a) (b := o)
  exact hbody d' a o y hy hparts hc

/-- The window is written once the row's posted writes have been performed, and then the row changes. -/
theorem leaves_card {v : State} {Q : Row → Prop} (hx : s.row? r = some x) (hv : Framed (flushPosted s r) v r Q)
    (hm : ∀ k, ¬ f (flushPosted s r) k → memGet v.mem k = memGet (flushPosted s r).mem k) (hz : CardRow d quiet x z) :
    Leaves s (flushPosted s r) r (CardRow d quiet x) f (v.setRow r z) :=
  ⟨(framed_flushPosted hx).trans fun _ _ _ => hv.trans fun _ hy _ => framed_setRow hy hz, _, .inr rfl, hm⟩

theorem execCardck_keeps (he : Executes s r x w) (hwf : s.mem.wf = true) (h : exec (.cardck d a ta) s = .next t) :
    CardKeeps s r d quiet x f t := by
  rw [exec_cardck, execCardck] at h
  refine issue_card he hwf (fun _ _ _ y hy hparts hc => .bind fun _ _ => .bind fun _ _ => .bind fun _ _ => ?_) h
  rw [hc]
  refine .bind fun _ _ => .bind fun _ _ => .bind fun _ _ => .done ?_
  exact leaves_card he.row (.refl (P := fun _ => True) hy trivial) (fun _ _ => rfl) ((cardRow_refl.parts hparts).sset _)

/-- The rows of the dense operand that a card instruction reads. -/
def denseRows (u : State) (w : Band) (k : Card) (A : Dword) : List (List Byte) :=
  (List.range k.rop).map (fun i => memRead u.mem (winKey w (fld A 19 0 + i * fld A 51 32 : Nat)) (k.kop * k.e))

/-- Element (i, j) of rows of bytes. -/
def elemOf (k : Card) (rows : List (List Byte)) (i j : Nat) : List Byte := ((rows.getD i []).drop (j * k.e)).take k.e

/-- The keys that MPACK writes under card k: its metadata and its values. -/
def packKeys (w : Band) (off : Nat) (k : Card) (rows : List (List Byte)) (j : Nat) : Prop :=
  inRange w (off + k.moff) (packMasks k.m (k.prune (elemOf k rows)).1).length j ∨
    inRange w (off + k.voff) (k.packValues (k.prune (elemOf k rows)).1 (elemOf k rows)).length j

theorem execMpack_keeps (he : Executes s r x w) (hwf : s.mem.wf = true) (h : exec (.mpack d a b ta tb) s = .next t) :
    CardKeeps s r d quiet x (fun u j =>
      packKeys w (fld (x.sget b) 19 0) (cardOf (memRead u.mem (winKey w (fld (x.sget b) 19 0 : Nat)) 32))
        (denseRows u w (cardOf (memRead u.mem (winKey w (fld (x.sget b) 19 0 : Nat)) 32)) (x.sget a)) j) t := by
  rw [exec_mpack, execMpack] at h
  refine issue_card he hwf (fun _ _ _ y hy hparts hc => .bind fun _ _ => .bind fun _ _ => .bind fun _ _ => .bind fun _ _ => ?_) h
  rw [hc]
  refine .bind fun g hg => .bind fun _ _ => .bind fun _ _ => .bind fun rows hrows => .bind fun _ _ => .bind fun _ _ => .done ?_
  have hsget (e : Reg) : y.sget e = x.sget e := Row.sget_congr hparts.regs
  have hg := denseArgs_ok hg
  simp only [entryCtx_x, hsget, entryCtx_bytes] at hg
  subst hg
  have hrows := mapM_ok hrows (fun _ _ hv => readRange_ok hv)
  simp only [entryCtx_bytes] at hrows
  have hfwf : (flushPosted s r).mem.wf = true := flushPosted_wf hwf
  refine leaves_card he.row (sideWrite_twice hy) (fun j hj => ?_) ((cardRow_refl.parts hparts).sset _)
  obtain ⟨hmasks, hvalues⟩ := not_or.1 hj
  rw [hrows]
  exact (sideWrite_mem (sideWrite_wf hfwf) le_rfl hvalues).trans (sideWrite_mem hfwf le_rfl hmasks)

/-- Writes of the window, one for each number of a list, within its own range. -/
theorem sideWrites_mem {rng : Nat → Nat} {data : Nat → List Byte} (hwf : s.mem.wf = true) (l : List Nat)
    (hn : ∀ i ∈ l, (data i).length ≤ n) (hk : ∀ i ∈ l, ¬ inRange w (rng i) n k) :
    memGet (l.foldl (fun s i => sideWrite s w (rng i) (data i)) s).mem k = memGet s.mem k := by
  induction l generalizing s with
  | nil => rfl
  | cons i l ih =>
    rw [List.foldl_cons, ih (sideWrite_wf hwf) (fun j hj => hn j (List.mem_cons_of_mem _ hj))
      (fun j hj => hk j (List.mem_cons_of_mem _ hj))]
    exact sideWrite_mem hwf (hn i List.mem_cons_self) (hk i List.mem_cons_self)

theorem sideWrites_framed {rng : Nat → Nat} {data : Nat → List Byte} (hx : s.row? r = some x) (h : P x) (l : List Nat) :
    Framed s (l.foldl (fun s i => sideWrite s w (rng i) (data i)) s) r P := by
  induction l generalizing s with
  | nil => exact .refl hx h
  | cons i l ih => exact (sideWrite_framed (P := P) hx h).trans fun _ _ _ => ih hx

theorem element_length {k : Card} (masks : List Nat) (vals : List Byte) (i j : Nat) : (k.element masks vals i j).length ≤ k.e := by
  unfold Card.element
  split
  · exact List.length_take_le _ _
  · exact (List.length_replicate).le

theorem elements_length {k : Card} (masks : List Nat) (vals : List Byte) (i : Nat) (m : Nat) :
    ((List.range m).flatMap (fun j => k.element masks vals i j)).length ≤ m * k.e := by
  induction m with
  | zero => exact Nat.zero_le _
  | succ m ih =>
    rw [List.range_succ, List.flatMap_append, List.length_append, List.flatMap_singleton, Nat.succ_mul]
    exact Nat.add_le_add ih (element_length _ _ _ _)

theorem execMunpk_keeps (he : Executes s r x w) (hwf : s.mem.wf = true) (h : exec (.munpk a b ta tb) s = .next t) :
    CardKeeps s r d quiet x (fun u j => ∃ i, i < (cardOf (memRead u.mem (winKey w (fld (x.sget b) 19 0 : Nat)) 32)).rop ∧
      inRange w (fld (x.sget a) 19 0 + i * fld (x.sget a) 51 32)
        ((cardOf (memRead u.mem (winKey w (fld (x.sget b) 19 0 : Nat)) 32)).kop *
          (cardOf (memRead u.mem (winKey w (fld (x.sget b) 19 0 : Nat)) 32)).e) j) t := by
  rw [exec_munpk, execMunpk] at h
  refine issue_card he hwf (fun _ _ _ y hy hparts hc => .bind fun _ _ => .bind fun _ _ => .bind fun _ _ => ?_) h
  rw [hc]
  refine .bind fun g hg => .bind fun masks _ => .bind fun _ _ => .bind fun _ _ => .bind fun vals _ => .bind fun _ _ => .done ?_
  have hsget (e : Reg) : y.sget e = x.sget e := Row.sget_congr hparts.regs
  have hg := denseArgs_ok hg
  simp only [entryCtx_x, hsget, entryCtx_bytes] at hg
  subst hg
  have hframed : Framed s (flushPosted s r) r (CardRow d quiet x) :=
    (framed_flushPosted he.row).imp fun _ hz => cardRow_refl.parts hz
  refine ⟨hframed.trans fun z hz hp => sideWrites_framed hz hp _, _, .inr rfl, fun j hj => ?_⟩
  refine sideWrites_mem (flushPosted_wf hwf) _ (fun i _ => elements_length masks vals i _) fun i hi hin => ?_
  exact hj ⟨i, List.mem_range.1 hi, hin⟩

/-! ### QPACK -/

theorem packNibbles_length : ∀ l : List Nat, (packNibbles l).length = (l.length + 1) / 2
  | [] => rfl
  | [_] => by simp [packNibbles]
  | a :: b :: l => by simp only [packNibbles, List.length_cons, packNibbles_length l]; omega

theorem blocks64_length (xs : List Word) (nb : Nat) : (blocks64 xs nb).length = nb := by simp [blocks64]

theorem blocks64_elements (f : List Word → Word → Nat) (xs : List Word) (nb : Nat) :
    ((blocks64 xs nb).flatMap (fun b => b.map (f b))).length ≤ 64 * nb := by
  induction nb with
  | zero => exact Nat.le_refl _
  | succ nb ih =>
    have hsplit : blocks64 xs (nb + 1) = blocks64 xs nb ++ [(xs.drop (64 * nb)).take 64] := by
      simp only [blocks64, List.range_succ, List.map_append, List.map_cons, List.map_nil]
    rw [hsplit, List.flatMap_append, List.length_append, List.flatMap_singleton, List.length_map]
    have := List.length_take_le 64 (xs.drop (64 * nb))
    omega

theorem quantise_lengths (p : Nat) (xs : List Word) (nb : Nat) : (quantise p (blocks64 xs nb)).1.length = nb ∧
    (quantise p (blocks64 xs nb)).2.1.length ≤ 32 * nb := by
  have hhalf (m : Nat) (h : m ≤ 64 * nb) : (m + 1) / 2 ≤ 32 * nb := by omega
  exact ⟨(List.length_map _).trans (blocks64_length xs nb),
    (packNibbles_length _).trans_le (hhalf _ (blocks64_elements _ xs nb))⟩

theorem execQpack_keeps (hq : ¬ quiet) (he : Executes s r x w) (hwf : s.mem.wf = true)
    (h : exec (.qpack d a b ta tb) s = .next t) : CardKeeps s r d quiet x (fun _ j =>
      inRange w (fld (x.sget b) 51 32) (fld (x.sget a) 39 32 + 1) j ∨
      inRange w (fld (x.sget b) 19 0) (32 * (fld (x.sget a) 39 32 + 1)) j) t := by
  rw [exec_qpack, execQpack] at h
  refine issue_card he hwf (fun _ _ _ y hy hparts hc => .bind fun _ _ => .bind fun _ _ => .bind fun _ _ => .bind fun _ _ => ?_) h
  rw [hc]
  refine .bind fun _ _ => .bind fun _ _ => .check (.check (.check (.check (.check (.check (.bind fun bs _ => ?_))))))
  have hsget (e : Reg) : y.sget e = x.sget e := Row.sget_congr hparts.regs
  simp only [entryCtx_x, entryCtx_s, entryCtx_r, entryCtx_band, hsget]
  obtain ⟨hcodes, hixs⟩ := quantise_lengths (fld (x.sget a) 63 56) (bytesWords bs (64 * (fld (x.sget a) 39 32 + 1)))
    (fld (x.sget a) 39 32 + 1)
  generalize quantise _ _ = out at hcodes hixs ⊢
  obtain ⟨codes, ixs, sup, nan⟩ := out
  refine .bind fun _ _ => .bind fun _ _ => .done ?_
  have hfwf : (flushPosted s r).mem.wf = true := flushPosted_wf hwf
  refine leaves_card he.row (sideWrite_twice hy) (fun j hj => ?_)
    ((CardRow.raise hq (cardRow_refl.parts hparts) _).sset _)
  obtain ⟨hcode, hidx⟩ := not_or.1 hj
  exact (sideWrite_mem (sideWrite_wf hfwf) hixs hidx).trans (sideWrite_mem hfwf hcodes.le hcode)

end Sys2Proof.Machine
end

section
/-! PROOF. What loads, stores, atomics and card instructions leave unchanged (R232 to R241, R314 to R331). -/
open Sys2Proof Sys2Proof.Machine
namespace Sys2Proof.Proofs

/-- Settles O54: an instruction stops, which leaves its row's state and memory outside the trace buffer, is passed over, or
completes with what its body gives, and a body changes the row and memory by the writes that the statement names. -/
theorem memoryFrame : Obligations.MemoryFrame := by
  unfold Obligations.MemoryFrame
  refine ⟨fun s r x w d a b m n k h he hwf => ?_, fun s r x w d a b ta tb he hwf => ?_⟩
  · exact ⟨fun _ ht => (execStv_keeps he hwf ht).parts, fun _ ht => (execStvs_keeps he hwf ht).parts,
      fun _ ht => (execStvx_keeps he hwf ht).parts, fun _ ht => (execSts_keeps he hwf ht).parts,
      fun _ ht => (execLdv_keeps he hwf ht).parts, fun _ ht => (execLdvs_keeps he hwf ht).parts,
      fun _ ht => (execLdvx_keeps he hwf ht).parts, fun _ ht => (execLds_keeps he hwf ht).parts,
      fun _ ht => (execRldv_keeps he hwf ht).parts,
      fun _ _ _ => ⟨fun _ ht => (execAtom_keeps he hwf ht).parts, fun _ ht => (execRatom_keeps he hwf ht).parts⟩,
      fun _ ht => (execRstv_keeps he hwf ht).imp Framed.parts id⟩
  · exact ⟨fun _ ht => (execCardck_keeps he hwf ht).parts, fun _ ht => (execMpack_keeps he hwf ht).parts,
      fun _ ht => (execMunpk_keeps he hwf ht).parts,
      fun _ ht => (execQpack_keeps (fun hne => hne rfl) he hwf ht).parts⟩

end Sys2Proof.Proofs
end
